-- ==== Sys2Proof/Word.lean ====
section
/-! DEFINITION. The machine words of the Koluivor: a scalar register is 64 bits (R219), a vector register is
64 lanes of 32 bits (R249), a slot is 32 bits (R187). -/

namespace Sys2Proof

/-- A scalar value (R219). -/
abbrev Word := BitVec 64
/-- A slot word (R187). -/
abbrev SlotWord := BitVec 32
/-- A vector register: lane `i` is bits `[32i+31 : 32i]` (R249). -/
abbrev VReg := BitVec 2048
/-- One byte of memory. -/
abbrev Byte := BitVec 8
/-- A 6-bit register field as it stands in a slot; its numbering is that of R193. -/
abbrev RegField := BitVec 6

end Sys2Proof
end

