-- ==== Sys2Proof/Syntax.lean ====
section
/-! DEFINITION. The instruction set: one constructor per row of the opcode table. A slot row is a slot together
with the K slots that belong to it (R195): its immediate or its modifier. The E bit of a slot is framing of the
bundle (R188), not part of the instruction. The other rows are the machine's own events and the outside world's
actions: they have no encoding and carry what they act on. -/

namespace Sys2Proof

/-- The modifier K slot of an A-, Mx- or Lighter-format slot (R196). -/
structure Modifier where
  gen  : Bool
  gneg : Bool
  greg : RegField
  xf   : BitVec 20
  deriving DecidableEq, Repr

/-- An optional modifier (R195). -/
abbrev Md := Option Modifier

/-- The immediate of an I- or Mem-format slot, with none, one or two extension K slots (R195). -/
inductive Imm where
  | k0 (x : BitVec 7)
  | k1 (x : BitVec 35)
  | k2 (x : BitVec 63)
  deriving DecidableEq, Repr

/-- One result on its way to its destination (R82): what a RESULT_LANDING writes. -/
inductive Landing where
  /-- a scalar register -/
  | sreg (n : Nat) (x : Word)
  /-- the lanes of a vector register whose bit of `lanes` is set -/
  | vreg (n : Nat) (lanes : BitVec 64) (x : VReg)
  /-- the bits of a mask register whose bit of `bits` is set -/
  | mreg (n : Nat) (bits : BitVec 64) (x : BitVec 64)
  /-- a loop coordinate -/
  | lcr (n : Nat) (x : BitVec 32)
  /-- a scale row (R301, R302) -/
  | srow (n : Nat) (x : BitVec 512)
  /-- a row of an accumulator tile, written by VMWR in one of its modes (R272) -/
  | accRow (tile row mode : Nat) (lanes : BitVec 64) (x : VReg)
  /-- the margin update of a VSTM: directory entry and, for each element, row, column, old code, new code (R154) -/
  | vstm (entry : Nat) (ws : List (Nat × Nat × Nat × Nat))
  deriving DecidableEq, Repr

/-- A failed peer or dead link, as the sets of R422 hold them. -/
inductive Peer where
  | core (g : Nat)
  | pkg (n : Nat)
  | link (pkg unit : Nat)
  deriving DecidableEq, Repr

/-- The system registers the outside world writes with no behaviour of their own (R334 to R337, R346, R402, R429). -/
inductive SysReg where
  /-- register `idx` of core `g`, through the system space (R137) -/
  | core (g idx : Nat)
  /-- word `w` of the mailbox of partition `p` (R337) -/
  | mailbox (p w : Nat)
  /-- word `w` of the context block of partition `p` (R429) -/
  | context (p w : Nat)
  /-- the low (0) or high (1) word of the host-window map of partition `p` (R335) -/
  | hostMap (p w : Nat)
  /-- word `w` of the hypervisor's request for the attestation report of die layer `k` (R346): words 0 to 3 the nonce; a write of
  word 4 makes the request -/
  | attest (k w : Nat)
  deriving DecidableEq, Repr

/-- The instructions and steps of the opcode table. -/
inductive Instr where
  | add (d : RegField) (a : RegField) (b : RegField) (m : Md)
  | sub (d : RegField) (a : RegField) (b : RegField) (m : Md)
  | mul (d : RegField) (a : RegField) (b : RegField) (m : Md)
  | mulh (d : RegField) (a : RegField) (b : RegField) (m : Md)
  | mulhn (d : RegField) (a : RegField) (b : RegField) (m : Md)
  | div (d : RegField) (a : RegField) (b : RegField) (m : Md)
  | divn (d : RegField) (a : RegField) (b : RegField) (m : Md)
  | rem (d : RegField) (a : RegField) (b : RegField) (m : Md)
  | remn (d : RegField) (a : RegField) (b : RegField) (m : Md)
  | minS (d : RegField) (a : RegField) (b : RegField) (m : Md)
  | minn (d : RegField) (a : RegField) (b : RegField) (m : Md)
  | maxS (d : RegField) (a : RegField) (b : RegField) (m : Md)
  | maxn (d : RegField) (a : RegField) (b : RegField) (m : Md)
  | slt (d : RegField) (a : RegField) (b : RegField) (m : Md)
  | sltn (d : RegField) (a : RegField) (b : RegField) (m : Md)
  | seq (d : RegField) (a : RegField) (b : RegField) (m : Md)
  | andS (d : RegField) (a : RegField) (b : RegField) (m : Md)
  | orS (d : RegField) (a : RegField) (b : RegField) (m : Md)
  | xorS (d : RegField) (a : RegField) (b : RegField) (m : Md)
  | andn (d : RegField) (a : RegField) (b : RegField) (m : Md)
  | shl (d : RegField) (a : RegField) (b : RegField) (m : Md)
  | shr (d : RegField) (a : RegField) (b : RegField) (m : Md)
  | sar (d : RegField) (a : RegField) (b : RegField) (m : Md)
  | sel (d : RegField) (a : RegField) (b : RegField) (m : Md)
  | clz (d : RegField) (a : RegField) (m : Md)
  | ctz (d : RegField) (a : RegField) (m : Md)
  | popc (d : RegField) (a : RegField) (m : Md)
  | addi (d : RegField) (a : RegField) (i : Imm)
  | andi (d : RegField) (a : RegField) (i : Imm)
  | ori (d : RegField) (a : RegField) (i : Imm)
  | xori (d : RegField) (a : RegField) (i : Imm)
  | shli (d : RegField) (a : RegField) (i : Imm)
  | shri (d : RegField) (a : RegField) (i : Imm)
  | sari (d : RegField) (a : RegField) (i : Imm)
  | slti (d : RegField) (a : RegField) (i : Imm)
  | sltni (d : RegField) (a : RegField) (i : Imm)
  | li (x : Bool) (d : RegField) (i : Imm)
  | lds (z : BitVec 2) (d : RegField) (r : RegField) (i : Imm)
  | sts (z : BitVec 2) (d : RegField) (r : RegField) (i : Imm)
  | agen (n : BitVec 2) (d : RegField) (a : RegField) (b : RegField) (m : Md)
  | lcset (n : BitVec 2) (a : RegField) (i : Imm)
  | br (i : Imm)
  | brc (z : Bool) (a : RegField) (i : Imm)
  | call (d : RegField) (i : Imm)
  | ret (a : RegField)
  | repeatLoop (n : BitVec 2) (a : RegField) (i : Imm)
  | moor (o : BitVec 19) (c : BitVec 28) (sigl : BitVec 28) (sigh : BitVec 4) (budget : BitVec 9) (safe : Bool)
  | rdvPlain (sc : BitVec 3) (g : RegField)
  | rdvBar (sc : BitVec 3) (g : RegField) (a : RegField) (b : RegField)
  | rdvWm (sc : BitVec 3) (g : RegField) (a : RegField) (b : RegField)
  | rdvCmt (sc : BitVec 3) (g : RegField) (a : RegField) (b : RegField)
  | rdvLp (sc : BitVec 3)
  | halt
  | trap (z : Bool) (a : RegField) (i : Imm)
  | rett
  | resync
  | sysrd (d : RegField) (a : RegField) (i : Imm)
  | syswr (d : RegField) (a : RegField) (i : Imm)
  | cancel (lvl : BitVec 2) (a : RegField) (i : Imm)
  | winv (a : RegField) (b : RegField) (m : Md)
  | vadd (f : BitVec 3) (d : RegField) (a : RegField) (b : RegField) (h : Bool) (m : Md)
  | vsub (f : BitVec 3) (d : RegField) (a : RegField) (b : RegField) (h : Bool) (m : Md)
  | vmul (f : BitVec 3) (d : RegField) (a : RegField) (b : RegField) (h : Bool) (m : Md)
  | vfma (f : BitVec 3) (d : RegField) (a : RegField) (b : RegField) (h : Bool) (m : Md)
  | vfms (f : BitVec 3) (d : RegField) (a : RegField) (b : RegField) (h : Bool) (m : Md)
  | vmin (f : BitVec 3) (d : RegField) (a : RegField) (b : RegField) (h : Bool) (m : Md)
  | vmax (f : BitVec 3) (d : RegField) (a : RegField) (b : RegField) (h : Bool) (m : Md)
  | vabs (f : BitVec 3) (d : RegField) (a : RegField) (h : Bool) (m : Md)
  | vneg (f : BitVec 3) (d : RegField) (a : RegField) (h : Bool) (m : Md)
  | vadds (f : BitVec 3) (d : RegField) (a : RegField) (b : RegField) (h : Bool) (m : Md)
  | vsubs (f : BitVec 3) (d : RegField) (a : RegField) (b : RegField) (h : Bool) (m : Md)
  | vmulh (f : BitVec 3) (d : RegField) (a : RegField) (b : RegField) (h : Bool) (m : Md)
  | vcmp (f : BitVec 3) (cond : BitVec 3) (k : BitVec 3) (a : RegField) (b : RegField) (h : Bool) (m : Md)
  | vsel (f : BitVec 3) (d : RegField) (a : RegField) (b : RegField) (h : Bool) (m : Md)
  | vand (d : RegField) (a : RegField) (b : RegField) (h : Bool) (m : Md)
  | vor (d : RegField) (a : RegField) (b : RegField) (h : Bool) (m : Md)
  | vxor (d : RegField) (a : RegField) (b : RegField) (h : Bool) (m : Md)
  | vandn (d : RegField) (a : RegField) (b : RegField) (h : Bool) (m : Md)
  | vshl (f : BitVec 3) (d : RegField) (a : RegField) (b : RegField) (h : Bool) (m : Md)
  | vshr (f : BitVec 3) (d : RegField) (a : RegField) (b : RegField) (h : Bool) (m : Md)
  | vsar (f : BitVec 3) (d : RegField) (a : RegField) (b : RegField) (h : Bool) (m : Md)
  | vcvt (rm : BitVec 2) (d : RegField) (a : RegField) (h : Bool) (m : Md)
  | vrcp (f : BitVec 3) (d : RegField) (a : RegField) (h : Bool) (m : Md)
  | vrsq (f : BitVec 3) (d : RegField) (a : RegField) (h : Bool) (m : Md)
  | vsqrt (f : BitVec 3) (d : RegField) (a : RegField) (h : Bool) (m : Md)
  | vdiv (f : BitVec 3) (d : RegField) (a : RegField) (b : RegField) (h : Bool) (m : Md)
  | vexp2 (f : BitVec 3) (d : RegField) (a : RegField) (h : Bool) (m : Md)
  | vlog2 (f : BitVec 3) (d : RegField) (a : RegField) (h : Bool) (m : Md)
  | vred (f : BitVec 3) (d : RegField) (a : RegField) (op : BitVec 3) (h : Bool) (m : Md)
  | vscan (f : BitVec 3) (d : RegField) (a : RegField) (op : BitVec 3) (h : Bool) (m : Md)
  | vperm (d : RegField) (a : RegField) (b : RegField) (h : Bool) (m : Md)
  | vshuf (f : BitVec 3) (d : RegField) (a : RegField) (b : RegField) (h : Bool) (m : Md)
  | vbcast (d : RegField) (a : RegField) (b : RegField) (h : Bool) (m : Md)
  | vsplat (f : BitVec 3) (d : RegField) (a : RegField) (i : Imm)
  | vlane (d : RegField) (a : RegField) (b : RegField) (h : Bool) (m : Md)
  | vext (d : RegField) (a : RegField) (b : RegField) (h : Bool) (m : Md)
  | vins (d : RegField) (a : RegField) (b : RegField) (m : Md)
  | vdot (f : BitVec 3) (d : RegField) (a : RegField) (b : RegField) (h : Bool) (m : Md)
  | vpack (w : Bool) (d : RegField) (a : RegField) (b : RegField) (h : Bool) (m : Md)
  | vunpack (w : Bool) (d : RegField) (a : RegField) (mode : BitVec 2) (h : Bool) (m : Md)
  | vld (z : BitVec 2) (d : RegField) (r : RegField) (i : Imm)
  | vlds (f : BitVec 3) (d : RegField) (a : RegField) (b : RegField) (m : Md)
  | vldg (f : BitVec 3) (d : RegField) (a : RegField) (b : RegField) (m : Md)
  | vst (z : BitVec 2) (d : RegField) (r : RegField) (i : Imm)
  | vsts (f : BitVec 3) (d : RegField) (a : RegField) (b : RegField) (m : Md)
  | vstx (f : BitVec 3) (d : RegField) (a : RegField) (b : RegField) (m : Md)
  | vstm (f : BitVec 3) (d : RegField) (a : RegField) (b : RegField) (m : Md)
  | vmov (d : RegField) (a : RegField) (h : Bool) (m : Md)
  | mand (d : RegField) (a : RegField) (b : RegField) (m : Md)
  | mor (d : RegField) (a : RegField) (b : RegField) (m : Md)
  | mxor (d : RegField) (a : RegField) (b : RegField) (m : Md)
  | mnot (d : RegField) (a : RegField) (m : Md)
  | mpop (d : RegField) (a : RegField) (m : Md)
  | mfirst (d : RegField) (a : RegField) (m : Md)
  | vmrd (t : BitVec 3) (d : RegField) (a : RegField) (mode : BitVec 2) (m : Md)
  | vmwr (t : BitVec 3) (d : RegField) (a : RegField) (mode : BitVec 2) (m : Md)
  | vminn (f : BitVec 3) (d : RegField) (a : RegField) (b : RegField) (h : Bool) (m : Md)
  | vmaxn (f : BitVec 3) (d : RegField) (a : RegField) (b : RegField) (h : Bool) (m : Md)
  | vaddsn (f : BitVec 3) (d : RegField) (a : RegField) (b : RegField) (h : Bool) (m : Md)
  | vsubsn (f : BitVec 3) (d : RegField) (a : RegField) (b : RegField) (h : Bool) (m : Md)
  | vmulhn (f : BitVec 3) (d : RegField) (a : RegField) (b : RegField) (h : Bool) (m : Md)
  | vcmpn (f : BitVec 3) (cond : BitVec 3) (k : BitVec 3) (a : RegField) (b : RegField) (h : Bool) (m : Md)
  | mma (f : BitVec 3) (tl : BitVec 3) (t : Bool) (z : Bool) (c : Bool) (a : RegField) (b : RegField) (sc : Bool) (m : Md)
  | mmat (f : BitVec 3) (tl : BitVec 3) (t : Bool) (z : Bool) (c : Bool) (a : RegField) (b : RegField) (sc : Bool) (m : Md)
  | mmag (f : BitVec 3) (tl : BitVec 3) (t : Bool) (z : Bool) (c : Bool) (a : RegField) (b : RegField) (sc : Bool) (m : Modifier)
  | mclr (i : Bool) (tl : BitVec 3) (m : Md)
  | mchk (tl : BitVec 3) (a : RegField) (m : Md)
  | mchkSp (a : RegField) (m : Md)
  | mmarg (a : RegField) (b : RegField) (m : Md)
  | mload (tl : BitVec 3) (t : Bool) (c : Bool) (a : RegField) (m : Md)
  | mout (rm : BitVec 2) (tl : BitVec 3) (t : Bool) (c : Bool) (a : RegField) (b : RegField) (m : Md)
  | cpy (put : Bool) (i : BitVec 4) (d : RegField) (a : RegField) (sh : BitVec 3) (m : Md)
  | cpys (put : Bool) (i : BitVec 4) (d : RegField) (a : RegField) (sh : BitVec 3) (m : Md)
  | cpym (i : BitVec 4) (d : RegField) (a : RegField) (sh : BitVec 3) (m : Modifier)
  | cpyt (put : Bool) (i : BitVec 4) (d : RegField) (a : RegField) (m : Modifier)
  | code (v : BitVec 2) (i : BitVec 4) (d : RegField) (a : RegField) (sh : BitVec 3) (m : Md)
  | hcpy (put : Bool) (ch : BitVec 2) (d : RegField) (a : RegField) (sh : BitVec 3) (m : Md)
  | stageRd (d : RegField) (m : Md)
  | stageSet (a : RegField) (m : Md)
  | bara (n : BitVec 3) (a : RegField) (m : Md)
  | atomInt (op : BitVec 3) (d : RegField) (a : RegField) (b : RegField) (w : Bool) (m : Md)
  | atomOther (op : BitVec 2) (d : RegField) (a : RegField) (b : RegField) (w : Bool) (m : Md)
  | send (i : BitVec 4) (n : BitVec 4) (a : RegField) (sh : BitVec 3) (m : Md)
  | recv (n : BitVec 4) (a : RegField) (m : Md)
  | rld (z : BitVec 2) (i : BitVec 4) (d : RegField) (a : RegField) (ord : BitVec 2) (m : Md)
  | rst (z : BitVec 2) (i : BitVec 4) (d : RegField) (a : RegField) (ord : BitVec 2) (m : Md)
  | rred (op : BitVec 3) (i : BitVec 4) (d : RegField) (a : RegField) (m : Md)
  | rrel (i : BitVec 4) (m : Md)
  | rrelAll (m : Md)
  | bcst (i : BitVec 4) (d : RegField) (a : RegField) (sh : BitVec 3) (m : Md)
  | drain (d : RegField) (sc : BitVec 3) (m : Md)
  | ratomInt (op : BitVec 3) (i : BitVec 4) (d : RegField) (a : RegField) (opt : BitVec 3) (m : Md)
  | ratomOther (op : BitVec 2) (i : BitVec 4) (d : RegField) (a : RegField) (opt : BitVec 3) (m : Md)
  | scl (n : BitVec 4) (r : RegField) (i : Imm)
  | sclv (n : BitVec 4) (a : RegField) (m : Md)
  | xpack (mode : BitVec 2) (d : RegField) (a : RegField) (g : BitVec 3) (m : Md)
  | xunpack (mode : BitVec 2) (d : RegField) (a : RegField) (g : BitVec 3) (m : Md)
  | rndpop (packed : Bool) (d : RegField) (m : Md)
  | rndseed (a : RegField) (m : Md)
  | idle (n : BitVec 24)
  | powerOnReset (pkg : Nat)
  | createPartition (p : Nat) (layers : BitVec 8) (lpivl : BitVec 32) (ctx : BitVec 9)
  | chamoisAppend (g : Nat)
  | resultLanding (g : Nat) (l : Landing)
  | matrixReadable (g : Nat) (op : Nat)
  | marginCheck (g : Nat) (op : Nat)
  | memberShareStart (g : Nat) (op : Nat)
  | gangCompletionAdd (g : Nat) (home : Nat) (off : Nat)
  | pieceTransfer (op : Nat) (k : Nat) (rd : Bool)
  | codeFillLanding (g : Nat) (op : Nat) (k : Nat)
  | hcpyPiece (op : Nat) (k : Nat)
  | serviceAccess (g : Nat)
  | stagedWriteLanding (f : Nat)
  | remoteRead (f : Nat)
  | ratomLanding (f : Nat)
  | reductionMerge (f : Nat) (e : Nat)
  | bankAluWrite (b : Nat)
  | commitFlitLanding (f : Nat)
  | recallFlitLanding (f : Nat)
  | linkFlit (f : Nat) (hop : Nat)
  | flitLost (f : Nat)
  | noticeLanding (n : Nat)
  | packageLost (pkg : Nat)
  | peerSetUpdate (p : Nat) (x : Peer)
  | drainComplete (g : Nat) (n : Nat)
  | horizonResume (g : Nat)
  | rendezvousRelease (r : Nat)
  | watermarkCompare (r : Nat)
  | cancelVisible (p : Nat) (lvl : BitVec 2) (x : BitVec 16)
  | coreIdle (g : Nat)
  | launchStaging (p : Nat)
  | launchPointRelease (p : Nat)
  | jobStart (p : Nat)
  | thermalTrip (k : Nat)
  | thermalRelease (k : Nat)
  | podFreeze (p : Nat) (r : Nat)
  | freezeBoundary (p : Nat)
  | partitionResume (p : Nat)
  | dredgerStep (g : Nat)
  | dredgerWriteback (g : Nat) (off : Nat)
  | timing (g : Nat) (sq : Nat)
  | deliver (op : Nat) (k : Nat)
  | cycslip (g : Nat)
  | undoWriteback (g : Nat)
  | handlerEntry (g : Nat)
  | segmentReentry (g : Nat)
  | deferredLanding (g : Nat)
  | tableServiceRequest (g : Nat)
  | tableEntryWrite (k : Nat) (e : BitVec 12) (hi : Bool) (x : BitVec 64)
  | tableEntryRepair (k : Nat) (e : BitVec 12)
  | mapPublication (pkg : Nat) (bytes : List (Nat × BitVec 8)) (inService : Bool)
  | surveyWindow (k : Nat) (bytes : List (Nat × BitVec 8))
  | inServiceSurvey (pkg : Nat) (bytes : List (Nat × BitVec 8))
  | load (p : Nat)
  | unload (p : Nat)
  | start (p : Nat)
  | endJob (p : Nat)
  | cancelCommand (p : Nat)
  | hold (p : Nat)
  | release (p : Nat)
  | patch (p : Nat)
  | attest (p : Nat)
  | ckpt (p : Nat)
  | resumeck (p : Nat)
  | rebind (p : Nat)
  | freeze (p : Nat)
  | save (p : Nat)
  | restore (p : Nat)
  | resume (p : Nat)
  | discard (p : Nat)
  | mbrespClear (p : Nat)
  | ctxstatClear (p : Nat)
  | firedClear (g : Nat) (x : BitVec 4)
  | launchQueueEnqueue (p : Nat) (e : RegField) (x : BitVec 64)
  | launchQueueEmpty (p : Nat) (e : RegField) (x : BitVec 64)
  | launchQueueFieldWrite (p : Nat) (e : RegField) (x : BitVec 128)
  | repairreq (g : Nat) (x : BitVec 64)
  | bistsum (g : Nat) (x : BitVec 64)
  | arrayInjectorArm (g : Nat) (n : BitVec 2) (x : BitVec 64)
  | linkInjectorArm (k : Nat) (n : BitVec 2) (x : BitVec 64)
  | systemRegisterWrite (t : SysReg) (x : BitVec 64)
  | illegal (g : Nat) (sub : Nat) (pos : Nat)
  | unknownCommandCode (p : Nat) (ctx : Bool)
  | coreLost (g : Nat)
  | extendService (k : Nat) (mr : BitVec 3) (x : BitVec 256)
  | tableServiceAnswer (g : Nat) (decline : Bool)
  deriving DecidableEq, Repr

end Sys2Proof
end

