-- ==== Sys2Proof/WellFormed.lean ====
section
/-! DEFINITION. Which instructions are well formed: the register codes, variants, immediates and modifiers the
manual defines for each (R193 to R199, and each instruction's own rule). A slot that fails here is not an
instruction (ILLEGAL, subclass 2 of R354; 5 when a required modifier is absent). -/

namespace Sys2Proof

/-- The immediate as the 64-bit two's-complement value of R195. -/
def Imm.toInt : Imm → Int
  | .k0 x => x.toInt
  | .k1 x => x.toInt
  | .k2 x => x.toInt

/-- A readable code of the S numbering (R193). -/
def sSrc (r : RegField) : Bool := decide (r.toNat ≤ 40)
/-- A writable code of the S numbering: s0 to s31, or zero (R194). -/
def sDst (r : RegField) : Bool := decide (r.toNat ≤ 32)
/-- A readable vector register, or h (R193, R252). -/
def vSrc (r : RegField) : Bool := decide (r.toNat ≤ 47) || decide (r.toNat = 56)
/-- A writable vector register (R194). -/
def vDst (r : RegField) : Bool := decide (r.toNat ≤ 47)
/-- A mask register code (R193). -/
def mReg (r : RegField) : Bool := decide (48 ≤ r.toNat) && decide (r.toNat ≤ 55)
/-- A scope code that a rendezvous or DRAIN may name (R236, R310). -/
def scopeOk (s : BitVec 3) : Bool := decide (1 ≤ s.toNat) && decide (s.toNat ≤ 6)
/-- The guard register of a guarded slot is a readable S code (R196). -/
def guardOk (m : Modifier) : Bool := !m.gen || sSrc m.greg
/-- A modifier whose XF must be 0 (R196, R221). -/
def mdPlain : Md → Bool
  | none => true
  | some m => guardOk m && decide (m.xf = 0)
/-- The modifier of a V slot that may be lane-masked (R253). -/
def mdLane : Md → Bool
  | none => true
  | some m => guardOk m && decide (m.xf.extractLsb' 0 16 = 0)
/-- The modifier of a V slot for which LM = 1 is not defined (R253). -/
def mdNoLane : Md → Bool
  | none => true
  | some m => guardOk m && decide (m.xf.extractLsb' 0 16 = 0) && !m.xf.getLsbD 19
/-- VCVT's modifier: DFMT and SFMT are codes 0 to 12 (R253, R259). -/
def mdCvt : Md → Bool
  | none => true
  | some m => guardOk m && decide (m.xf.extractLsb' 8 8 = 0) && decide ((m.xf.extractLsb' 4 4).toNat ≤ 12)
      && decide ((m.xf.extractLsb' 0 4).toNat ≤ 12)
/-- VEXT's modifier: K in XF[5:0] (R253). -/
def mdExt : Md → Bool
  | none => true
  | some m => guardOk m && decide (m.xf.extractLsb' 6 10 = 0)
/-- A copy's modifier: STG in XF[19] (R310). -/
def mdStg : Md → Bool
  | none => true
  | some m => guardOk m && decide (m.xf.extractLsb' 0 19 = 0)
/-- CODE's modifier: STG, and the gang number for `.gang`, which requires it (R310). -/
def mdCode (v : BitVec 2) : Md → Bool
  | none => decide (v ≠ 1)
  | some m => guardOk m && (if v = 1 then decide (m.xf.extractLsb' 4 15 = 0) else decide (m.xf.extractLsb' 0 19 = 0))
/-- A Q slot's modifier that holds DEP alone (R310). -/
def mdDep : Md → Bool
  | none => true
  | some m => guardOk m && decide (m.xf.extractLsb' 16 4 = 0)
/-- A scope field goes with an order: 1 to 6 with an order other than relaxed, 0 with relaxed (R310). -/
def ordScope (ord : BitVec 2) (sc : BitVec 3) : Bool := if ord = 0 then decide (sc = 0) else scopeOk sc
/-- The modifier of RLD, RST and RATOM: scope, DEP and, for RATOM, W (R310). -/
def mdOrd (ord : BitVec 2) (w : Bool) : Md → Bool
  | none => decide (ord = 0)
  | some m => guardOk m && ordScope ord (m.xf.extractLsb' 16 3) && (w || !m.xf.getLsbD 19)
/-- ATOM's modifier: order, scope, FAIL (R320). -/
def mdAtom (cas : Bool) : Md → Bool
  | none => true
  | some m => guardOk m && decide (m.xf.extractLsb' 6 14 = 0)
      && ordScope (m.xf.extractLsb' 0 2) (m.xf.extractLsb' 2 3)
      && (!m.xf.getLsbD 5 || (cas && m.xf.getLsbD 0))
/-- The formats of V-class arithmetic (R202). -/
def fmtAny (f : BitVec 3) : Bool := decide (f.toNat ≤ 5)
def fmtInt (f : BitVec 3) : Bool := decide (3 ≤ f.toNat) && decide (f.toNat ≤ 5)
def fmtFloat (f : BitVec 3) : Bool := decide (f.toNat ≤ 2)
/-- VRED and VSCAN: OPR 3 to 7 is defined for integer formats only (R261). -/
def redOk (f op : BitVec 3) : Bool := fmtAny f && (decide (op.toNat ≤ 2) || fmtInt f)
/-- SC = 1 is defined only with FMT 2, 3, 4 and 7 (R192). -/
def scaleOk (f : BitVec 3) (sc : Bool) : Bool :=
  !sc || decide (f = 2) || decide (f = 3) || decide (f = 4) || decide (f = 7)
/-- A branch or call target: 0 to 0xFFFC and a multiple of 4 (R232). -/
def codeTarget (i : Imm) : Bool := decide (0 ≤ i.toInt) && decide (i.toInt ≤ 0xFFFC) && decide (i.toInt % 4 = 0)
/-- RATOM's other operations: fadd, swap, and cas, whose D is an even register s0 to s30 and whose FAIL needs
order acquire or acq_rel (R325). -/
def ratomOtherOk (op : BitVec 2) (d : RegField) (opt : BitVec 3) : Bool :=
  if op = 3 then false
  else if op = 2 then decide (d.toNat ≤ 30) && decide (d.toNat % 2 = 0) && (!opt.getLsbD 2 || opt.getLsbD 0)
  else if opt.getLsbD 2 then sSrc d else sDst d
/-- A core (0 to 383) or control core (384 + die layer) of one of the pod's packages (R137, R138):
package * 512 + core field. -/
def coreId (g : Nat) : Bool := decide (g % 512 < 392) && decide (g / 512 < 64)
/-- A partition, or a die layer, of one of the pod's packages: package * 8 + index (R138, R340). -/
def partId (p : Nat) : Bool := decide (p < 512)
def sysRegOk : SysReg → Bool
  | .core g idx => coreId g && decide (idx < 0x10000)
  | .mailbox p w => partId p && decide (w < 16)
  | .context p w => partId p && decide (w < 5)
  | .hostMap p w => partId p && decide (w < 2)
  | .attest k w => partId k && decide (w < 5)

/-- Is the required modifier of the slot absent (R199, R288, R310)? -/
def Instr.lacksModifier : Instr → Bool
  | .code v _ _ _ _ none => decide (v = 1)
  | .rld _ _ _ _ ord none => decide (ord ≠ 0)
  | .rst _ _ _ _ ord none => decide (ord ≠ 0)
  | .ratomInt _ _ _ _ opt none => decide (opt.extractLsb' 0 2 ≠ 0)
  | .ratomOther _ _ _ _ opt none => decide (opt.extractLsb' 0 2 ≠ 0)
  | _ => false

/-- An instruction the manual defines; for a step of the machine, one that acts on units that exist. -/
def Instr.wf : Instr → Bool
  | .add d a b m => sDst d && sSrc a && sSrc b && mdPlain m
  | .sub d a b m => sDst d && sSrc a && sSrc b && mdPlain m
  | .mul d a b m => sDst d && sSrc a && sSrc b && mdPlain m
  | .mulh d a b m => sDst d && sSrc a && sSrc b && mdPlain m
  | .mulhn d a b m => sDst d && sSrc a && sSrc b && mdPlain m
  | .div d a b m => sDst d && sSrc a && sSrc b && mdPlain m
  | .divn d a b m => sDst d && sSrc a && sSrc b && mdPlain m
  | .rem d a b m => sDst d && sSrc a && sSrc b && mdPlain m
  | .remn d a b m => sDst d && sSrc a && sSrc b && mdPlain m
  | .minS d a b m => sDst d && sSrc a && sSrc b && mdPlain m
  | .minn d a b m => sDst d && sSrc a && sSrc b && mdPlain m
  | .maxS d a b m => sDst d && sSrc a && sSrc b && mdPlain m
  | .maxn d a b m => sDst d && sSrc a && sSrc b && mdPlain m
  | .slt d a b m => sDst d && sSrc a && sSrc b && mdPlain m
  | .sltn d a b m => sDst d && sSrc a && sSrc b && mdPlain m
  | .seq d a b m => sDst d && sSrc a && sSrc b && mdPlain m
  | .andS d a b m => sDst d && sSrc a && sSrc b && mdPlain m
  | .orS d a b m => sDst d && sSrc a && sSrc b && mdPlain m
  | .xorS d a b m => sDst d && sSrc a && sSrc b && mdPlain m
  | .andn d a b m => sDst d && sSrc a && sSrc b && mdPlain m
  | .shl d a b m => sDst d && sSrc a && sSrc b && mdPlain m
  | .shr d a b m => sDst d && sSrc a && sSrc b && mdPlain m
  | .sar d a b m => sDst d && sSrc a && sSrc b && mdPlain m
  | .sel d a b m => sDst d && sSrc a && sSrc b && mdPlain m
  | .clz d a m => sDst d && sSrc a && mdPlain m
  | .ctz d a m => sDst d && sSrc a && mdPlain m
  | .popc d a m => sDst d && sSrc a && mdPlain m
  | .addi d a _ => sDst d && sSrc a
  | .andi d a _ => sDst d && sSrc a
  | .ori d a _ => sDst d && sSrc a
  | .xori d a _ => sDst d && sSrc a
  | .shli d a _ => sDst d && sSrc a
  | .shri d a _ => sDst d && sSrc a
  | .sari d a _ => sDst d && sSrc a
  | .slti d a _ => sDst d && sSrc a
  | .sltni d a _ => sDst d && sSrc a
  | .li _ d _ => sDst d
  | .lds _ d r _ => sDst d && sSrc r
  | .sts _ d r _ => sSrc d && sSrc r
  | .agen _ d a b m => sDst d && sSrc a && sSrc b && mdPlain m
  | .lcset _ a _ => sSrc a
  | .br i => codeTarget i
  | .brc _ a i => sSrc a && codeTarget i
  | .call d i => sDst d && codeTarget i
  | .ret a => sSrc a
  | .repeatLoop _ a _ => sSrc a
  | .moor _ _ _ _ budget _ => decide (budget.toNat ≤ 256)
  | .rdvPlain sc _ => scopeOk sc
  | .rdvBar sc _ a b => scopeOk sc && sSrc a && sSrc b
  | .rdvWm sc _ a b => scopeOk sc && sSrc a && sSrc b
  | .rdvCmt sc _ a b => scopeOk sc && sSrc a && sSrc b
  | .rdvLp sc => scopeOk sc
  | .halt => true
  | .trap _ a _ => sSrc a
  | .rett => true
  | .resync => true
  | .sysrd d a _ => sDst d && sSrc a
  | .syswr d a _ => sSrc d && sSrc a
  | .cancel _ a _ => sSrc a
  | .winv a b m => sSrc a && sSrc b && mdPlain m
  | .vadd f d a b _ m => fmtAny f && vDst d && vSrc a && vSrc b && mdLane m
  | .vsub f d a b _ m => fmtAny f && vDst d && vSrc a && vSrc b && mdLane m
  | .vmul f d a b _ m => fmtAny f && vDst d && vSrc a && vSrc b && mdLane m
  | .vfma f d a b _ m => fmtAny f && vDst d && vSrc a && vSrc b && mdLane m
  | .vfms f d a b _ m => fmtAny f && vDst d && vSrc a && vSrc b && mdLane m
  | .vmin f d a b _ m => fmtAny f && vDst d && vSrc a && vSrc b && mdLane m
  | .vmax f d a b _ m => fmtAny f && vDst d && vSrc a && vSrc b && mdLane m
  | .vabs f d a _ m => fmtAny f && vDst d && vSrc a && mdLane m
  | .vneg f d a _ m => fmtAny f && vDst d && vSrc a && mdLane m
  | .vadds f d a b _ m => fmtInt f && vDst d && vSrc a && vSrc b && mdLane m
  | .vsubs f d a b _ m => fmtInt f && vDst d && vSrc a && vSrc b && mdLane m
  | .vmulh f d a b _ m => fmtInt f && vDst d && vSrc a && vSrc b && mdLane m
  | .vcmp f _ _ a b _ m => fmtAny f && vSrc a && vSrc b && mdLane m
  | .vsel _ d a b _ m => vDst d && vSrc a && vSrc b && mdLane m
  | .vand d a b _ m => vDst d && vSrc a && vSrc b && mdLane m
  | .vor d a b _ m => vDst d && vSrc a && vSrc b && mdLane m
  | .vxor d a b _ m => vDst d && vSrc a && vSrc b && mdLane m
  | .vandn d a b _ m => vDst d && vSrc a && vSrc b && mdLane m
  | .vshl f d a b _ m => fmtInt f && vDst d && vSrc a && vSrc b && mdLane m
  | .vshr f d a b _ m => fmtInt f && vDst d && vSrc a && vSrc b && mdLane m
  | .vsar f d a b _ m => fmtInt f && vDst d && vSrc a && vSrc b && mdLane m
  | .vcvt _ d a _ m => vDst d && vSrc a && mdCvt m
  | .vrcp f d a _ m => fmtFloat f && vDst d && vSrc a && mdLane m
  | .vrsq f d a _ m => fmtFloat f && vDst d && vSrc a && mdLane m
  | .vsqrt f d a _ m => fmtFloat f && vDst d && vSrc a && mdLane m
  | .vdiv f d a b _ m => fmtFloat f && vDst d && vSrc a && vSrc b && mdLane m
  | .vexp2 f d a _ m => fmtFloat f && vDst d && vSrc a && mdLane m
  | .vlog2 f d a _ m => fmtFloat f && vDst d && vSrc a && mdLane m
  | .vred f d a op _ m => redOk f op && vDst d && vSrc a && mdLane m
  | .vscan f d a op _ m => redOk f op && vDst d && vSrc a && mdLane m
  | .vperm d a b _ m => vDst d && vSrc a && vSrc b && mdLane m
  | .vshuf f d a b _ m => decide (f.toNat ≤ 4) && vDst d && vSrc a && (if f = 4 then decide (b = 0) else vSrc b) && mdLane m
  | .vbcast d a b _ m => vDst d && vSrc a && sSrc b && mdLane m
  | .vsplat f d a _ => fmtAny f && vDst d && sSrc a
  | .vlane d a b _ m => sDst d && vSrc a && sSrc b && mdNoLane m
  | .vext d a b _ m => vDst d && vSrc a && vSrc b && mdExt m
  | .vins d a b m => vDst d && sSrc a && sSrc b && mdNoLane m
  | .vdot f d a b _ m => (decide (f = 1) || decide (f = 2) || decide (f = 4) || decide (f = 5)) && vDst d && vSrc a && vSrc b && mdLane m
  | .vpack _ d a b _ m => vDst d && vSrc a && vSrc b && mdLane m
  | .vunpack _ d a _ _ m => vDst d && vSrc a && mdLane m
  | .vld z d r _ => decide (z ≠ 3) && vDst d && sSrc r
  | .vlds f d a b m => fmtAny f && vDst d && sSrc a && sSrc b && mdLane m
  | .vldg f d a b m => fmtAny f && vDst d && sSrc a && vSrc b && mdLane m
  | .vst z d r _ => decide (z ≠ 3) && vSrc d && sSrc r
  | .vsts f d a b m => fmtAny f && vSrc d && sSrc a && sSrc b && mdLane m
  | .vstx f d a b m => fmtAny f && vSrc d && sSrc a && vSrc b && mdLane m
  | .vstm f d a b m => fmtAny f && vSrc d && sSrc a && sSrc b && mdLane m
  | .vmov d a _ m => vDst d && vSrc a && mdLane m
  | .mand d a b m => mReg d && mReg a && mReg b && mdNoLane m
  | .mor d a b m => mReg d && mReg a && mReg b && mdNoLane m
  | .mxor d a b m => mReg d && mReg a && mReg b && mdNoLane m
  | .mnot d a m => mReg d && mReg a && mdNoLane m
  | .mpop d a m => sDst d && mReg a && mdNoLane m
  | .mfirst d a m => sDst d && mReg a && mdNoLane m
  | .vmrd _ d a mode m => vDst d && sSrc a && decide (mode ≠ 3) && mdLane m
  | .vmwr _ d a mode m => vSrc d && sSrc a && decide (mode ≠ 3) && mdLane m
  | .vminn f d a b _ m => fmtInt f && vDst d && vSrc a && vSrc b && mdLane m
  | .vmaxn f d a b _ m => fmtInt f && vDst d && vSrc a && vSrc b && mdLane m
  | .vaddsn f d a b _ m => fmtInt f && vDst d && vSrc a && vSrc b && mdLane m
  | .vsubsn f d a b _ m => fmtInt f && vDst d && vSrc a && vSrc b && mdLane m
  | .vmulhn f d a b _ m => fmtInt f && vDst d && vSrc a && vSrc b && mdLane m
  | .vcmpn f _ _ a b _ m => fmtInt f && vSrc a && vSrc b && mdLane m
  | .mma f _ _ _ _ a b sc m => scaleOk f sc && sSrc a && sSrc b && mdPlain m
  | .mmat f _ _ _ _ a b sc m => scaleOk f sc && sSrc a && sSrc b && mdPlain m
  | .mmag f _ _ _ _ a b sc m => scaleOk f sc && sSrc a && sSrc b && guardOk m && decide (m.xf.extractLsb' 13 2 ≠ 3)
  | .mclr _ _ m => mdPlain m
  | .mchk _ _ m => mdPlain m
  | .mchkSp a m => sSrc a && mdPlain m
  | .mmarg a b m => sSrc a && sSrc b && mdPlain m
  | .mload _ _ _ a m => sSrc a && mdPlain m
  | .mout rm _ _ _ a b m => decide (rm ≠ 2) && sSrc a && sSrc b && mdPlain m
  | .cpy _ _ d a _ m => sSrc d && sSrc a && mdStg m
  | .cpys _ _ d a _ m => sSrc d && sSrc a && mdStg m
  | .cpym _ d a _ m => sSrc d && sSrc a && guardOk m && decide (m.xf.extractLsb' 3 16 = 0)
  | .cpyt _ _ d a m => sSrc d && sSrc a && guardOk m && decide (m.xf.extractLsb' 10 9 = 0) && decide ((m.xf.extractLsb' 6 4).toNat ≤ 12) && decide (8 ≤ (m.xf.extractLsb' 0 6).toNat)
  | .code v _ d a _ m => decide (v ≠ 3) && sSrc d && sSrc a && mdCode v m
  | .hcpy _ _ d a _ m => sSrc d && sSrc a && mdPlain m
  | .stageRd d m => sDst d && mdPlain m
  | .stageSet a m => sSrc a && mdPlain m
  | .bara _ a m => sSrc a && mdPlain m
  | .atomInt _ d a b _ m => sDst d && sSrc a && sSrc b && mdAtom false m
  | .atomOther op d a b _ m => decide (op ≠ 3) && sDst d && sSrc a && sSrc b && mdAtom (decide (op = 2)) m
  | .send _ _ a _ m => sSrc a && mdDep m
  | .recv _ a m => sSrc a && mdPlain m
  | .rld _ _ d a ord m => sDst d && sSrc a && decide (ord.toNat ≤ 1) && mdOrd ord false m
  | .rst _ _ d a ord m => sSrc d && sSrc a && (decide (ord = 0) || decide (ord = 2)) && mdOrd ord false m
  | .rred _ _ d a m => sSrc d && sSrc a && mdPlain m
  | .rrel _ m => mdDep m
  | .rrelAll m => mdDep m
  | .bcst _ d a _ m => sSrc d && sSrc a && mdDep m
  | .drain d sc m => sDst d && scopeOk sc && mdPlain m
  | .ratomInt _ _ d a opt m => (if opt.getLsbD 2 then sSrc d else sDst d) && sSrc a && mdOrd (opt.extractLsb' 0 2) true m
  | .ratomOther op _ d a opt m => ratomOtherOk op d opt && sSrc a && mdOrd (opt.extractLsb' 0 2) true m
  | .scl _ r _ => sSrc r
  | .sclv _ a m => vSrc a && mdPlain m
  | .xpack mode d a _ m => decide (mode ≠ 3) && vDst d && vSrc a && mdPlain m
  | .xunpack mode d a _ m => decide (mode.toNat ≤ 1) && vDst d && vSrc a && mdPlain m
  | .rndpop _ d m => vDst d && mdPlain m
  | .rndseed a m => sSrc a && mdPlain m
  | .idle _ => true
  | .powerOnReset pkg => decide (pkg < 64)
  | .createPartition p _ _ _ => partId p
  | .chamoisAppend g => coreId g
  | .resultLanding g _ => coreId g
  | .matrixReadable g _ => coreId g
  | .marginCheck g _ => coreId g
  | .memberShareStart g _ => coreId g
  | .gangCompletionAdd g home _ => coreId g && coreId home
  | .pieceTransfer _ _ _ => true
  | .codeFillLanding g _ _ => coreId g
  | .hcpyPiece _ _ => true
  | .serviceAccess g => coreId g
  | .stagedWriteLanding _ => true
  | .remoteRead _ => true
  | .ratomLanding _ => true
  | .reductionMerge _ _ => true
  | .bankAluWrite _ => true
  | .commitFlitLanding _ => true
  | .recallFlitLanding _ => true
  | .linkFlit _ _ => true
  | .flitLost _ => true
  | .noticeLanding _ => true
  | .packageLost pkg => decide (pkg < 64)
  | .peerSetUpdate p _ => partId p
  | .drainComplete g _ => coreId g
  | .horizonResume g => coreId g
  | .rendezvousRelease _ => true
  | .watermarkCompare _ => true
  | .cancelVisible p _ _ => partId p
  | .coreIdle g => coreId g
  | .launchStaging p => partId p
  | .launchPointRelease p => partId p
  | .jobStart p => partId p
  | .thermalTrip k => partId k
  | .thermalRelease k => partId k
  | .podFreeze p _ => partId p
  | .freezeBoundary p => partId p
  | .partitionResume p => partId p
  | .dredgerStep g => coreId g
  | .dredgerWriteback g _ => coreId g
  | .timing g _ => coreId g
  | .deliver _ _ => true
  | .cycslip g => coreId g
  | .undoWriteback g => coreId g
  | .handlerEntry g => coreId g
  | .segmentReentry g => coreId g
  | .deferredLanding g => coreId g
  | .tableServiceRequest g => coreId g
  | .tableEntryWrite k _ _ _ => partId k
  | .tableEntryRepair k _ => partId k
  | .mapPublication pkg _ _ => decide (pkg < 64)
  | .surveyWindow k _ => partId k
  | .inServiceSurvey pkg _ => decide (pkg < 64)
  | .load p => partId p
  | .unload p => partId p
  | .start p => partId p
  | .endJob p => partId p
  | .cancelCommand p => partId p
  | .hold p => partId p
  | .release p => partId p
  | .patch p => partId p
  | .attest p => partId p
  | .ckpt p => partId p
  | .resumeck p => partId p
  | .rebind p => partId p
  | .freeze p => partId p
  | .save p => partId p
  | .restore p => partId p
  | .resume p => partId p
  | .discard p => partId p
  | .mbrespClear p => partId p
  | .ctxstatClear p => partId p
  | .firedClear g _ => coreId g
  | .launchQueueEnqueue p _ _ => partId p
  | .launchQueueEmpty p _ _ => partId p
  | .launchQueueFieldWrite p _ _ => partId p
  | .repairreq g _ => coreId g
  | .bistsum g _ => coreId g
  | .arrayInjectorArm g _ _ => coreId g
  | .linkInjectorArm k _ _ => partId k
  | .systemRegisterWrite t _ => sysRegOk t
  | .illegal g _ _ => coreId g
  | .unknownCommandCode p _ => partId p
  | .coreLost g => coreId g
  | .extendService k mr _ => partId k && decide (3 ≤ mr.toNat) && decide (mr.toNat ≤ 6)
  | .tableServiceAnswer g _ => coreId g

/-- The ILLEGAL subclass a slot raises: 0 when it is well formed (R354). -/
def Instr.illegalSub (i : Instr) : Nat := if i.wf then 0 else if i.lacksModifier then 5 else 2

end Sys2Proof
end

