-- ==== Sys2Proof/Decode.lean ====
section
/-! DEFINITION. From slot words to instructions and back (R187 to R203). A slot word is read as a number, and its
fields are the digits the slot formats of R191 give. `decodeSlot` is total: what is not an instruction is refused
with its ILLEGAL subclass (R354). -/

namespace Sys2Proof

def b2n (b : Bool) : Nat := if b then 1 else 0
def n2b (n : Nat) : Bool := n % 2 == 1

/-- The fields of a slot word under the formats of R191: A and I and Mem and Mx share `var d a` with `b f` or
`low`; Lighter has `var idx ld la opt`. -/
structure Fields where
  cls : Nat
  opc : Nat
  var : Nat
  d   : Nat
  a   : Nat
  b   : Nat
  f   : Nat
  low : Nat
  idx : Nat
  ld  : Nat
  la  : Nat
  opt : Nat
  deriving DecidableEq, Repr

/-- Reading the fields (R187, R191). -/
def fieldsOf (w : Nat) : Fields :=
  { cls := w / 2 ^ 28 % 8, opc := w / 2 ^ 22 % 64, var := w / 2 ^ 19 % 8, d := w / 2 ^ 13 % 64,
    a := w / 2 ^ 7 % 64, b := w / 2 % 64, f := w % 2, low := w % 128,
    idx := w / 2 ^ 15 % 16, ld := w / 2 ^ 9 % 64, la := w / 2 ^ 3 % 64, opt := w % 8 }

/-- Format A and Mx (R191). -/
def packA (cls opc var d a b f : Nat) : Nat :=
  cls * 2 ^ 28 + opc * 2 ^ 22 + var * 2 ^ 19 + d * 2 ^ 13 + a * 2 ^ 7 + b * 2 + f
/-- Formats I and Mem (R191). -/
def packI (cls opc var d a low : Nat) : Nat :=
  cls * 2 ^ 28 + opc * 2 ^ 22 + var * 2 ^ 19 + d * 2 ^ 13 + a * 2 ^ 7 + low
/-- Format Lighter (R191). -/
def packL (cls opc var idx d a opt : Nat) : Nat :=
  cls * 2 ^ 28 + opc * 2 ^ 22 + var * 2 ^ 19 + idx * 2 ^ 15 + d * 2 ^ 9 + a * 2 ^ 3 + opt

/-- A modifier from its K payload (R196). -/
def modifierOf (k : Nat) : Modifier :=
  { gen := n2b (k / 2 ^ 27), gneg := n2b (k / 2 ^ 26), greg := BitVec.ofNat 6 (k / 2 ^ 20), xf := BitVec.ofNat 20 k }
/-- A modifier's K payload (R196). -/
def Modifier.word (m : Modifier) : Nat :=
  b2n m.gen * 2 ^ 27 + b2n m.gneg * 2 ^ 26 + m.greg.toNat * 2 ^ 20 + m.xf.toNat
def mdWords : Md → List Nat
  | none => []
  | some m => [m.word]
/-- IMM7 of the slot itself (R195). -/
def Imm.low : Imm → Nat
  | .k0 x => x.toNat
  | .k1 x => x.toNat % 2 ^ 7
  | .k2 x => x.toNat % 2 ^ 7
/-- The payloads of the extension K slots (R195). -/
def Imm.words : Imm → List Nat
  | .k0 _ => []
  | .k1 x => [x.toNat / 2 ^ 7]
  | .k2 x => [x.toNat / 2 ^ 7 % 2 ^ 28, x.toNat / 2 ^ 35]

/-- At most one K slot may follow: a modifier (R195). -/
def withMd (ks : List Nat) (k : Md → Instr) : Except Nat Instr :=
  match ks with
  | [] => .ok (k none)
  | [w] => .ok (k (some (modifierOf w)))
  | _ => .error 5
/-- Exactly one K slot must follow (R288, R310). -/
def withMdR (ks : List Nat) (k : Modifier → Instr) : Except Nat Instr :=
  match ks with
  | [w] => .ok (k (modifierOf w))
  | _ => .error 5
/-- No K slot may follow (R196). -/
def withNoK (ks : List Nat) (i : Instr) : Except Nat Instr :=
  match ks with
  | [] => .ok i
  | _ => .error 5
/-- Up to two extension K slots may follow (R195). -/
def withImm (low : Nat) (ks : List Nat) (k : Imm → Instr) : Except Nat Instr :=
  match ks with
  | [] => .ok (k (.k0 (BitVec.ofNat 7 low)))
  | [k1] => .ok (k (.k1 (BitVec.ofNat 35 (k1 * 2 ^ 7 + low))))
  | [k1, k2] => .ok (k (.k2 (BitVec.ofNat 63 (k2 * 2 ^ 35 + k1 * 2 ^ 7 + low))))
  | _ => .error 5

/-- Class S (R200). -/
def decodeS (x : Fields) (ks : List Nat) : Except Nat Instr :=
  match x.opc with
  | 0x00 =>
      if x.var = 0 ∧ x.f = 0 then (withMd ks fun m => .add (BitVec.ofNat 6 x.d) (BitVec.ofNat 6 x.a) (BitVec.ofNat 6 x.b) m)
      else .error 2
  | 0x01 =>
      if x.var = 0 ∧ x.f = 0 then (withMd ks fun m => .sub (BitVec.ofNat 6 x.d) (BitVec.ofNat 6 x.a) (BitVec.ofNat 6 x.b) m)
      else .error 2
  | 0x02 =>
      if x.var = 0 ∧ x.f = 0 then (withMd ks fun m => .mul (BitVec.ofNat 6 x.d) (BitVec.ofNat 6 x.a) (BitVec.ofNat 6 x.b) m)
      else .error 2
  | 0x03 =>
      if x.var = 0 ∧ x.f = 0 then (withMd ks fun m => .mulh (BitVec.ofNat 6 x.d) (BitVec.ofNat 6 x.a) (BitVec.ofNat 6 x.b) m)
      else .error 2
  | 0x04 =>
      if x.var = 0 ∧ x.f = 0 then (withMd ks fun m => .mulhn (BitVec.ofNat 6 x.d) (BitVec.ofNat 6 x.a) (BitVec.ofNat 6 x.b) m)
      else .error 2
  | 0x05 =>
      if x.var = 0 ∧ x.f = 0 then (withMd ks fun m => .div (BitVec.ofNat 6 x.d) (BitVec.ofNat 6 x.a) (BitVec.ofNat 6 x.b) m)
      else .error 2
  | 0x06 =>
      if x.var = 0 ∧ x.f = 0 then (withMd ks fun m => .divn (BitVec.ofNat 6 x.d) (BitVec.ofNat 6 x.a) (BitVec.ofNat 6 x.b) m)
      else .error 2
  | 0x07 =>
      if x.var = 0 ∧ x.f = 0 then (withMd ks fun m => .rem (BitVec.ofNat 6 x.d) (BitVec.ofNat 6 x.a) (BitVec.ofNat 6 x.b) m)
      else .error 2
  | 0x08 =>
      if x.var = 0 ∧ x.f = 0 then (withMd ks fun m => .remn (BitVec.ofNat 6 x.d) (BitVec.ofNat 6 x.a) (BitVec.ofNat 6 x.b) m)
      else .error 2
  | 0x09 =>
      if x.var = 0 ∧ x.f = 0 then (withMd ks fun m => .minS (BitVec.ofNat 6 x.d) (BitVec.ofNat 6 x.a) (BitVec.ofNat 6 x.b) m)
      else .error 2
  | 0x0A =>
      if x.var = 0 ∧ x.f = 0 then (withMd ks fun m => .minn (BitVec.ofNat 6 x.d) (BitVec.ofNat 6 x.a) (BitVec.ofNat 6 x.b) m)
      else .error 2
  | 0x0B =>
      if x.var = 0 ∧ x.f = 0 then (withMd ks fun m => .maxS (BitVec.ofNat 6 x.d) (BitVec.ofNat 6 x.a) (BitVec.ofNat 6 x.b) m)
      else .error 2
  | 0x0C =>
      if x.var = 0 ∧ x.f = 0 then (withMd ks fun m => .maxn (BitVec.ofNat 6 x.d) (BitVec.ofNat 6 x.a) (BitVec.ofNat 6 x.b) m)
      else .error 2
  | 0x0D =>
      if x.var = 0 ∧ x.f = 0 then (withMd ks fun m => .slt (BitVec.ofNat 6 x.d) (BitVec.ofNat 6 x.a) (BitVec.ofNat 6 x.b) m)
      else .error 2
  | 0x0E =>
      if x.var = 0 ∧ x.f = 0 then (withMd ks fun m => .sltn (BitVec.ofNat 6 x.d) (BitVec.ofNat 6 x.a) (BitVec.ofNat 6 x.b) m)
      else .error 2
  | 0x0F =>
      if x.var = 0 ∧ x.f = 0 then (withMd ks fun m => .seq (BitVec.ofNat 6 x.d) (BitVec.ofNat 6 x.a) (BitVec.ofNat 6 x.b) m)
      else .error 2
  | 0x10 =>
      if x.var = 0 ∧ x.f = 0 then (withMd ks fun m => .andS (BitVec.ofNat 6 x.d) (BitVec.ofNat 6 x.a) (BitVec.ofNat 6 x.b) m)
      else .error 2
  | 0x11 =>
      if x.var = 0 ∧ x.f = 0 then (withMd ks fun m => .orS (BitVec.ofNat 6 x.d) (BitVec.ofNat 6 x.a) (BitVec.ofNat 6 x.b) m)
      else .error 2
  | 0x12 =>
      if x.var = 0 ∧ x.f = 0 then (withMd ks fun m => .xorS (BitVec.ofNat 6 x.d) (BitVec.ofNat 6 x.a) (BitVec.ofNat 6 x.b) m)
      else .error 2
  | 0x13 =>
      if x.var = 0 ∧ x.f = 0 then (withMd ks fun m => .andn (BitVec.ofNat 6 x.d) (BitVec.ofNat 6 x.a) (BitVec.ofNat 6 x.b) m)
      else .error 2
  | 0x14 =>
      if x.var = 0 ∧ x.f = 0 then (withMd ks fun m => .shl (BitVec.ofNat 6 x.d) (BitVec.ofNat 6 x.a) (BitVec.ofNat 6 x.b) m)
      else .error 2
  | 0x15 =>
      if x.var = 0 ∧ x.f = 0 then (withMd ks fun m => .shr (BitVec.ofNat 6 x.d) (BitVec.ofNat 6 x.a) (BitVec.ofNat 6 x.b) m)
      else .error 2
  | 0x16 =>
      if x.var = 0 ∧ x.f = 0 then (withMd ks fun m => .sar (BitVec.ofNat 6 x.d) (BitVec.ofNat 6 x.a) (BitVec.ofNat 6 x.b) m)
      else .error 2
  | 0x17 =>
      if x.var = 0 ∧ x.f = 0 then (withMd ks fun m => .sel (BitVec.ofNat 6 x.d) (BitVec.ofNat 6 x.a) (BitVec.ofNat 6 x.b) m)
      else .error 2
  | 0x18 =>
      if x.var = 0 ∧ x.b = 0 ∧ x.f = 0 then (withMd ks fun m => .clz (BitVec.ofNat 6 x.d) (BitVec.ofNat 6 x.a) m)
      else .error 2
  | 0x19 =>
      if x.var = 0 ∧ x.b = 0 ∧ x.f = 0 then (withMd ks fun m => .ctz (BitVec.ofNat 6 x.d) (BitVec.ofNat 6 x.a) m)
      else .error 2
  | 0x1A =>
      if x.var = 0 ∧ x.b = 0 ∧ x.f = 0 then (withMd ks fun m => .popc (BitVec.ofNat 6 x.d) (BitVec.ofNat 6 x.a) m)
      else .error 2
  | 0x1C =>
      if x.var = 0 then (withImm x.low ks fun i => .addi (BitVec.ofNat 6 x.d) (BitVec.ofNat 6 x.a) i)
      else .error 2
  | 0x1D =>
      if x.var = 0 then (withImm x.low ks fun i => .andi (BitVec.ofNat 6 x.d) (BitVec.ofNat 6 x.a) i)
      else .error 2
  | 0x1E =>
      if x.var = 0 then (withImm x.low ks fun i => .ori (BitVec.ofNat 6 x.d) (BitVec.ofNat 6 x.a) i)
      else .error 2
  | 0x1F =>
      if x.var = 0 then (withImm x.low ks fun i => .xori (BitVec.ofNat 6 x.d) (BitVec.ofNat 6 x.a) i)
      else .error 2
  | 0x20 =>
      if x.var = 0 then (withImm x.low ks fun i => .shli (BitVec.ofNat 6 x.d) (BitVec.ofNat 6 x.a) i)
      else .error 2
  | 0x21 =>
      if x.var = 0 then (withImm x.low ks fun i => .shri (BitVec.ofNat 6 x.d) (BitVec.ofNat 6 x.a) i)
      else .error 2
  | 0x22 =>
      if x.var = 0 then (withImm x.low ks fun i => .sari (BitVec.ofNat 6 x.d) (BitVec.ofNat 6 x.a) i)
      else .error 2
  | 0x23 =>
      if x.var = 0 then (withImm x.low ks fun i => .slti (BitVec.ofNat 6 x.d) (BitVec.ofNat 6 x.a) i)
      else .error 2
  | 0x24 =>
      if x.var = 0 then (withImm x.low ks fun i => .sltni (BitVec.ofNat 6 x.d) (BitVec.ofNat 6 x.a) i)
      else .error 2
  | 0x25 =>
      if x.var < 2 ∧ x.a = 0 then (withImm x.low ks fun i => .li (n2b x.var) (BitVec.ofNat 6 x.d) i)
      else .error 2
  | 0x26 =>
      if x.var < 4 then (withImm x.low ks fun i => .lds (BitVec.ofNat 2 x.var) (BitVec.ofNat 6 x.d) (BitVec.ofNat 6 x.a) i)
      else .error 2
  | 0x27 =>
      if x.var < 4 then (withImm x.low ks fun i => .sts (BitVec.ofNat 2 x.var) (BitVec.ofNat 6 x.d) (BitVec.ofNat 6 x.a) i)
      else .error 2
  | 0x28 =>
      if x.var < 4 ∧ x.f = 0 then (withMd ks fun m => .agen (BitVec.ofNat 2 x.var) (BitVec.ofNat 6 x.d) (BitVec.ofNat 6 x.a) (BitVec.ofNat 6 x.b) m)
      else .error 2
  | 0x29 =>
      if x.var = 0 ∧ 36 ≤ x.d ∧ x.d < 40 then (withImm x.low ks fun i => .lcset (BitVec.ofNat 2 (x.d - 36)) (BitVec.ofNat 6 x.a) i)
      else .error 2
  | 0x2A =>
      if x.var = 0 ∧ x.d = 0 ∧ x.a = 0 then (withImm x.low ks fun i => .br i)
      else .error 2
  | 0x2B =>
      if x.var < 2 ∧ x.d = 0 then (withImm x.low ks fun i => .brc (n2b x.var) (BitVec.ofNat 6 x.a) i)
      else .error 2
  | 0x2C =>
      if x.var = 0 ∧ x.a = 0 then (withImm x.low ks fun i => .call (BitVec.ofNat 6 x.d) i)
      else .error 2
  | 0x2D =>
      if x.var = 0 ∧ x.d = 0 ∧ x.b = 0 ∧ x.f = 0 then (withNoK ks (.ret (BitVec.ofNat 6 x.a)))
      else .error 2
  | 0x2E =>
      if x.var = 0 ∧ 36 ≤ x.d ∧ x.d < 40 then (withImm x.low ks fun i => .repeatLoop (BitVec.ofNat 2 (x.d - 36)) (BitVec.ofNat 6 x.a) i)
      else .error 2
  | 0x2F =>
      if x.var = 0 then (match ks with
        | [c, l, h] =>
          if h / 2 ^ 14 = 0 then .ok (.moor (BitVec.ofNat 19 (x.d * 2 ^ 13 + x.a * 2 ^ 7 + x.low)) (BitVec.ofNat 28 c) (BitVec.ofNat 28 l)
            (BitVec.ofNat 4 (h % 16)) (BitVec.ofNat 9 (h / 16 % 512)) (n2b (h / 2 ^ 13 % 2)))
          else .error 3
        | _ => .error 8)
      else .error 2
  | 0x30 =>
      if x.a = 0 ∧ x.b = 0 ∧ x.f = 0 then (withNoK ks (.rdvPlain (BitVec.ofNat 3 x.var) (BitVec.ofNat 6 x.d)))
      else .error 2
  | 0x31 =>
      if x.f = 0 then (withNoK ks (.rdvBar (BitVec.ofNat 3 x.var) (BitVec.ofNat 6 x.d) (BitVec.ofNat 6 x.a) (BitVec.ofNat 6 x.b)))
      else .error 2
  | 0x32 =>
      if x.f = 0 then (withNoK ks (.rdvWm (BitVec.ofNat 3 x.var) (BitVec.ofNat 6 x.d) (BitVec.ofNat 6 x.a) (BitVec.ofNat 6 x.b)))
      else .error 2
  | 0x33 =>
      if x.f = 0 then (withNoK ks (.rdvCmt (BitVec.ofNat 3 x.var) (BitVec.ofNat 6 x.d) (BitVec.ofNat 6 x.a) (BitVec.ofNat 6 x.b)))
      else .error 2
  | 0x34 =>
      if x.d = 0 ∧ x.a = 0 ∧ x.b = 0 ∧ x.f = 0 then (withNoK ks (.rdvLp (BitVec.ofNat 3 x.var)))
      else .error 2
  | 0x35 =>
      if x.var = 0 ∧ x.d = 0 ∧ x.a = 0 ∧ x.b = 0 ∧ x.f = 0 then (withNoK ks (.halt))
      else .error 2
  | 0x36 =>
      if x.var < 2 ∧ x.d = 0 then (withImm x.low ks fun i => .trap (n2b x.var) (BitVec.ofNat 6 x.a) i)
      else .error 2
  | 0x37 =>
      if x.var = 0 ∧ x.d = 0 ∧ x.a = 0 ∧ x.b = 0 ∧ x.f = 0 then (withNoK ks (.rett))
      else .error 2
  | 0x38 =>
      if x.var = 0 then (withImm x.low ks fun i => .sysrd (BitVec.ofNat 6 x.d) (BitVec.ofNat 6 x.a) i)
      else .error 2
  | 0x39 =>
      if x.var = 0 then (withImm x.low ks fun i => .syswr (BitVec.ofNat 6 x.d) (BitVec.ofNat 6 x.a) i)
      else .error 2
  | 0x3A =>
      if x.var = 0 ∧ x.d = 0 ∧ x.a = 0 ∧ x.b = 0 ∧ x.f = 0 then (withNoK ks (.resync))
      else .error 2
  | 0x3B =>
      if x.var < 4 ∧ x.d = 0 then (withImm x.low ks fun i => .cancel (BitVec.ofNat 2 x.var) (BitVec.ofNat 6 x.a) i)
      else .error 2
  | 0x3C =>
      if x.var = 0 ∧ x.d = 0 ∧ x.f = 0 then (withMd ks fun m => .winv (BitVec.ofNat 6 x.a) (BitVec.ofNat 6 x.b) m)
      else .error 2
  | _ => .error 1

/-- Class V (R201). -/
def decodeV (x : Fields) (ks : List Nat) : Except Nat Instr :=
  match x.opc with
  | 0x00 =>
      (withMd ks fun m => .vadd (BitVec.ofNat 3 x.var) (BitVec.ofNat 6 x.d) (BitVec.ofNat 6 x.a) (BitVec.ofNat 6 x.b) (n2b x.f) m)
  | 0x01 =>
      (withMd ks fun m => .vsub (BitVec.ofNat 3 x.var) (BitVec.ofNat 6 x.d) (BitVec.ofNat 6 x.a) (BitVec.ofNat 6 x.b) (n2b x.f) m)
  | 0x02 =>
      (withMd ks fun m => .vmul (BitVec.ofNat 3 x.var) (BitVec.ofNat 6 x.d) (BitVec.ofNat 6 x.a) (BitVec.ofNat 6 x.b) (n2b x.f) m)
  | 0x03 =>
      (withMd ks fun m => .vfma (BitVec.ofNat 3 x.var) (BitVec.ofNat 6 x.d) (BitVec.ofNat 6 x.a) (BitVec.ofNat 6 x.b) (n2b x.f) m)
  | 0x04 =>
      (withMd ks fun m => .vfms (BitVec.ofNat 3 x.var) (BitVec.ofNat 6 x.d) (BitVec.ofNat 6 x.a) (BitVec.ofNat 6 x.b) (n2b x.f) m)
  | 0x05 =>
      (withMd ks fun m => .vmin (BitVec.ofNat 3 x.var) (BitVec.ofNat 6 x.d) (BitVec.ofNat 6 x.a) (BitVec.ofNat 6 x.b) (n2b x.f) m)
  | 0x06 =>
      (withMd ks fun m => .vmax (BitVec.ofNat 3 x.var) (BitVec.ofNat 6 x.d) (BitVec.ofNat 6 x.a) (BitVec.ofNat 6 x.b) (n2b x.f) m)
  | 0x07 =>
      if x.b = 0 then (withMd ks fun m => .vabs (BitVec.ofNat 3 x.var) (BitVec.ofNat 6 x.d) (BitVec.ofNat 6 x.a) (n2b x.f) m)
      else .error 2
  | 0x08 =>
      if x.b = 0 then (withMd ks fun m => .vneg (BitVec.ofNat 3 x.var) (BitVec.ofNat 6 x.d) (BitVec.ofNat 6 x.a) (n2b x.f) m)
      else .error 2
  | 0x09 =>
      (withMd ks fun m => .vadds (BitVec.ofNat 3 x.var) (BitVec.ofNat 6 x.d) (BitVec.ofNat 6 x.a) (BitVec.ofNat 6 x.b) (n2b x.f) m)
  | 0x0A =>
      (withMd ks fun m => .vsubs (BitVec.ofNat 3 x.var) (BitVec.ofNat 6 x.d) (BitVec.ofNat 6 x.a) (BitVec.ofNat 6 x.b) (n2b x.f) m)
  | 0x0B =>
      (withMd ks fun m => .vmulh (BitVec.ofNat 3 x.var) (BitVec.ofNat 6 x.d) (BitVec.ofNat 6 x.a) (BitVec.ofNat 6 x.b) (n2b x.f) m)
  | 0x0C =>
      (withMd ks fun m => .vcmp (BitVec.ofNat 3 x.var) (BitVec.ofNat 3 (x.d / 8)) (BitVec.ofNat 3 (x.d % 8)) (BitVec.ofNat 6 x.a) (BitVec.ofNat 6 x.b) (n2b x.f) m)
  | 0x0D =>
      (withMd ks fun m => .vsel (BitVec.ofNat 3 x.var) (BitVec.ofNat 6 x.d) (BitVec.ofNat 6 x.a) (BitVec.ofNat 6 x.b) (n2b x.f) m)
  | 0x0E =>
      if x.var = 0 then (withMd ks fun m => .vand (BitVec.ofNat 6 x.d) (BitVec.ofNat 6 x.a) (BitVec.ofNat 6 x.b) (n2b x.f) m)
      else .error 2
  | 0x0F =>
      if x.var = 0 then (withMd ks fun m => .vor (BitVec.ofNat 6 x.d) (BitVec.ofNat 6 x.a) (BitVec.ofNat 6 x.b) (n2b x.f) m)
      else .error 2
  | 0x10 =>
      if x.var = 0 then (withMd ks fun m => .vxor (BitVec.ofNat 6 x.d) (BitVec.ofNat 6 x.a) (BitVec.ofNat 6 x.b) (n2b x.f) m)
      else .error 2
  | 0x11 =>
      if x.var = 0 then (withMd ks fun m => .vandn (BitVec.ofNat 6 x.d) (BitVec.ofNat 6 x.a) (BitVec.ofNat 6 x.b) (n2b x.f) m)
      else .error 2
  | 0x12 =>
      (withMd ks fun m => .vshl (BitVec.ofNat 3 x.var) (BitVec.ofNat 6 x.d) (BitVec.ofNat 6 x.a) (BitVec.ofNat 6 x.b) (n2b x.f) m)
  | 0x13 =>
      (withMd ks fun m => .vshr (BitVec.ofNat 3 x.var) (BitVec.ofNat 6 x.d) (BitVec.ofNat 6 x.a) (BitVec.ofNat 6 x.b) (n2b x.f) m)
  | 0x14 =>
      (withMd ks fun m => .vsar (BitVec.ofNat 3 x.var) (BitVec.ofNat 6 x.d) (BitVec.ofNat 6 x.a) (BitVec.ofNat 6 x.b) (n2b x.f) m)
  | 0x15 =>
      if x.var < 4 ∧ x.b = 0 then (withMd ks fun m => .vcvt (BitVec.ofNat 2 x.var) (BitVec.ofNat 6 x.d) (BitVec.ofNat 6 x.a) (n2b x.f) m)
      else .error 2
  | 0x16 =>
      if x.b = 0 then (withMd ks fun m => .vrcp (BitVec.ofNat 3 x.var) (BitVec.ofNat 6 x.d) (BitVec.ofNat 6 x.a) (n2b x.f) m)
      else .error 2
  | 0x17 =>
      if x.b = 0 then (withMd ks fun m => .vrsq (BitVec.ofNat 3 x.var) (BitVec.ofNat 6 x.d) (BitVec.ofNat 6 x.a) (n2b x.f) m)
      else .error 2
  | 0x18 =>
      if x.b = 0 then (withMd ks fun m => .vsqrt (BitVec.ofNat 3 x.var) (BitVec.ofNat 6 x.d) (BitVec.ofNat 6 x.a) (n2b x.f) m)
      else .error 2
  | 0x19 =>
      (withMd ks fun m => .vdiv (BitVec.ofNat 3 x.var) (BitVec.ofNat 6 x.d) (BitVec.ofNat 6 x.a) (BitVec.ofNat 6 x.b) (n2b x.f) m)
  | 0x1A =>
      if x.b = 0 then (withMd ks fun m => .vexp2 (BitVec.ofNat 3 x.var) (BitVec.ofNat 6 x.d) (BitVec.ofNat 6 x.a) (n2b x.f) m)
      else .error 2
  | 0x1B =>
      if x.b = 0 then (withMd ks fun m => .vlog2 (BitVec.ofNat 3 x.var) (BitVec.ofNat 6 x.d) (BitVec.ofNat 6 x.a) (n2b x.f) m)
      else .error 2
  | 0x1C =>
      if x.b < 8 then (withMd ks fun m => .vred (BitVec.ofNat 3 x.var) (BitVec.ofNat 6 x.d) (BitVec.ofNat 6 x.a) (BitVec.ofNat 3 x.b) (n2b x.f) m)
      else .error 2
  | 0x1D =>
      if x.b < 8 then (withMd ks fun m => .vscan (BitVec.ofNat 3 x.var) (BitVec.ofNat 6 x.d) (BitVec.ofNat 6 x.a) (BitVec.ofNat 3 x.b) (n2b x.f) m)
      else .error 2
  | 0x1E =>
      if x.var = 0 then (withMd ks fun m => .vperm (BitVec.ofNat 6 x.d) (BitVec.ofNat 6 x.a) (BitVec.ofNat 6 x.b) (n2b x.f) m)
      else .error 2
  | 0x1F =>
      (withMd ks fun m => .vshuf (BitVec.ofNat 3 x.var) (BitVec.ofNat 6 x.d) (BitVec.ofNat 6 x.a) (BitVec.ofNat 6 x.b) (n2b x.f) m)
  | 0x20 =>
      if x.var = 0 then (withMd ks fun m => .vbcast (BitVec.ofNat 6 x.d) (BitVec.ofNat 6 x.a) (BitVec.ofNat 6 x.b) (n2b x.f) m)
      else .error 2
  | 0x21 =>
      (withImm x.low ks fun i => .vsplat (BitVec.ofNat 3 x.var) (BitVec.ofNat 6 x.d) (BitVec.ofNat 6 x.a) i)
  | 0x22 =>
      if x.var = 0 then (withMd ks fun m => .vlane (BitVec.ofNat 6 x.d) (BitVec.ofNat 6 x.a) (BitVec.ofNat 6 x.b) (n2b x.f) m)
      else .error 2
  | 0x23 =>
      if x.var = 0 then (withMd ks fun m => .vext (BitVec.ofNat 6 x.d) (BitVec.ofNat 6 x.a) (BitVec.ofNat 6 x.b) (n2b x.f) m)
      else .error 2
  | 0x24 =>
      if x.var = 0 ∧ x.f = 0 then (withMd ks fun m => .vins (BitVec.ofNat 6 x.d) (BitVec.ofNat 6 x.a) (BitVec.ofNat 6 x.b) m)
      else .error 2
  | 0x25 =>
      (withMd ks fun m => .vdot (BitVec.ofNat 3 x.var) (BitVec.ofNat 6 x.d) (BitVec.ofNat 6 x.a) (BitVec.ofNat 6 x.b) (n2b x.f) m)
  | 0x26 =>
      if 4 ≤ x.var ∧ x.var < 6 then (withMd ks fun m => .vpack (n2b (x.var - 4)) (BitVec.ofNat 6 x.d) (BitVec.ofNat 6 x.a) (BitVec.ofNat 6 x.b) (n2b x.f) m)
      else .error 2
  | 0x27 =>
      if 4 ≤ x.var ∧ x.var < 6 ∧ x.b < 4 then (withMd ks fun m => .vunpack (n2b (x.var - 4)) (BitVec.ofNat 6 x.d) (BitVec.ofNat 6 x.a) (BitVec.ofNat 2 x.b) (n2b x.f) m)
      else .error 2
  | 0x28 =>
      if 4 ≤ x.var then (withImm x.low ks fun i => .vld (BitVec.ofNat 2 (x.var - 4)) (BitVec.ofNat 6 x.d) (BitVec.ofNat 6 x.a) i)
      else .error 2
  | 0x29 =>
      if x.f = 0 then (withMd ks fun m => .vlds (BitVec.ofNat 3 x.var) (BitVec.ofNat 6 x.d) (BitVec.ofNat 6 x.a) (BitVec.ofNat 6 x.b) m)
      else .error 2
  | 0x2A =>
      if x.f = 0 then (withMd ks fun m => .vldg (BitVec.ofNat 3 x.var) (BitVec.ofNat 6 x.d) (BitVec.ofNat 6 x.a) (BitVec.ofNat 6 x.b) m)
      else .error 2
  | 0x2B =>
      if 4 ≤ x.var then (withImm x.low ks fun i => .vst (BitVec.ofNat 2 (x.var - 4)) (BitVec.ofNat 6 x.d) (BitVec.ofNat 6 x.a) i)
      else .error 2
  | 0x2C =>
      if x.f = 0 then (withMd ks fun m => .vsts (BitVec.ofNat 3 x.var) (BitVec.ofNat 6 x.d) (BitVec.ofNat 6 x.a) (BitVec.ofNat 6 x.b) m)
      else .error 2
  | 0x2D =>
      if x.f = 0 then (withMd ks fun m => .vstx (BitVec.ofNat 3 x.var) (BitVec.ofNat 6 x.d) (BitVec.ofNat 6 x.a) (BitVec.ofNat 6 x.b) m)
      else .error 2
  | 0x2E =>
      if x.f = 0 then (withMd ks fun m => .vstm (BitVec.ofNat 3 x.var) (BitVec.ofNat 6 x.d) (BitVec.ofNat 6 x.a) (BitVec.ofNat 6 x.b) m)
      else .error 2
  | 0x2F =>
      if x.var = 0 ∧ x.b = 0 then (withMd ks fun m => .vmov (BitVec.ofNat 6 x.d) (BitVec.ofNat 6 x.a) (n2b x.f) m)
      else .error 2
  | 0x30 =>
      if x.var = 0 ∧ x.f = 0 then (withMd ks fun m => .mand (BitVec.ofNat 6 x.d) (BitVec.ofNat 6 x.a) (BitVec.ofNat 6 x.b) m)
      else .error 2
  | 0x31 =>
      if x.var = 0 ∧ x.f = 0 then (withMd ks fun m => .mor (BitVec.ofNat 6 x.d) (BitVec.ofNat 6 x.a) (BitVec.ofNat 6 x.b) m)
      else .error 2
  | 0x32 =>
      if x.var = 0 ∧ x.f = 0 then (withMd ks fun m => .mxor (BitVec.ofNat 6 x.d) (BitVec.ofNat 6 x.a) (BitVec.ofNat 6 x.b) m)
      else .error 2
  | 0x33 =>
      if x.var = 0 ∧ x.b = 0 ∧ x.f = 0 then (withMd ks fun m => .mnot (BitVec.ofNat 6 x.d) (BitVec.ofNat 6 x.a) m)
      else .error 2
  | 0x34 =>
      if x.var = 0 ∧ x.b = 0 ∧ x.f = 0 then (withMd ks fun m => .mpop (BitVec.ofNat 6 x.d) (BitVec.ofNat 6 x.a) m)
      else .error 2
  | 0x35 =>
      if x.var = 0 ∧ x.b = 0 ∧ x.f = 0 then (withMd ks fun m => .mfirst (BitVec.ofNat 6 x.d) (BitVec.ofNat 6 x.a) m)
      else .error 2
  | 0x36 =>
      if x.b < 4 ∧ x.f = 0 then (withMd ks fun m => .vmrd (BitVec.ofNat 3 x.var) (BitVec.ofNat 6 x.d) (BitVec.ofNat 6 x.a) (BitVec.ofNat 2 x.b) m)
      else .error 2
  | 0x37 =>
      if x.b < 4 ∧ x.f = 0 then (withMd ks fun m => .vmwr (BitVec.ofNat 3 x.var) (BitVec.ofNat 6 x.d) (BitVec.ofNat 6 x.a) (BitVec.ofNat 2 x.b) m)
      else .error 2
  | 0x38 =>
      (withMd ks fun m => .vminn (BitVec.ofNat 3 x.var) (BitVec.ofNat 6 x.d) (BitVec.ofNat 6 x.a) (BitVec.ofNat 6 x.b) (n2b x.f) m)
  | 0x39 =>
      (withMd ks fun m => .vmaxn (BitVec.ofNat 3 x.var) (BitVec.ofNat 6 x.d) (BitVec.ofNat 6 x.a) (BitVec.ofNat 6 x.b) (n2b x.f) m)
  | 0x3A =>
      (withMd ks fun m => .vaddsn (BitVec.ofNat 3 x.var) (BitVec.ofNat 6 x.d) (BitVec.ofNat 6 x.a) (BitVec.ofNat 6 x.b) (n2b x.f) m)
  | 0x3B =>
      (withMd ks fun m => .vsubsn (BitVec.ofNat 3 x.var) (BitVec.ofNat 6 x.d) (BitVec.ofNat 6 x.a) (BitVec.ofNat 6 x.b) (n2b x.f) m)
  | 0x3C =>
      (withMd ks fun m => .vmulhn (BitVec.ofNat 3 x.var) (BitVec.ofNat 6 x.d) (BitVec.ofNat 6 x.a) (BitVec.ofNat 6 x.b) (n2b x.f) m)
  | 0x3D =>
      (withMd ks fun m => .vcmpn (BitVec.ofNat 3 x.var) (BitVec.ofNat 3 (x.d / 8)) (BitVec.ofNat 3 (x.d % 8)) (BitVec.ofNat 6 x.a) (BitVec.ofNat 6 x.b) (n2b x.f) m)
  | _ => .error 1

/-- Class M (R203). DESIGN CHOICE (log entry 56): R298 marks FLAGS, BBASE and SC of MCHK 0 and is silent on ABASE in its form of a cell
tile, where any code decodes. -/
def decodeM (x : Fields) (ks : List Nat) : Except Nat Instr :=
  match x.opc with
  | 0x00 =>
      (withMd ks fun m => .mma (BitVec.ofNat 3 x.var) (BitVec.ofNat 3 (x.d / 8)) (n2b (x.d / 4 % 2)) (n2b (x.d / 2 % 2)) (n2b (x.d % 2)) (BitVec.ofNat 6 x.a) (BitVec.ofNat 6 x.b) (n2b x.f) m)
  | 0x01 =>
      (withMd ks fun m => .mmat (BitVec.ofNat 3 x.var) (BitVec.ofNat 3 (x.d / 8)) (n2b (x.d / 4 % 2)) (n2b (x.d / 2 % 2)) (n2b (x.d % 2)) (BitVec.ofNat 6 x.a) (BitVec.ofNat 6 x.b) (n2b x.f) m)
  | 0x02 =>
      (withMdR ks fun m => .mmag (BitVec.ofNat 3 x.var) (BitVec.ofNat 3 (x.d / 8)) (n2b (x.d / 4 % 2)) (n2b (x.d / 2 % 2)) (n2b (x.d % 2)) (BitVec.ofNat 6 x.a) (BitVec.ofNat 6 x.b) (n2b x.f) m)
  | 0x03 =>
      if x.var < 2 ∧ x.d % 8 = 0 ∧ x.a = 0 ∧ x.b = 0 ∧ x.f = 0 then (withMd ks fun m => .mclr (n2b x.var) (BitVec.ofNat 3 (x.d / 8)) m)
      else .error 2
  | 0x04 =>
      if x.var = 0 ∧ x.d % 8 = 0 ∧ x.b = 0 ∧ x.f = 0 then (withMd ks fun m => .mchk (BitVec.ofNat 3 (x.d / 8)) (BitVec.ofNat 6 x.a) m)
      else if x.var = 1 ∧ x.d = 0 ∧ x.b = 0 ∧ x.f = 0 then (withMd ks fun m => .mchkSp (BitVec.ofNat 6 x.a) m)
      else .error 2
  | 0x05 =>
      if x.var = 0 ∧ x.d = 0 ∧ x.f = 0 then (withMd ks fun m => .mmarg (BitVec.ofNat 6 x.a) (BitVec.ofNat 6 x.b) m)
      else .error 2
  | 0x06 =>
      if x.var = 0 ∧ x.d / 2 % 2 = 0 ∧ x.b = 0 ∧ x.f = 0 then (withMd ks fun m => .mload (BitVec.ofNat 3 (x.d / 8)) (n2b (x.d / 4 % 2)) (n2b (x.d % 2)) (BitVec.ofNat 6 x.a) m)
      else .error 2
  | 0x07 =>
      if x.var < 4 ∧ x.d / 2 % 2 = 0 ∧ x.f = 0 then (withMd ks fun m => .mout (BitVec.ofNat 2 x.var) (BitVec.ofNat 3 (x.d / 8)) (n2b (x.d / 4 % 2)) (n2b (x.d % 2)) (BitVec.ofNat 6 x.a) (BitVec.ofNat 6 x.b) m)
      else .error 2
  | _ => .error 1

/-- Class L (R203). -/
def decodeL (x : Fields) (ks : List Nat) : Except Nat Instr :=
  match x.opc with
  | 0x00 =>
      if x.var < 2 then (withMd ks fun m => .cpy (n2b x.var) (BitVec.ofNat 4 x.idx) (BitVec.ofNat 6 x.ld) (BitVec.ofNat 6 x.la) (BitVec.ofNat 3 x.opt) m)
      else .error 2
  | 0x01 =>
      if x.var < 2 then (withMd ks fun m => .cpys (n2b x.var) (BitVec.ofNat 4 x.idx) (BitVec.ofNat 6 x.ld) (BitVec.ofNat 6 x.la) (BitVec.ofNat 3 x.opt) m)
      else .error 2
  | 0x02 =>
      if x.var = 1 then (withMdR ks fun m => .cpym (BitVec.ofNat 4 x.idx) (BitVec.ofNat 6 x.ld) (BitVec.ofNat 6 x.la) (BitVec.ofNat 3 x.opt) m)
      else .error 2
  | 0x03 =>
      if x.var < 2 ∧ x.opt = 0 then (withMdR ks fun m => .cpyt (n2b x.var) (BitVec.ofNat 4 x.idx) (BitVec.ofNat 6 x.ld) (BitVec.ofNat 6 x.la) m)
      else .error 2
  | 0x04 =>
      if x.var < 4 then (withMd ks fun m => .code (BitVec.ofNat 2 x.var) (BitVec.ofNat 4 x.idx) (BitVec.ofNat 6 x.ld) (BitVec.ofNat 6 x.la) (BitVec.ofNat 3 x.opt) m)
      else .error 2
  | 0x05 =>
      if x.var < 2 ∧ x.idx < 4 then (withMd ks fun m => .hcpy (n2b x.var) (BitVec.ofNat 2 x.idx) (BitVec.ofNat 6 x.ld) (BitVec.ofNat 6 x.la) (BitVec.ofNat 3 x.opt) m)
      else .error 2
  | 0x06 =>
      if x.var = 0 ∧ x.idx = 0 ∧ x.la = 0 ∧ x.opt = 0 then (withMd ks fun m => .stageRd (BitVec.ofNat 6 x.ld) m)
      else if x.var = 1 ∧ x.idx = 0 ∧ x.ld = 0 ∧ x.opt = 0 then (withMd ks fun m => .stageSet (BitVec.ofNat 6 x.la) m)
      else .error 2
  | 0x07 =>
      if x.d = 0 ∧ x.b = 0 ∧ x.f = 0 then (withMd ks fun m => .bara (BitVec.ofNat 3 x.var) (BitVec.ofNat 6 x.a) m)
      else .error 2
  | 0x08 =>
      (withMd ks fun m => .atomInt (BitVec.ofNat 3 x.var) (BitVec.ofNat 6 x.d) (BitVec.ofNat 6 x.a) (BitVec.ofNat 6 x.b) (n2b x.f) m)
  | 0x09 =>
      if x.var < 4 then (withMd ks fun m => .atomOther (BitVec.ofNat 2 x.var) (BitVec.ofNat 6 x.d) (BitVec.ofNat 6 x.a) (BitVec.ofNat 6 x.b) (n2b x.f) m)
      else .error 2
  | _ => .error 1

/-- Class Q (R203). -/
def decodeQ (x : Fields) (ks : List Nat) : Except Nat Instr :=
  match x.opc with
  | 0x00 =>
      if x.var = 0 ∧ x.ld < 16 then (withMd ks fun m => .send (BitVec.ofNat 4 x.idx) (BitVec.ofNat 4 x.ld) (BitVec.ofNat 6 x.la) (BitVec.ofNat 3 x.opt) m)
      else .error 2
  | 0x01 =>
      if x.var = 0 ∧ x.ld = 0 ∧ x.opt = 0 then (withMd ks fun m => .recv (BitVec.ofNat 4 x.idx) (BitVec.ofNat 6 x.la) m)
      else .error 2
  | 0x02 =>
      if x.var < 4 ∧ x.opt < 4 then (withMd ks fun m => .rld (BitVec.ofNat 2 x.var) (BitVec.ofNat 4 x.idx) (BitVec.ofNat 6 x.ld) (BitVec.ofNat 6 x.la) (BitVec.ofNat 2 x.opt) m)
      else .error 2
  | 0x03 =>
      if x.var < 4 ∧ x.opt < 4 then (withMd ks fun m => .rst (BitVec.ofNat 2 x.var) (BitVec.ofNat 4 x.idx) (BitVec.ofNat 6 x.ld) (BitVec.ofNat 6 x.la) (BitVec.ofNat 2 x.opt) m)
      else .error 2
  | 0x04 =>
      if x.opt = 0 then (withMd ks fun m => .rred (BitVec.ofNat 3 x.var) (BitVec.ofNat 4 x.idx) (BitVec.ofNat 6 x.ld) (BitVec.ofNat 6 x.la) m)
      else .error 2
  | 0x05 =>
      if x.var = 0 ∧ x.ld = 0 ∧ x.la = 0 ∧ x.opt = 0 then (withMd ks fun m => .rrel (BitVec.ofNat 4 x.idx) m)
      else if x.var = 1 ∧ x.idx = 0 ∧ x.ld = 0 ∧ x.la = 0 ∧ x.opt = 0 then (withMd ks fun m => .rrelAll m)
      else .error 2
  | 0x06 =>
      if x.var = 0 then (withMd ks fun m => .bcst (BitVec.ofNat 4 x.idx) (BitVec.ofNat 6 x.ld) (BitVec.ofNat 6 x.la) (BitVec.ofNat 3 x.opt) m)
      else .error 2
  | 0x07 =>
      if x.var = 0 ∧ x.idx = 0 ∧ x.la = 0 then (withMd ks fun m => .drain (BitVec.ofNat 6 x.ld) (BitVec.ofNat 3 x.opt) m)
      else .error 2
  | 0x08 =>
      (withMd ks fun m => .ratomInt (BitVec.ofNat 3 x.var) (BitVec.ofNat 4 x.idx) (BitVec.ofNat 6 x.ld) (BitVec.ofNat 6 x.la) (BitVec.ofNat 3 x.opt) m)
  | 0x09 =>
      if x.var < 4 then (withMd ks fun m => .ratomOther (BitVec.ofNat 2 x.var) (BitVec.ofNat 4 x.idx) (BitVec.ofNat 6 x.ld) (BitVec.ofNat 6 x.la) (BitVec.ofNat 3 x.opt) m)
      else .error 2
  | _ => .error 1

/-- Class X (R203). -/
def decodeX (x : Fields) (ks : List Nat) : Except Nat Instr :=
  match x.opc with
  | 0x00 =>
      if x.var = 4 ∧ x.d < 16 then (withImm x.low ks fun i => .scl (BitVec.ofNat 4 x.d) (BitVec.ofNat 6 x.a) i)
      else .error 2
  | 0x01 =>
      if x.var = 0 ∧ x.d < 16 ∧ x.b = 0 ∧ x.f = 0 then (withMd ks fun m => .sclv (BitVec.ofNat 4 x.d) (BitVec.ofNat 6 x.a) m)
      else .error 2
  | 0x02 =>
      if x.var < 4 ∧ x.b < 8 ∧ x.f = 0 then (withMd ks fun m => .xpack (BitVec.ofNat 2 x.var) (BitVec.ofNat 6 x.d) (BitVec.ofNat 6 x.a) (BitVec.ofNat 3 x.b) m)
      else .error 2
  | 0x03 =>
      if x.var < 4 ∧ x.b < 8 ∧ x.f = 0 then (withMd ks fun m => .xunpack (BitVec.ofNat 2 x.var) (BitVec.ofNat 6 x.d) (BitVec.ofNat 6 x.a) (BitVec.ofNat 3 x.b) m)
      else .error 2
  | 0x04 =>
      if x.var = 0 ∧ x.a = 0 ∧ x.b = 0 then (withMd ks fun m => .rndpop (n2b x.f) (BitVec.ofNat 6 x.d) m)
      else .error 2
  | 0x05 =>
      if x.var = 0 ∧ x.d = 0 ∧ x.b = 0 ∧ x.f = 0 then (withMd ks fun m => .rndseed (BitVec.ofNat 6 x.a) m)
      else .error 2
  | _ => .error 1

/-- One slot, not W, with the payloads of the K slots that follow it: the instruction, or the ILLEGAL subclass
(R199, R354). -/
def decodeSlot (w : Nat) (ks : List Nat) : Except Nat Instr :=
  let x := fieldsOf w
  let r : Except Nat Instr :=
    match x.cls with
    | 0 => decodeS x ks
    | 1 => decodeV x ks
    | 2 => decodeM x ks
    | 3 => decodeL x ks
    | 4 => decodeQ x ks
    | 5 => decodeX x ks
    | 6 => .error 5
    | _ => if w / 2 ^ 24 % 16 = 0 then withNoK ks (.idle (BitVec.ofNat 24 w)) else .error 3
  match r with
  | .ok i => if i.illegalSub = 0 then .ok i else .error i.illegalSub
  | .error e => .error e

/-- The slot word (E = 0) and the K payloads of an instruction (R191, R195). A step that is not a slot has
none. -/
def Instr.enc : Instr → Nat × List Nat
  | .add d a b m => (packA 0 0x00 0 d.toNat a.toNat b.toNat 0, mdWords m)
  | .sub d a b m => (packA 0 0x01 0 d.toNat a.toNat b.toNat 0, mdWords m)
  | .mul d a b m => (packA 0 0x02 0 d.toNat a.toNat b.toNat 0, mdWords m)
  | .mulh d a b m => (packA 0 0x03 0 d.toNat a.toNat b.toNat 0, mdWords m)
  | .mulhn d a b m => (packA 0 0x04 0 d.toNat a.toNat b.toNat 0, mdWords m)
  | .div d a b m => (packA 0 0x05 0 d.toNat a.toNat b.toNat 0, mdWords m)
  | .divn d a b m => (packA 0 0x06 0 d.toNat a.toNat b.toNat 0, mdWords m)
  | .rem d a b m => (packA 0 0x07 0 d.toNat a.toNat b.toNat 0, mdWords m)
  | .remn d a b m => (packA 0 0x08 0 d.toNat a.toNat b.toNat 0, mdWords m)
  | .minS d a b m => (packA 0 0x09 0 d.toNat a.toNat b.toNat 0, mdWords m)
  | .minn d a b m => (packA 0 0x0A 0 d.toNat a.toNat b.toNat 0, mdWords m)
  | .maxS d a b m => (packA 0 0x0B 0 d.toNat a.toNat b.toNat 0, mdWords m)
  | .maxn d a b m => (packA 0 0x0C 0 d.toNat a.toNat b.toNat 0, mdWords m)
  | .slt d a b m => (packA 0 0x0D 0 d.toNat a.toNat b.toNat 0, mdWords m)
  | .sltn d a b m => (packA 0 0x0E 0 d.toNat a.toNat b.toNat 0, mdWords m)
  | .seq d a b m => (packA 0 0x0F 0 d.toNat a.toNat b.toNat 0, mdWords m)
  | .andS d a b m => (packA 0 0x10 0 d.toNat a.toNat b.toNat 0, mdWords m)
  | .orS d a b m => (packA 0 0x11 0 d.toNat a.toNat b.toNat 0, mdWords m)
  | .xorS d a b m => (packA 0 0x12 0 d.toNat a.toNat b.toNat 0, mdWords m)
  | .andn d a b m => (packA 0 0x13 0 d.toNat a.toNat b.toNat 0, mdWords m)
  | .shl d a b m => (packA 0 0x14 0 d.toNat a.toNat b.toNat 0, mdWords m)
  | .shr d a b m => (packA 0 0x15 0 d.toNat a.toNat b.toNat 0, mdWords m)
  | .sar d a b m => (packA 0 0x16 0 d.toNat a.toNat b.toNat 0, mdWords m)
  | .sel d a b m => (packA 0 0x17 0 d.toNat a.toNat b.toNat 0, mdWords m)
  | .clz d a m => (packA 0 0x18 0 d.toNat a.toNat 0 0, mdWords m)
  | .ctz d a m => (packA 0 0x19 0 d.toNat a.toNat 0 0, mdWords m)
  | .popc d a m => (packA 0 0x1A 0 d.toNat a.toNat 0 0, mdWords m)
  | .addi d a i => (packI 0 0x1C 0 d.toNat a.toNat i.low, i.words)
  | .andi d a i => (packI 0 0x1D 0 d.toNat a.toNat i.low, i.words)
  | .ori d a i => (packI 0 0x1E 0 d.toNat a.toNat i.low, i.words)
  | .xori d a i => (packI 0 0x1F 0 d.toNat a.toNat i.low, i.words)
  | .shli d a i => (packI 0 0x20 0 d.toNat a.toNat i.low, i.words)
  | .shri d a i => (packI 0 0x21 0 d.toNat a.toNat i.low, i.words)
  | .sari d a i => (packI 0 0x22 0 d.toNat a.toNat i.low, i.words)
  | .slti d a i => (packI 0 0x23 0 d.toNat a.toNat i.low, i.words)
  | .sltni d a i => (packI 0 0x24 0 d.toNat a.toNat i.low, i.words)
  | .li x d i => (packI 0 0x25 (b2n x) d.toNat 0 i.low, i.words)
  | .lds z d r i => (packI 0 0x26 z.toNat d.toNat r.toNat i.low, i.words)
  | .sts z d r i => (packI 0 0x27 z.toNat d.toNat r.toNat i.low, i.words)
  | .agen n d a b m => (packA 0 0x28 n.toNat d.toNat a.toNat b.toNat 0, mdWords m)
  | .lcset n a i => (packI 0 0x29 0 (36 + n.toNat) a.toNat i.low, i.words)
  | .br i => (packI 0 0x2A 0 0 0 i.low, i.words)
  | .brc z a i => (packI 0 0x2B (b2n z) 0 a.toNat i.low, i.words)
  | .call d i => (packI 0 0x2C 0 d.toNat 0 i.low, i.words)
  | .ret a => (packA 0 0x2D 0 0 a.toNat 0 0, [])
  | .repeatLoop n a i => (packI 0 0x2E 0 (36 + n.toNat) a.toNat i.low, i.words)
  | .moor o c sigl sigh budget safe => (packI 0 0x2F 0 (o.toNat / 2 ^ 13) (o.toNat / 2 ^ 7 % 64) (o.toNat % 128), [c.toNat, sigl.toNat, sigh.toNat + budget.toNat * 2 ^ 4 + b2n safe * 2 ^ 13])
  | .rdvPlain sc g => (packA 0 0x30 sc.toNat g.toNat 0 0 0, [])
  | .rdvBar sc g a b => (packA 0 0x31 sc.toNat g.toNat a.toNat b.toNat 0, [])
  | .rdvWm sc g a b => (packA 0 0x32 sc.toNat g.toNat a.toNat b.toNat 0, [])
  | .rdvCmt sc g a b => (packA 0 0x33 sc.toNat g.toNat a.toNat b.toNat 0, [])
  | .rdvLp sc => (packA 0 0x34 sc.toNat 0 0 0 0, [])
  | .halt => (packA 0 0x35 0 0 0 0 0, [])
  | .trap z a i => (packI 0 0x36 (b2n z) 0 a.toNat i.low, i.words)
  | .rett => (packA 0 0x37 0 0 0 0 0, [])
  | .resync => (packA 0 0x3A 0 0 0 0 0, [])
  | .sysrd d a i => (packI 0 0x38 0 d.toNat a.toNat i.low, i.words)
  | .syswr d a i => (packI 0 0x39 0 d.toNat a.toNat i.low, i.words)
  | .cancel lvl a i => (packI 0 0x3B lvl.toNat 0 a.toNat i.low, i.words)
  | .winv a b m => (packA 0 0x3C 0 0 a.toNat b.toNat 0, mdWords m)
  | .vadd f d a b h m => (packA 1 0x00 f.toNat d.toNat a.toNat b.toNat (b2n h), mdWords m)
  | .vsub f d a b h m => (packA 1 0x01 f.toNat d.toNat a.toNat b.toNat (b2n h), mdWords m)
  | .vmul f d a b h m => (packA 1 0x02 f.toNat d.toNat a.toNat b.toNat (b2n h), mdWords m)
  | .vfma f d a b h m => (packA 1 0x03 f.toNat d.toNat a.toNat b.toNat (b2n h), mdWords m)
  | .vfms f d a b h m => (packA 1 0x04 f.toNat d.toNat a.toNat b.toNat (b2n h), mdWords m)
  | .vmin f d a b h m => (packA 1 0x05 f.toNat d.toNat a.toNat b.toNat (b2n h), mdWords m)
  | .vmax f d a b h m => (packA 1 0x06 f.toNat d.toNat a.toNat b.toNat (b2n h), mdWords m)
  | .vabs f d a h m => (packA 1 0x07 f.toNat d.toNat a.toNat 0 (b2n h), mdWords m)
  | .vneg f d a h m => (packA 1 0x08 f.toNat d.toNat a.toNat 0 (b2n h), mdWords m)
  | .vadds f d a b h m => (packA 1 0x09 f.toNat d.toNat a.toNat b.toNat (b2n h), mdWords m)
  | .vsubs f d a b h m => (packA 1 0x0A f.toNat d.toNat a.toNat b.toNat (b2n h), mdWords m)
  | .vmulh f d a b h m => (packA 1 0x0B f.toNat d.toNat a.toNat b.toNat (b2n h), mdWords m)
  | .vcmp f cond k a b h m => (packA 1 0x0C f.toNat (cond.toNat * 8 + k.toNat) a.toNat b.toNat (b2n h), mdWords m)
  | .vsel f d a b h m => (packA 1 0x0D f.toNat d.toNat a.toNat b.toNat (b2n h), mdWords m)
  | .vand d a b h m => (packA 1 0x0E 0 d.toNat a.toNat b.toNat (b2n h), mdWords m)
  | .vor d a b h m => (packA 1 0x0F 0 d.toNat a.toNat b.toNat (b2n h), mdWords m)
  | .vxor d a b h m => (packA 1 0x10 0 d.toNat a.toNat b.toNat (b2n h), mdWords m)
  | .vandn d a b h m => (packA 1 0x11 0 d.toNat a.toNat b.toNat (b2n h), mdWords m)
  | .vshl f d a b h m => (packA 1 0x12 f.toNat d.toNat a.toNat b.toNat (b2n h), mdWords m)
  | .vshr f d a b h m => (packA 1 0x13 f.toNat d.toNat a.toNat b.toNat (b2n h), mdWords m)
  | .vsar f d a b h m => (packA 1 0x14 f.toNat d.toNat a.toNat b.toNat (b2n h), mdWords m)
  | .vcvt rm d a h m => (packA 1 0x15 rm.toNat d.toNat a.toNat 0 (b2n h), mdWords m)
  | .vrcp f d a h m => (packA 1 0x16 f.toNat d.toNat a.toNat 0 (b2n h), mdWords m)
  | .vrsq f d a h m => (packA 1 0x17 f.toNat d.toNat a.toNat 0 (b2n h), mdWords m)
  | .vsqrt f d a h m => (packA 1 0x18 f.toNat d.toNat a.toNat 0 (b2n h), mdWords m)
  | .vdiv f d a b h m => (packA 1 0x19 f.toNat d.toNat a.toNat b.toNat (b2n h), mdWords m)
  | .vexp2 f d a h m => (packA 1 0x1A f.toNat d.toNat a.toNat 0 (b2n h), mdWords m)
  | .vlog2 f d a h m => (packA 1 0x1B f.toNat d.toNat a.toNat 0 (b2n h), mdWords m)
  | .vred f d a op h m => (packA 1 0x1C f.toNat d.toNat a.toNat op.toNat (b2n h), mdWords m)
  | .vscan f d a op h m => (packA 1 0x1D f.toNat d.toNat a.toNat op.toNat (b2n h), mdWords m)
  | .vperm d a b h m => (packA 1 0x1E 0 d.toNat a.toNat b.toNat (b2n h), mdWords m)
  | .vshuf f d a b h m => (packA 1 0x1F f.toNat d.toNat a.toNat b.toNat (b2n h), mdWords m)
  | .vbcast d a b h m => (packA 1 0x20 0 d.toNat a.toNat b.toNat (b2n h), mdWords m)
  | .vsplat f d a i => (packI 1 0x21 f.toNat d.toNat a.toNat i.low, i.words)
  | .vlane d a b h m => (packA 1 0x22 0 d.toNat a.toNat b.toNat (b2n h), mdWords m)
  | .vext d a b h m => (packA 1 0x23 0 d.toNat a.toNat b.toNat (b2n h), mdWords m)
  | .vins d a b m => (packA 1 0x24 0 d.toNat a.toNat b.toNat 0, mdWords m)
  | .vdot f d a b h m => (packA 1 0x25 f.toNat d.toNat a.toNat b.toNat (b2n h), mdWords m)
  | .vpack w d a b h m => (packA 1 0x26 (4 + b2n w) d.toNat a.toNat b.toNat (b2n h), mdWords m)
  | .vunpack w d a mode h m => (packA 1 0x27 (4 + b2n w) d.toNat a.toNat mode.toNat (b2n h), mdWords m)
  | .vld z d r i => (packI 1 0x28 (4 + z.toNat) d.toNat r.toNat i.low, i.words)
  | .vlds f d a b m => (packA 1 0x29 f.toNat d.toNat a.toNat b.toNat 0, mdWords m)
  | .vldg f d a b m => (packA 1 0x2A f.toNat d.toNat a.toNat b.toNat 0, mdWords m)
  | .vst z d r i => (packI 1 0x2B (4 + z.toNat) d.toNat r.toNat i.low, i.words)
  | .vsts f d a b m => (packA 1 0x2C f.toNat d.toNat a.toNat b.toNat 0, mdWords m)
  | .vstx f d a b m => (packA 1 0x2D f.toNat d.toNat a.toNat b.toNat 0, mdWords m)
  | .vstm f d a b m => (packA 1 0x2E f.toNat d.toNat a.toNat b.toNat 0, mdWords m)
  | .vmov d a h m => (packA 1 0x2F 0 d.toNat a.toNat 0 (b2n h), mdWords m)
  | .mand d a b m => (packA 1 0x30 0 d.toNat a.toNat b.toNat 0, mdWords m)
  | .mor d a b m => (packA 1 0x31 0 d.toNat a.toNat b.toNat 0, mdWords m)
  | .mxor d a b m => (packA 1 0x32 0 d.toNat a.toNat b.toNat 0, mdWords m)
  | .mnot d a m => (packA 1 0x33 0 d.toNat a.toNat 0 0, mdWords m)
  | .mpop d a m => (packA 1 0x34 0 d.toNat a.toNat 0 0, mdWords m)
  | .mfirst d a m => (packA 1 0x35 0 d.toNat a.toNat 0 0, mdWords m)
  | .vmrd t d a mode m => (packA 1 0x36 t.toNat d.toNat a.toNat mode.toNat 0, mdWords m)
  | .vmwr t d a mode m => (packA 1 0x37 t.toNat d.toNat a.toNat mode.toNat 0, mdWords m)
  | .vminn f d a b h m => (packA 1 0x38 f.toNat d.toNat a.toNat b.toNat (b2n h), mdWords m)
  | .vmaxn f d a b h m => (packA 1 0x39 f.toNat d.toNat a.toNat b.toNat (b2n h), mdWords m)
  | .vaddsn f d a b h m => (packA 1 0x3A f.toNat d.toNat a.toNat b.toNat (b2n h), mdWords m)
  | .vsubsn f d a b h m => (packA 1 0x3B f.toNat d.toNat a.toNat b.toNat (b2n h), mdWords m)
  | .vmulhn f d a b h m => (packA 1 0x3C f.toNat d.toNat a.toNat b.toNat (b2n h), mdWords m)
  | .vcmpn f cond k a b h m => (packA 1 0x3D f.toNat (cond.toNat * 8 + k.toNat) a.toNat b.toNat (b2n h), mdWords m)
  | .mma f tl t z c a b sc m => (packA 2 0x00 f.toNat (tl.toNat * 8 + b2n t * 4 + b2n z * 2 + b2n c) a.toNat b.toNat (b2n sc), mdWords m)
  | .mmat f tl t z c a b sc m => (packA 2 0x01 f.toNat (tl.toNat * 8 + b2n t * 4 + b2n z * 2 + b2n c) a.toNat b.toNat (b2n sc), mdWords m)
  | .mmag f tl t z c a b sc m => (packA 2 0x02 f.toNat (tl.toNat * 8 + b2n t * 4 + b2n z * 2 + b2n c) a.toNat b.toNat (b2n sc), [m.word])
  | .mclr i tl m => (packA 2 0x03 (b2n i) (tl.toNat * 8) 0 0 0, mdWords m)
  | .mchk tl a m => (packA 2 0x04 0 (tl.toNat * 8) a.toNat 0 0, mdWords m)
  | .mchkSp a m => (packA 2 0x04 1 0 a.toNat 0 0, mdWords m)
  | .mmarg a b m => (packA 2 0x05 0 0 a.toNat b.toNat 0, mdWords m)
  | .mload tl t c a m => (packA 2 0x06 0 (tl.toNat * 8 + b2n t * 4 + b2n c) a.toNat 0 0, mdWords m)
  | .mout rm tl t c a b m => (packA 2 0x07 rm.toNat (tl.toNat * 8 + b2n t * 4 + b2n c) a.toNat b.toNat 0, mdWords m)
  | .cpy put i d a sh m => (packL 3 0x00 (b2n put) i.toNat d.toNat a.toNat sh.toNat, mdWords m)
  | .cpys put i d a sh m => (packL 3 0x01 (b2n put) i.toNat d.toNat a.toNat sh.toNat, mdWords m)
  | .cpym i d a sh m => (packL 3 0x02 1 i.toNat d.toNat a.toNat sh.toNat, [m.word])
  | .cpyt put i d a m => (packL 3 0x03 (b2n put) i.toNat d.toNat a.toNat 0, [m.word])
  | .code v i d a sh m => (packL 3 0x04 v.toNat i.toNat d.toNat a.toNat sh.toNat, mdWords m)
  | .hcpy put ch d a sh m => (packL 3 0x05 (b2n put) ch.toNat d.toNat a.toNat sh.toNat, mdWords m)
  | .stageRd d m => (packL 3 0x06 0 0 d.toNat 0 0, mdWords m)
  | .stageSet a m => (packL 3 0x06 1 0 0 a.toNat 0, mdWords m)
  | .bara n a m => (packA 3 0x07 n.toNat 0 a.toNat 0 0, mdWords m)
  | .atomInt op d a b w m => (packA 3 0x08 op.toNat d.toNat a.toNat b.toNat (b2n w), mdWords m)
  | .atomOther op d a b w m => (packA 3 0x09 op.toNat d.toNat a.toNat b.toNat (b2n w), mdWords m)
  | .send i n a sh m => (packL 4 0x00 0 i.toNat n.toNat a.toNat sh.toNat, mdWords m)
  | .recv n a m => (packL 4 0x01 0 n.toNat 0 a.toNat 0, mdWords m)
  | .rld z i d a ord m => (packL 4 0x02 z.toNat i.toNat d.toNat a.toNat ord.toNat, mdWords m)
  | .rst z i d a ord m => (packL 4 0x03 z.toNat i.toNat d.toNat a.toNat ord.toNat, mdWords m)
  | .rred op i d a m => (packL 4 0x04 op.toNat i.toNat d.toNat a.toNat 0, mdWords m)
  | .rrel i m => (packL 4 0x05 0 i.toNat 0 0 0, mdWords m)
  | .rrelAll m => (packL 4 0x05 1 0 0 0 0, mdWords m)
  | .bcst i d a sh m => (packL 4 0x06 0 i.toNat d.toNat a.toNat sh.toNat, mdWords m)
  | .drain d sc m => (packL 4 0x07 0 0 d.toNat 0 sc.toNat, mdWords m)
  | .ratomInt op i d a opt m => (packL 4 0x08 op.toNat i.toNat d.toNat a.toNat opt.toNat, mdWords m)
  | .ratomOther op i d a opt m => (packL 4 0x09 op.toNat i.toNat d.toNat a.toNat opt.toNat, mdWords m)
  | .scl n r i => (packI 5 0x00 4 n.toNat r.toNat i.low, i.words)
  | .sclv n a m => (packA 5 0x01 0 n.toNat a.toNat 0 0, mdWords m)
  | .xpack mode d a g m => (packA 5 0x02 mode.toNat d.toNat a.toNat g.toNat 0, mdWords m)
  | .xunpack mode d a g m => (packA 5 0x03 mode.toNat d.toNat a.toNat g.toNat 0, mdWords m)
  | .rndpop packed d m => (packA 5 0x04 0 d.toNat 0 0 (b2n packed), mdWords m)
  | .rndseed a m => (packA 5 0x05 0 0 a.toNat 0 0, mdWords m)
  | .idle n => (7 * 2 ^ 28 + n.toNat, [])
  | .powerOnReset _ => (0, [])
  | .createPartition _ _ _ _ => (0, [])
  | .chamoisAppend _ => (0, [])
  | .resultLanding _ _ => (0, [])
  | .matrixReadable _ _ => (0, [])
  | .marginCheck _ _ => (0, [])
  | .memberShareStart _ _ => (0, [])
  | .gangCompletionAdd _ _ _ => (0, [])
  | .pieceTransfer _ _ _ => (0, [])
  | .codeFillLanding _ _ _ => (0, [])
  | .hcpyPiece _ _ => (0, [])
  | .serviceAccess _ => (0, [])
  | .stagedWriteLanding _ => (0, [])
  | .remoteRead _ => (0, [])
  | .ratomLanding _ => (0, [])
  | .reductionMerge _ _ => (0, [])
  | .bankAluWrite _ => (0, [])
  | .commitFlitLanding _ => (0, [])
  | .recallFlitLanding _ => (0, [])
  | .linkFlit _ _ => (0, [])
  | .flitLost _ => (0, [])
  | .noticeLanding _ => (0, [])
  | .packageLost _ => (0, [])
  | .peerSetUpdate _ _ => (0, [])
  | .drainComplete _ _ => (0, [])
  | .horizonResume _ => (0, [])
  | .rendezvousRelease _ => (0, [])
  | .watermarkCompare _ => (0, [])
  | .cancelVisible _ _ _ => (0, [])
  | .coreIdle _ => (0, [])
  | .launchStaging _ => (0, [])
  | .launchPointRelease _ => (0, [])
  | .jobStart _ => (0, [])
  | .thermalTrip _ => (0, [])
  | .thermalRelease _ => (0, [])
  | .podFreeze _ _ => (0, [])
  | .freezeBoundary _ => (0, [])
  | .partitionResume _ => (0, [])
  | .dredgerStep _ => (0, [])
  | .dredgerWriteback _ _ => (0, [])
  | .timing _ _ => (0, [])
  | .deliver _ _ => (0, [])
  | .cycslip _ => (0, [])
  | .undoWriteback _ => (0, [])
  | .handlerEntry _ => (0, [])
  | .segmentReentry _ => (0, [])
  | .deferredLanding _ => (0, [])
  | .tableServiceRequest _ => (0, [])
  | .tableEntryWrite _ _ _ _ => (0, [])
  | .tableEntryRepair _ _ => (0, [])
  | .mapPublication _ _ _ => (0, [])
  | .surveyWindow _ _ => (0, [])
  | .inServiceSurvey _ _ => (0, [])
  | .load _ => (0, [])
  | .unload _ => (0, [])
  | .start _ => (0, [])
  | .endJob _ => (0, [])
  | .cancelCommand _ => (0, [])
  | .hold _ => (0, [])
  | .release _ => (0, [])
  | .patch _ => (0, [])
  | .attest _ => (0, [])
  | .ckpt _ => (0, [])
  | .resumeck _ => (0, [])
  | .rebind _ => (0, [])
  | .freeze _ => (0, [])
  | .save _ => (0, [])
  | .restore _ => (0, [])
  | .resume _ => (0, [])
  | .discard _ => (0, [])
  | .mbrespClear _ => (0, [])
  | .ctxstatClear _ => (0, [])
  | .firedClear _ _ => (0, [])
  | .launchQueueEnqueue _ _ _ => (0, [])
  | .launchQueueEmpty _ _ _ => (0, [])
  | .launchQueueFieldWrite _ _ _ => (0, [])
  | .repairreq _ _ => (0, [])
  | .bistsum _ _ => (0, [])
  | .arrayInjectorArm _ _ _ => (0, [])
  | .linkInjectorArm _ _ _ => (0, [])
  | .systemRegisterWrite _ _ => (0, [])
  | .illegal _ _ _ => (0, [])
  | .unknownCommandCode _ _ => (0, [])
  | .coreLost _ => (0, [])
  | .extendService _ _ _ => (0, [])
  | .tableServiceAnswer _ _ => (0, [])

/-- Is the instruction a slot, with an encoding? -/
def Instr.isSlot : Instr → Bool
  | .powerOnReset _ => false
  | .createPartition _ _ _ _ => false
  | .chamoisAppend _ => false
  | .resultLanding _ _ => false
  | .matrixReadable _ _ => false
  | .marginCheck _ _ => false
  | .memberShareStart _ _ => false
  | .gangCompletionAdd _ _ _ => false
  | .pieceTransfer _ _ _ => false
  | .codeFillLanding _ _ _ => false
  | .hcpyPiece _ _ => false
  | .serviceAccess _ => false
  | .stagedWriteLanding _ => false
  | .remoteRead _ => false
  | .ratomLanding _ => false
  | .reductionMerge _ _ => false
  | .bankAluWrite _ => false
  | .commitFlitLanding _ => false
  | .recallFlitLanding _ => false
  | .linkFlit _ _ => false
  | .flitLost _ => false
  | .noticeLanding _ => false
  | .packageLost _ => false
  | .peerSetUpdate _ _ => false
  | .drainComplete _ _ => false
  | .horizonResume _ => false
  | .rendezvousRelease _ => false
  | .watermarkCompare _ => false
  | .cancelVisible _ _ _ => false
  | .coreIdle _ => false
  | .launchStaging _ => false
  | .launchPointRelease _ => false
  | .jobStart _ => false
  | .thermalTrip _ => false
  | .thermalRelease _ => false
  | .podFreeze _ _ => false
  | .freezeBoundary _ => false
  | .partitionResume _ => false
  | .dredgerStep _ => false
  | .dredgerWriteback _ _ => false
  | .timing _ _ => false
  | .deliver _ _ => false
  | .cycslip _ => false
  | .undoWriteback _ => false
  | .handlerEntry _ => false
  | .segmentReentry _ => false
  | .deferredLanding _ => false
  | .tableServiceRequest _ => false
  | .tableEntryWrite _ _ _ _ => false
  | .tableEntryRepair _ _ => false
  | .mapPublication _ _ _ => false
  | .surveyWindow _ _ => false
  | .inServiceSurvey _ _ => false
  | .load _ => false
  | .unload _ => false
  | .start _ => false
  | .endJob _ => false
  | .cancelCommand _ => false
  | .hold _ => false
  | .release _ => false
  | .patch _ => false
  | .attest _ => false
  | .ckpt _ => false
  | .resumeck _ => false
  | .rebind _ => false
  | .freeze _ => false
  | .save _ => false
  | .restore _ => false
  | .resume _ => false
  | .discard _ => false
  | .mbrespClear _ => false
  | .ctxstatClear _ => false
  | .firedClear _ _ => false
  | .launchQueueEnqueue _ _ _ => false
  | .launchQueueEmpty _ _ _ => false
  | .launchQueueFieldWrite _ _ _ => false
  | .repairreq _ _ => false
  | .bistsum _ _ => false
  | .arrayInjectorArm _ _ _ => false
  | .linkInjectorArm _ _ _ => false
  | .systemRegisterWrite _ _ => false
  | .illegal _ _ _ => false
  | .unknownCommandCode _ _ => false
  | .coreLost _ => false
  | .extendService _ _ _ => false
  | .tableServiceAnswer _ _ => false
  | _ => true

/-- Places of R198's rule: S codes 0 to 63, V codes 64 to 127, accumulator tiles 128 to 135. -/
def locS (r : RegField) : Nat := r.toNat
def locV (r : RegField) : Nat := 64 + r.toNat
def locM (k : BitVec 3) : Nat := 64 + 48 + k.toNat
def locT (k : BitVec 3) : Nat := 128 + k.toNat
def locLc (n : BitVec 2) : Nat := 36 + n.toNat
/-- The guard register is read with the slot's other operands (R197). -/
def guardSrc : Md → List Nat
  | none => []
  | some m => if m.gen then [locS m.greg] else []
/-- The lane mask register (R253). -/
def laneSrc : Md → List Nat
  | none => []
  | some m => if m.xf.getLsbD 19 then [locM (m.xf.extractLsb' 16 3)] else []

/-- The registers, masks and tiles a slot names as a destination (R198). -/
def Instr.dests : Instr → List Nat
  | .add d _ _ _ => [locS d]
  | .sub d _ _ _ => [locS d]
  | .mul d _ _ _ => [locS d]
  | .mulh d _ _ _ => [locS d]
  | .mulhn d _ _ _ => [locS d]
  | .div d _ _ _ => [locS d]
  | .divn d _ _ _ => [locS d]
  | .rem d _ _ _ => [locS d]
  | .remn d _ _ _ => [locS d]
  | .minS d _ _ _ => [locS d]
  | .minn d _ _ _ => [locS d]
  | .maxS d _ _ _ => [locS d]
  | .maxn d _ _ _ => [locS d]
  | .slt d _ _ _ => [locS d]
  | .sltn d _ _ _ => [locS d]
  | .seq d _ _ _ => [locS d]
  | .andS d _ _ _ => [locS d]
  | .orS d _ _ _ => [locS d]
  | .xorS d _ _ _ => [locS d]
  | .andn d _ _ _ => [locS d]
  | .shl d _ _ _ => [locS d]
  | .shr d _ _ _ => [locS d]
  | .sar d _ _ _ => [locS d]
  | .sel d _ _ _ => [locS d]
  | .clz d _ _ => [locS d]
  | .ctz d _ _ => [locS d]
  | .popc d _ _ => [locS d]
  | .addi d _ _ => [locS d]
  | .andi d _ _ => [locS d]
  | .ori d _ _ => [locS d]
  | .xori d _ _ => [locS d]
  | .shli d _ _ => [locS d]
  | .shri d _ _ => [locS d]
  | .sari d _ _ => [locS d]
  | .slti d _ _ => [locS d]
  | .sltni d _ _ => [locS d]
  | .li _ d _ => [locS d]
  | .lds _ d _ _ => [locS d]
  | .agen _ d _ _ _ => [locS d]
  | .lcset n _ _ => [locLc n]
  | .call d _ => [locS d]
  | .repeatLoop n _ _ => [locLc n]
  | .sysrd d _ _ => [locS d]
  | .vadd _ d _ _ _ _ => [locV d]
  | .vsub _ d _ _ _ _ => [locV d]
  | .vmul _ d _ _ _ _ => [locV d]
  | .vfma _ d _ _ _ _ => [locV d]
  | .vfms _ d _ _ _ _ => [locV d]
  | .vmin _ d _ _ _ _ => [locV d]
  | .vmax _ d _ _ _ _ => [locV d]
  | .vabs _ d _ _ _ => [locV d]
  | .vneg _ d _ _ _ => [locV d]
  | .vadds _ d _ _ _ _ => [locV d]
  | .vsubs _ d _ _ _ _ => [locV d]
  | .vmulh _ d _ _ _ _ => [locV d]
  | .vcmp _ _ k _ _ _ _ => [locM k]
  | .vsel _ d _ _ _ _ => [locV d]
  | .vand d _ _ _ _ => [locV d]
  | .vor d _ _ _ _ => [locV d]
  | .vxor d _ _ _ _ => [locV d]
  | .vandn d _ _ _ _ => [locV d]
  | .vshl _ d _ _ _ _ => [locV d]
  | .vshr _ d _ _ _ _ => [locV d]
  | .vsar _ d _ _ _ _ => [locV d]
  | .vcvt _ d _ _ _ => [locV d]
  | .vrcp _ d _ _ _ => [locV d]
  | .vrsq _ d _ _ _ => [locV d]
  | .vsqrt _ d _ _ _ => [locV d]
  | .vdiv _ d _ _ _ _ => [locV d]
  | .vexp2 _ d _ _ _ => [locV d]
  | .vlog2 _ d _ _ _ => [locV d]
  | .vred _ d _ _ _ _ => [locV d]
  | .vscan _ d _ _ _ _ => [locV d]
  | .vperm d _ _ _ _ => [locV d]
  | .vshuf _ d _ _ _ _ => [locV d]
  | .vbcast d _ _ _ _ => [locV d]
  | .vsplat _ d _ _ => [locV d]
  | .vlane d _ _ _ _ => [locS d]
  | .vext d _ _ _ _ => [locV d]
  | .vins d _ _ _ => [locV d]
  | .vdot _ d _ _ _ _ => [locV d]
  | .vpack _ d _ _ _ _ => [locV d]
  | .vunpack _ d _ _ _ _ => [locV d]
  | .vld _ d _ _ => [locV d]
  | .vlds _ d _ _ _ => [locV d]
  | .vldg _ d _ _ _ => [locV d]
  | .vmov d _ _ _ => [locV d]
  | .mand d _ _ _ => [locV d]
  | .mor d _ _ _ => [locV d]
  | .mxor d _ _ _ => [locV d]
  | .mnot d _ _ => [locV d]
  | .mpop d _ _ => [locS d]
  | .mfirst d _ _ => [locS d]
  | .vmrd _ d _ _ _ => [locV d]
  | .vmwr t _ _ _ _ => [locT t]
  | .vminn _ d _ _ _ _ => [locV d]
  | .vmaxn _ d _ _ _ _ => [locV d]
  | .vaddsn _ d _ _ _ _ => [locV d]
  | .vsubsn _ d _ _ _ _ => [locV d]
  | .vmulhn _ d _ _ _ _ => [locV d]
  | .vcmpn _ _ k _ _ _ _ => [locM k]
  | .mma _ tl _ _ _ _ _ _ _ => [locT tl]
  | .mmat _ tl _ _ _ _ _ _ _ => [locT tl]
  | .mmag _ tl _ _ _ _ _ _ _ => [locT tl]
  | .mclr _ tl _ => [locT tl]
  | .mload tl _ _ _ _ => [locT tl]
  | .stageRd d _ => [locS d]
  | .atomInt _ d _ _ _ _ => [locS d]
  | .atomOther _ d _ _ _ _ => [locS d]
  | .rld _ _ d _ _ _ => [locS d]
  | .drain d _ _ => [locS d]
  | .ratomInt _ _ d _ opt _ => (if opt.getLsbD 2 then [] else [locS d])
  | .ratomOther op _ d _ opt _ => (if decide (op ≠ 2) && opt.getLsbD 2 then [] else [locS d])
  | .xpack _ d _ _ _ => [locV d]
  | .xunpack _ d _ _ _ => [locV d]
  | .rndpop _ d _ => [locV d]
  | _ => []

/-- The registers, masks and tiles a slot reads (R198). -/
def Instr.srcs : Instr → List Nat
  | .add _ a b m => [locS a, locS b] ++ guardSrc m
  | .sub _ a b m => [locS a, locS b] ++ guardSrc m
  | .mul _ a b m => [locS a, locS b] ++ guardSrc m
  | .mulh _ a b m => [locS a, locS b] ++ guardSrc m
  | .mulhn _ a b m => [locS a, locS b] ++ guardSrc m
  | .div _ a b m => [locS a, locS b] ++ guardSrc m
  | .divn _ a b m => [locS a, locS b] ++ guardSrc m
  | .rem _ a b m => [locS a, locS b] ++ guardSrc m
  | .remn _ a b m => [locS a, locS b] ++ guardSrc m
  | .minS _ a b m => [locS a, locS b] ++ guardSrc m
  | .minn _ a b m => [locS a, locS b] ++ guardSrc m
  | .maxS _ a b m => [locS a, locS b] ++ guardSrc m
  | .maxn _ a b m => [locS a, locS b] ++ guardSrc m
  | .slt _ a b m => [locS a, locS b] ++ guardSrc m
  | .sltn _ a b m => [locS a, locS b] ++ guardSrc m
  | .seq _ a b m => [locS a, locS b] ++ guardSrc m
  | .andS _ a b m => [locS a, locS b] ++ guardSrc m
  | .orS _ a b m => [locS a, locS b] ++ guardSrc m
  | .xorS _ a b m => [locS a, locS b] ++ guardSrc m
  | .andn _ a b m => [locS a, locS b] ++ guardSrc m
  | .shl _ a b m => [locS a, locS b] ++ guardSrc m
  | .shr _ a b m => [locS a, locS b] ++ guardSrc m
  | .sar _ a b m => [locS a, locS b] ++ guardSrc m
  | .sel d a b m => [locS d, locS a, locS b] ++ guardSrc m
  | .clz _ a m => [locS a] ++ guardSrc m
  | .ctz _ a m => [locS a] ++ guardSrc m
  | .popc _ a m => [locS a] ++ guardSrc m
  | .addi _ a _ => [locS a]
  | .andi _ a _ => [locS a]
  | .ori _ a _ => [locS a]
  | .xori _ a _ => [locS a]
  | .shli _ a _ => [locS a]
  | .shri _ a _ => [locS a]
  | .sari _ a _ => [locS a]
  | .slti _ a _ => [locS a]
  | .sltni _ a _ => [locS a]
  | .lds _ _ r _ => [locS r]
  | .sts _ d r _ => [locS d, locS r]
  | .agen n _ a b m => [locLc n, locS a, locS b] ++ guardSrc m
  | .lcset _ a _ => [locS a]
  | .brc _ a _ => [locS a]
  | .ret a => [locS a]
  | .repeatLoop n a _ => [locLc n, locS a]
  | .rdvBar _ _ a b => [locS a, locS b]
  | .rdvWm _ _ a b => [locS a, locS b]
  | .rdvCmt _ _ a b => [locS a, locS b]
  | .trap _ a _ => [locS a]
  | .sysrd _ a _ => [locS a]
  | .syswr d a _ => [locS d, locS a]
  | .cancel _ a _ => [locS a]
  | .winv a b m => [locS a, locS b] ++ guardSrc m
  | .vadd _ _ a b _ m => [locV a, locV b] ++ laneSrc m ++ guardSrc m
  | .vsub _ _ a b _ m => [locV a, locV b] ++ laneSrc m ++ guardSrc m
  | .vmul _ _ a b _ m => [locV a, locV b] ++ laneSrc m ++ guardSrc m
  | .vfma _ d a b _ m => [locV d, locV a, locV b] ++ laneSrc m ++ guardSrc m
  | .vfms _ d a b _ m => [locV d, locV a, locV b] ++ laneSrc m ++ guardSrc m
  | .vmin _ _ a b _ m => [locV a, locV b] ++ laneSrc m ++ guardSrc m
  | .vmax _ _ a b _ m => [locV a, locV b] ++ laneSrc m ++ guardSrc m
  | .vabs _ _ a _ m => [locV a] ++ laneSrc m ++ guardSrc m
  | .vneg _ _ a _ m => [locV a] ++ laneSrc m ++ guardSrc m
  | .vadds _ _ a b _ m => [locV a, locV b] ++ laneSrc m ++ guardSrc m
  | .vsubs _ _ a b _ m => [locV a, locV b] ++ laneSrc m ++ guardSrc m
  | .vmulh _ _ a b _ m => [locV a, locV b] ++ laneSrc m ++ guardSrc m
  | .vcmp _ _ _ a b _ m => [locV a, locV b] ++ laneSrc m ++ guardSrc m
  | .vsel f _ a b _ m => [locM f, locV a, locV b] ++ laneSrc m ++ guardSrc m
  | .vand _ a b _ m => [locV a, locV b] ++ laneSrc m ++ guardSrc m
  | .vor _ a b _ m => [locV a, locV b] ++ laneSrc m ++ guardSrc m
  | .vxor _ a b _ m => [locV a, locV b] ++ laneSrc m ++ guardSrc m
  | .vandn _ a b _ m => [locV a, locV b] ++ laneSrc m ++ guardSrc m
  | .vshl _ _ a b _ m => [locV a, locV b] ++ laneSrc m ++ guardSrc m
  | .vshr _ _ a b _ m => [locV a, locV b] ++ laneSrc m ++ guardSrc m
  | .vsar _ _ a b _ m => [locV a, locV b] ++ laneSrc m ++ guardSrc m
  | .vcvt _ _ a _ m => [locV a] ++ laneSrc m ++ guardSrc m
  | .vrcp _ _ a _ m => [locV a] ++ laneSrc m ++ guardSrc m
  | .vrsq _ _ a _ m => [locV a] ++ laneSrc m ++ guardSrc m
  | .vsqrt _ _ a _ m => [locV a] ++ laneSrc m ++ guardSrc m
  | .vdiv _ _ a b _ m => [locV a, locV b] ++ laneSrc m ++ guardSrc m
  | .vexp2 _ _ a _ m => [locV a] ++ laneSrc m ++ guardSrc m
  | .vlog2 _ _ a _ m => [locV a] ++ laneSrc m ++ guardSrc m
  | .vred _ _ a _ _ m => [locV a] ++ laneSrc m ++ guardSrc m
  | .vscan _ _ a _ _ m => [locV a] ++ laneSrc m ++ guardSrc m
  | .vperm _ a b _ m => [locV a, locV b] ++ laneSrc m ++ guardSrc m
  | .vshuf f _ a b _ m => (if f.toNat = 4 then [locV a] else [locV a, locV b]) ++ laneSrc m ++ guardSrc m
  | .vbcast _ a b _ m => [locV a, locS b] ++ laneSrc m ++ guardSrc m
  | .vsplat _ _ a _ => [locS a]
  | .vlane _ a b _ m => [locV a, locS b] ++ laneSrc m ++ guardSrc m
  | .vext _ a b _ m => [locV a, locV b] ++ laneSrc m ++ guardSrc m
  | .vins _ a b m => [locS a, locS b] ++ laneSrc m ++ guardSrc m
  | .vdot _ d a b _ m => [locV d, locV a, locV b] ++ laneSrc m ++ guardSrc m
  | .vpack _ _ a b _ m => [locV a, locV b] ++ laneSrc m ++ guardSrc m
  | .vunpack _ _ a _ _ m => [locV a] ++ laneSrc m ++ guardSrc m
  | .vld _ _ r _ => [locS r]
  | .vlds _ _ a b m => [locS a, locS b] ++ laneSrc m ++ guardSrc m
  | .vldg _ _ a b m => [locS a, locV b] ++ laneSrc m ++ guardSrc m
  | .vst _ d r _ => [locV d, locS r]
  | .vsts _ d a b m => [locV d, locS a, locS b] ++ laneSrc m ++ guardSrc m
  | .vstx _ d a b m => [locV d, locS a, locV b] ++ laneSrc m ++ guardSrc m
  | .vstm _ d a b m => [locV d, locS a, locS b] ++ laneSrc m ++ guardSrc m
  | .vmov _ a _ m => [locV a] ++ laneSrc m ++ guardSrc m
  | .mand _ a b m => [locV a, locV b] ++ laneSrc m ++ guardSrc m
  | .mor _ a b m => [locV a, locV b] ++ laneSrc m ++ guardSrc m
  | .mxor _ a b m => [locV a, locV b] ++ laneSrc m ++ guardSrc m
  | .mnot _ a m => [locV a] ++ laneSrc m ++ guardSrc m
  | .mpop _ a m => [locV a] ++ laneSrc m ++ guardSrc m
  | .mfirst _ a m => [locV a] ++ laneSrc m ++ guardSrc m
  | .vmrd t _ a _ m => [locT t, locS a] ++ laneSrc m ++ guardSrc m
  | .vmwr _ d a _ m => [locV d, locS a] ++ laneSrc m ++ guardSrc m
  | .vminn _ _ a b _ m => [locV a, locV b] ++ laneSrc m ++ guardSrc m
  | .vmaxn _ _ a b _ m => [locV a, locV b] ++ laneSrc m ++ guardSrc m
  | .vaddsn _ _ a b _ m => [locV a, locV b] ++ laneSrc m ++ guardSrc m
  | .vsubsn _ _ a b _ m => [locV a, locV b] ++ laneSrc m ++ guardSrc m
  | .vmulhn _ _ a b _ m => [locV a, locV b] ++ laneSrc m ++ guardSrc m
  | .vcmpn _ _ _ a b _ m => [locV a, locV b] ++ laneSrc m ++ guardSrc m
  | .mma _ tl _ z _ a b _ m => [locS a, locS b] ++ (if z then [] else [locT tl]) ++ guardSrc m
  | .mmat _ tl _ z _ a b _ m => [locS a, locS b] ++ (if z then [] else [locT tl]) ++ guardSrc m
  | .mmag _ tl _ z _ a b _ m => [locS a, locS b] ++ (if z then [] else [locT tl]) ++ guardSrc (some m)
  | .mclr _ _ m => [] ++ guardSrc m
  | .mchk tl _ m => [locT tl] ++ guardSrc m
  | .mchkSp a m => [locS a] ++ guardSrc m
  | .mmarg a b m => [locS a, locS b] ++ guardSrc m
  | .mload _ _ _ a m => [locS a] ++ guardSrc m
  | .mout _ tl _ _ a b m => [locT tl, locS a, locS b] ++ guardSrc m
  | .cpy _ _ d a _ m => [locS d, locS a] ++ guardSrc m
  | .cpys _ _ d a _ m => [locS d, locS a] ++ guardSrc m
  | .cpym _ d a _ m => [locS d, locS a] ++ [locM (m.xf.extractLsb' 0 3)] ++ guardSrc (some m)
  | .cpyt _ _ d a m => [locS d, locS a] ++ guardSrc (some m)
  | .code _ _ d a _ m => [locS d, locS a] ++ guardSrc m
  | .hcpy _ _ d a _ m => [locS d, locS a] ++ guardSrc m
  | .stageRd _ m => [] ++ guardSrc m
  | .stageSet a m => [locS a] ++ guardSrc m
  | .bara _ a m => [locS a] ++ guardSrc m
  | .atomInt _ _ a b _ m => [locS a, locS b] ++ guardSrc m
  | .atomOther _ d a b _ m => [locS d, locS a, locS b] ++ guardSrc m
  | .send _ _ a _ m => [locS a] ++ guardSrc m
  | .recv _ a m => [locS a] ++ guardSrc m
  | .rld _ _ _ a _ m => [locS a] ++ guardSrc m
  | .rst _ _ d a _ m => [locS d, locS a] ++ guardSrc m
  | .rred _ _ d a m => [locS d, locS a] ++ guardSrc m
  | .rrel _ m => [] ++ guardSrc m
  | .rrelAll m => [] ++ guardSrc m
  | .bcst _ d a _ m => [locS d, locS a] ++ guardSrc m
  | .drain _ _ m => [] ++ guardSrc m
  | .ratomInt _ _ d a _ m => [locS d, locS a] ++ guardSrc m
  | .ratomOther op _ d a _ m => [locS d, locS a] ++ (if op = 2 then [locS (d + 1)] else []) ++ guardSrc m
  | .scl _ r _ => [locS r]
  | .sclv _ a m => [locV a] ++ guardSrc m
  | .xpack _ d a _ m => [locV d, locV a] ++ guardSrc m
  | .xunpack _ _ a _ m => [locV a] ++ guardSrc m
  | .rndpop _ _ m => [] ++ guardSrc m
  | .rndseed a m => [locS a] ++ guardSrc m
  | _ => []

/-- The encoding of an instruction: its slot word and its K slots. E is set in the last of them when the
instruction is the last of its bundle (R187, R188). -/
def setLast (last : Bool) : List Nat → List SlotWord
  | [] => []
  | [w] => [BitVec.ofNat 32 (w + b2n last * 2 ^ 31)]
  | w :: ws => BitVec.ofNat 32 w :: setLast last ws

/-- A K slot with payload `p` (R195). -/
def kWord (p : Nat) : Nat := 6 * 2 ^ 28 + p

def encode (last : Bool) (i : Instr) : List SlotWord :=
  setLast last (i.enc.1 :: i.enc.2.map kWord)

def SlotWord.e (w : SlotWord) : Bool := w.getLsbD 31
def SlotWord.cls (w : SlotWord) : Nat := w.toNat / 2 ^ 28 % 8
def SlotWord.payload (w : SlotWord) : Nat := w.toNat % 2 ^ 28

/-- The payloads of the K slots at the head of a list, up to one whose E is 1: payloads, whether E ended the
bundle, and the words left. -/
def takeK : List SlotWord → List Nat × Bool × List SlotWord
  | [] => ([], false, [])
  | w :: ws =>
    if SlotWord.cls w = 6 then
      if SlotWord.e w then ([SlotWord.payload w], true, ws)
      else
        let r := takeK ws
        (SlotWord.payload w :: r.1, r.2.1, r.2.2)
    else ([], false, w :: ws)

/-- One slot and its K slots from a list of words: the instruction, whether it ends the bundle, the words left. -/
def decodeWords (ws : List SlotWord) : Except Nat (Instr × Bool × List SlotWord) :=
  match ws with
  | [] => .error 4
  | w :: rest =>
    let k : List Nat × Bool × List SlotWord := if SlotWord.e w then ([], true, rest) else takeK rest
    match decodeSlot w.toNat k.1 with
    | .ok i => .ok (i, k.2.1, k.2.2)
    | .error e => .error e

/-! ### Bundles -/

/-- The slot position of FREC0.SLOT (R356): 0 S, 1 and 2 V, 3 M, 4 L, 5 Q, 6 X, 7 none. -/
def posOf (cls : Nat) (seenV : Bool) : Nat :=
  match cls with
  | 0 => 0
  | 1 => if seenV then 2 else 1
  | 2 => 3
  | 3 => 4
  | 4 => 5
  | 5 => 6
  | _ => 7

/-- The words of a bundle: up to and including the first whose E is 1, at most eight (R188). -/
def cutBundle : Nat → List SlotWord → Option (List SlotWord)
  | 0, _ => none
  | _ + 1, [] => none
  | n + 1, w :: ws => if SlotWord.e w then some [w] else (cutBundle n ws).map (w :: ·)

/-- One slot of a bundle with its position and K payloads. -/
structure RawSlot where
  pos : Nat
  word : Nat
  ks : List Nat
  deriving DecidableEq, Repr

/-- Grouping a bundle's words into slots with their K slots (R189, R195). A K slot that leads the bundle belongs
to no slot. The first argument bounds the recursion. -/
def groupSlots : Nat → Bool → List SlotWord → Except (Nat × Nat) (List RawSlot)
  | 0, _, _ => .error (4, 7)
  | _ + 1, _, [] => .ok []
  | n + 1, seenV, w :: ws =>
    if SlotWord.cls w = 6 then .error (5, 7)
    else
      let k : List Nat × Bool × List SlotWord := if SlotWord.e w then ([], true, ws) else takeK ws
      match groupSlots n (seenV || SlotWord.cls w == 1) k.2.2 with
      | .error e => .error e
      | .ok l => .ok ({ pos := posOf (SlotWord.cls w) seenV, word := w.toNat, ks := k.1 } :: l)

/-- The slots of a bundle rise in the order S, V, V, M, L, Q, X, each position at most once (R189). -/
def risingPos : List Nat → Bool
  | a :: b :: l => decide (a < b) && risingPos (b :: l)
  | _ => true

/-- Decoding the slots of a bundle, the first that is not an instruction named (R199, R355). -/
def decodeAll : List RawSlot → Except (Nat × Nat) (List (Nat × Instr))
  | [] => .ok []
  | r :: l =>
    match decodeSlot r.word r.ks with
    | .error e => .error (e, r.pos)
    | .ok i =>
      match decodeAll l with
      | .error e => .error e
      | .ok is => .ok ((r.pos, i) :: is)

/-- Do two slots of one bundle conflict (R198)? Destination zero (code 32) is exempt. -/
def slotsConflict (i j : Instr) : Bool :=
  (i.dests.any fun d => d != 32 && (j.dests.contains d || j.srcs.contains d))
    || (j.dests.any fun d => d != 32 && i.srcs.contains d)

/-- The position of the first slot that conflicts with an earlier one (R198). -/
def firstConflict : List (Nat × Instr) → List (Nat × Instr) → Option Nat
  | _, [] => none
  | earlier, (p, i) :: l =>
    if earlier.any fun q => slotsConflict q.2 i then some p else firstConflict (earlier ++ [(p, i)]) l

def Instr.isMoor : Instr → Bool
  | .moor _ _ _ _ _ _ => true
  | _ => false

/-- A decoded bundle: its slots in order with their positions, and how many words it has. -/
structure Bundle where
  slots : List (Nat × Instr)
  nwords : Nat
  words : List SlotWord
  deriving DecidableEq, Repr

/-- The bundle that the words at an address begin with, or the ILLEGAL subclass and slot position (R188 to R199,
R354). Words beyond the end of the code window are not in the list. DESIGN CHOICE (log entry 56): of a bundle that breaks several
clauses the subclass is that of the first broken in the order of the tests here (a K slot with no slot before it, the order and
length of the bundle, its slots, a mooring slot not alone, a conflict), where R354 gives no order. -/
def decodeBundle (ws : List SlotWord) : Except (Nat × Nat) Bundle :=
  match cutBundle 8 ws with
  | none => .error (4, 7)
  | some b =>
    match groupSlots 9 false b with
    | .error e => .error e
    | .ok raw =>
      let hasW := raw.any fun r => r.pos == 7
      if hasW && decide (b.length ≠ 1) then .error (4, 7)
      else if !risingPos (raw.map (·.pos)) then .error (4, 7)
      else
        match decodeAll raw with
        | .error e => .error e
        | .ok is =>
          if (is.any fun q => q.2.isMoor) && decide (is.length ≠ 1) then .error (8, 0)
          else
            match firstConflict [] is with
            | some p => .error (6, p)
            | none => .ok { slots := is, nwords := b.length, words := b }

/-- The instruction the decoder reads from a table word (`nbits` bits of it given, the operand words zero): the
slot word, and the K slots it cannot do without, with zero payload (R195, R288, R310). -/
def operandKs (w : Nat) : List Nat :=
  let x := fieldsOf w
  if x.cls = 0 ∧ x.opc = 0x2F then [0, 0, 0]
  else if (x.cls = 2 ∧ x.opc = 2) ∨ (x.cls = 3 ∧ (x.opc = 2 ∨ x.opc = 3)) then [0]
  else []

/-- The slot words a table word stands for: E of the slot is framing, so the last word of the group ends the
bundle whatever E the table word has (R187). A W slot's E is 1 (R190). -/
def tableWords (nbits w : Nat) : List SlotWord :=
  let v := w % 2 ^ nbits % 2 ^ 31
  setLast true (v :: (operandKs v).map kWord)

/-- The instruction the decoder reads from a table word. -/
def decodeTableWord (nbits w : Nat) : Option Instr :=
  match decodeWords (tableWords nbits w) with
  | .ok (i, _, _) => some i
  | .error _ => none

end Sys2Proof
end

