-- ==== Sys2Proof/Config.lean ====
section
/-! DEFINITION. What an implementation fixes and the specification leaves open. The constants without a body are free
values: nothing in Lean can evaluate them, so a claim holds whatever they are. -/

namespace Sys2Proof

/-- Free values (see the assumption log): the n-th value the machine takes where the specification names none. -/
opaque Config.freeWord : Nat → BitVec 64
/-- A free vector register. -/
opaque Config.freeVec : Nat → BitVec 2048
/-- SM3 of a byte string, named and not defined by R42, R343, R344, R346, R441. -/
opaque Config.sm3 : List (BitVec 8) → BitVec 256
/-- The SM2 signature of a digest by the identity key of die layer `k`, with the specimen identifier as the signer identifier
(R42, R345, R346). -/
opaque Config.sm2Sign : Nat → BitVec 64 → BitVec 256 → BitVec 512
/-- The identity public key of die layer `k` and its vendor endorsement (R345, R346). -/
opaque Config.sm2Key : Nat → BitVec 512
opaque Config.sm2Endorsement : Nat → BitVec 512
/-- The hypervisor image and the measurement firmware image that the boot store holds, as digests (R343, R344). -/
opaque Config.hypervisorDigest : BitVec 256
opaque Config.firmwareDigest : BitVec 256
/-- The digest of the system image a partition boots (R340, R344). -/
opaque Config.systemImageDigest : Nat → BitVec 256
/-- Cycles from a request posted at the host port to the arrival of its data at the core (R317). -/
opaque Config.hostLatency : Nat → Nat
/-- Cycles that a commit sent again by the control lanes takes, within its bound (R425). -/
opaque Config.controlLanes : Nat → Nat
/-- Package cycles that a SAVE or RESTORE takes, below its bound (R433, R434), and that a system image takes to boot
(R340). -/
opaque Config.contextTime : Nat → Nat
opaque Config.bootTime : Nat → Nat
/-- Package cycles that a survey of one die layer takes, below its bound (R347). -/
opaque Config.surveyTime : Nat → Nat
/-- The order in which the bytes of a snapshot's state area stand (R432): the device fixes it. -/
opaque Config.stateAreaByte : Nat → BitVec 8
end Sys2Proof
end

