-- ==== Sys2Proof/Machine/Tab.lean ====
section
/-! DEFINITION. Finite tables in one canonical form: a list of key and value pairs with keys strictly rising and no
pair whose value is the key's default. Memory, register files and register maps are such tables. -/

namespace Sys2Proof.Machine

/-- A table: keys strictly rising, no default entry (see `tabWf`). -/
abbrev Tab (α : Type) := List (Nat × α)

/-- The value at a key; an unlisted key has its default. -/
def tabGet {α : Type} (d : Nat → α) : Tab α → Nat → α
  | [], k => d k
  | (k', v) :: t, k => if k' = k then v else tabGet d t k

/-- The table without a key. -/
def tabDel {α : Type} (t : Tab α) (k : Nat) : Tab α := t.filter (fun e => decide (e.1 ≠ k))

/-- Insertion of a pair before the first larger key. -/
def tabIns {α : Type} (k : Nat) (v : α) : Tab α → Tab α
  | [] => [(k, v)]
  | (k', v') :: t => if k < k' then (k, v) :: (k', v') :: t else (k', v') :: tabIns k v t

/-- Writing a key: the default removes the entry. -/
def tabSet {α : Type} [DecidableEq α] (d : Nat → α) (t : Tab α) (k : Nat) (v : α) : Tab α :=
  if v = d k then tabDel t k else tabIns k v (tabDel t k)

/-- The canonical form: keys strictly rising, no entry equal to its default. -/
abbrev tabWf {α : Type} (d : Nat → α) (t : Tab α) : Prop :=
  t.Pairwise (fun a b => a.1 < b.1) ∧ ∀ e ∈ t, e.2 ≠ d e.1

/-- Writing several keys in order. -/
def tabSetAll {α : Type} [DecidableEq α] (d : Nat → α) (t : Tab α) (l : List (Nat × α)) : Tab α :=
  l.foldl (fun t e => tabSet d t e.1 e.2) t

/-- The zero default. -/
def zeroAt {w : Nat} (_ : Nat) : BitVec w := 0#w

end Sys2Proof.Machine
end

