-- ==== Sys2Proof/Machine/State.lean ====
section
/-! DEFINITION. The state of the machine, as plain data, and the state after reset. Cores are named by
`g = package × 512 + core index` (a control core has index 384 + die layer), partitions by `p = package × 8 + index`,
die layers by `k = package × 8 + layer`. All cycles of a partition are counts of its tide counter. -/

namespace Sys2Proof.Machine

/-- Why the machine stops: no reason exists. An address, a unit or an operation that the spec refuses is answered by the
fault record, the response code or the discard the spec gives it, and an event whose flit, transfer or operation is gone
changes nothing. Safe: nothing is claimed of a stop. -/
inductive Fault where
  deriving DecidableEq, Repr

/-- Why an instruction has no meaning here. -/
inductive Refusal where
  /-- Raised by an arm of `exec` that is not written yet. Safe: nothing is claimed of it. -/
  | notModelled (mnemonic : String)
  deriving DecidableEq, Repr

/-! ### The state of one core -/

/-- The Chamois generator (R124). -/
structure Chamois where
  key : Word
  n : Word
  queue : List (BitVec 1024)
  seeded : Bool
  deriving DecidableEq, Repr

/-- One line of the reduction buffer (R328): key and full elements (index and value, in ascending address). -/
structure RedLine where
  route : Nat
  line : Nat
  var : Nat
  elems : List (Nat × Word)
  deriving DecidableEq, Repr

/-- What a mooring bundle shadows and a rollback restores (R57, R359). `bad` holds the bad bits of its protected words
(R396 to R398), keyed by array code × 2^24 + word: 0 none, 1 + b one bad bit b, 1000 poisoned. A scalar register has two
words, its halves, and so has a mask register (R160). -/
structure Live where
  s : Tab Word
  v : Tab VReg
  m : Tab Word
  hold : Tab VReg
  lc : Tab (BitVec 32)
  acc : Tab Word
  dir : Tab Word
  marg : Tab (BitVec 32)
  rnd : Chamois
  stage : BitVec 32
  red : List RedLine
  bad : Tab Nat
  deriving DecidableEq, Repr

/-- The default of directory entry `e` (R147): an empty entry, or the f64 entry of an accumulator. -/
def dirDefault (e : Nat) : Word :=
  if e < 8 then BitVec.ofNat 64 (1 + 13 * 2 + 32 + 64 * 64 + 64 * 8192) else BitVec.ofNat 64 (32 + 64 * 64 + 64 * 8192)

/-- The state HALT leaves for the next unit (R47), which is also the model's reset value of the registers. -/
def Live.empty : Live :=
  { s := [], v := [], m := [], hold := [], lc := [], acc := [], dir := [], marg := []
    rnd := ⟨0, 0, [], false⟩, stage := 0, red := [], bad := [] }

/-- Where an operation of a pass came from: what a rollback discards and a fault record names. -/
structure Src where
  core : Nat
  serial : Nat
  /-- stretch class of R30, for TIMING (R354) -/
  cls : Nat
  slot : Nat
  bundle : Nat
  cmd : Nat
  issued : Nat
  deriving DecidableEq, Repr

/-- A pass instance (R362). `serial` separates instances that the four values of R362 do not. -/
structure PassId where
  core : Nat
  vid : Nat
  seg : Nat
  redo : Nat
  serial : Nat
  deriving DecidableEq, Repr

/-- One entry of the undo log (R360): the line's offset, its 64 bytes, its tag, and its words' bad bits. -/
structure UndoEntry where
  off : Nat
  bytes : BitVec 512
  tag : Nat
  bad : List (Nat × Nat)
  deriving DecidableEq, Repr

/-- Which bundle follows a final bundle (R59). -/
inductive Next where
  | seqNext
  | goto (off : Nat)
  | repeatSeg (lc : Nat)
  | haltUnit
  | handlerEnd (resync : Bool)
  deriving DecidableEq, Repr

/-- A hop of a route (R33): unit state table entry of the link with its package (× 4,096), direction, latency. -/
structure Hop where
  unit : Nat
  dir : Bool
  lat : Nat
  deriving DecidableEq, Repr

/-- A home that received a staged write of the pass (R172, R424): the records each write makes there, and the route. -/
structure HomeRec where
  home : Nat
  nrec : Nat
  /-- number of the first such operation, and its command ordinal -/
  opno : Nat
  cmd : Nat
  lout : Nat
  lback : Nat
  path : List Hop
  deriving DecidableEq, Repr

/-- A matrix operation in flight (R279). `kind`: 0 multiply, 1 MCLR, 2 MLOAD, 3 MOUT, 4 MMARG, 5 MCHK, 6 MCHK.sp, 7 the
stream of B that a gang's leader sends (R290, R448). -/
structure MOp where
  id : Nat
  kind : Nat
  src : Src
  /-- of a share of an MMAG: the leader's core, the member's number, and the stream's `id`; else none -/
  gang : Option (Nat × Nat × Nat)
  guard : Bool
  c : Nat
  p : Nat
  st : Nat
  /-- operand format of a multiply, else the tile format read or written -/
  fmt : Nat
  tile : Nat
  rm : Nat
  mat : Bool
  t : Bool
  z : Bool
  chk : Bool
  sc : Bool
  /-- grid columns of a gang (R288); 1 otherwise -/
  cols : Nat
  /-- the operation whose running sum this one continues (R84) -/
  chained : Option Nat
  aOff : Nat
  bOff : Nat
  /-- directory entry named, and the filled rows and columns it reads or sets -/
  entry : Nat
  nrow : Nat
  ncol : Nat
  /-- declarations taken at issue (R278, R285): operand (0 A, 1 B, 2 B checked by the leader), sub-tile, entry, its word,
  its margin slot when MST = 1 -/
  decls : List (Nat × Nat × Nat × Word × List (BitVec 32))
  /-- lines of A (or of the tile read) and of B as read -/
  aLines : Tab (BitVec 512)
  bLines : Tab (BitVec 512)
  /-- scale rows as read (R284) -/
  scales : Tab (BitVec 512)
  /-- cells the sum starts from, or cells MOUT has read -/
  cells : Tab Word
  /-- margins and companions the prediction starts from (R286, R383) -/
  margs : List Nat × List Nat
  mu : List Nat × List Nat
  /-- the running sum after this operation -/
  sum : Tab Word
  /-- w(k) as streamed, and the flits of it that have arrived (R448) -/
  wIn : Tab Nat
  wHave : List Nat
  /-- barrier word of a ganged multiply (R292), and the gang's members: core, number, skew -/
  bar : Option Nat
  members : List (Nat × Nat × Nat)
  /-- entries whose filled region was written since issue (R285); rows of the tile read since Lr, 64 for all (R391) -/
  dirty : List Nat
  seen : List Nat
  /-- an operand is missing: TIMING at Lr (R377); a share run again from the gang buffer (R365) -/
  late : Bool
  redone : Bool
  deriving DecidableEq, Repr

/-- The pass being run (R51 to R60, R360, R362, R365). -/
structure Pass where
  id : PassId
  /-- mooring bundle: its offset and its issue cycle -/
  off : Nat
  m : Nat
  /-- cycles held at rendezvous and after horizon completions (R54) -/
  held : Nat
  c : Nat
  sig : BitVec 32
  crc : BitVec 32
  budget : Nat
  safe : Bool
  lines : List Nat
  undo : List UndoEntry
  /-- L, Q and M operations issued (R356, CMD) -/
  engines : Nat
  hcpys : Nat
  /-- HCPY slots of the redone pass that act as guard-false (R365) -/
  hcpySkip : Nat
  homes : List HomeRec
  /-- the control slot's choice; none before the final bundle -/
  next : Option Next
  /-- link or coordinate to land when the next mooring bundle issues (R220) -/
  atMoor : List Landing
  /-- member shares begun in the instance (R365): the offset in the pass, and the share as it started -/
  shares : List (Nat × MOp)
  /-- streams of MMAGs the instance issued; those a redone pass issues again without streaming; and those whose
  completion adds this core has made (R365) -/
  mmags : List Nat
  mmagSkip : List Nat
  added : List Nat
  deriving DecidableEq, Repr

/-- No pass. -/
def Pass.none : Pass :=
  { id := ⟨0, 0, 0, 0, 0⟩, off := 0, m := 0, held := 0, c := 0, sig := 0, crc := 0, budget := 0, safe := false
    lines := [], undo := [], engines := 0, hcpys := 0, hcpySkip := 0, homes := [], next := Option.none, atMoor := []
    shares := [], mmags := [], mmagSkip := [], added := [] }

/-- What a core is doing. -/
inductive Run where
  | idle
  | running
  /-- held at rendezvous instance `r` since cycle `a` (R64) -/
  | held (r a : Nat)
  /-- rolling back, until the handler's entry (R361) -/
  | rolling
  /-- between RETT or RESYNC and the re-entry (R369, R370, R411) -/
  | reenter (resync : Bool) (c : Nat)
  /-- holding one tide after a horizon completion (R420) -/
  | horizon
  /-- stopped (R373) -/
  | stopped
  /-- its berth list has ended or was abandoned, in-flight work still landing (R74) -/
  | ending
  deriving DecidableEq, Repr

/-- A fault that was detected, as its record (R354 to R357). -/
structure FaultRec where
  cls : Nat
  sub : Nat
  slot : Nat
  bundle : Nat
  cmd : Nat
  extent : Nat
  piece : Nat
  addr : Nat
  detail : Word
  deriving DecidableEq, Repr

/-- A record of the landing zone (R170, R364): the line's prior bytes and tag, or the operand of a merge with the
line's merge base. -/
structure Zone where
  inst : PassId
  line : Nat
  prior : BitVec 512
  priorTag : Nat
  /-- bad words of the prior contents (R398) -/
  bad : List (Nat × Nat)
  /-- a merge: operation code, width, offset and operand; `none` for a plain write or RMW -/
  merge : Option (Nat × Nat × Nat × Word)
  /-- of a merge, is its operand in the line already? -/
  built : Bool
  order : Nat
  deriving DecidableEq, Repr

/-- What a notice names (R417): the issuing core, the operation's instance, its number at that core (16 times its issue cycle,
and 8 in the L slot, 9 in the Q slot, 15 for a gang's stream), its command ordinal, its piece and its home; `wr`: it is a write or RMW, which a DRAIN reports (R420). -/
structure OpRef where
  core : Nat
  inst : PassId
  opno : Nat
  cmd : Nat
  piece : Nat
  home : Nat
  wr : Bool
  deriving DecidableEq, Repr

/-- What a flit carries (R170, R172, R323 to R329, R363, R448). Poisoned bytes are named beside the bytes. -/
inductive Load where
  /-- bytes at offsets of a slice, or at addresses of main memory; `except` names the entry a CPYT carries -/
  | write (ws : List (Nat × Byte)) (bad : List Nat) (except : Option Nat)
  /-- line `l` of a SEND to receive slot `n` -/
  | slot (n l : Nat) (bs : List Byte) (bad : List Nat)
  /-- piece `k` of transfer `op`, on its way to the issuing core or to a stack -/
  | piece (op k : Nat) (bs : List Byte) (bad : List Nat)
  | merge (op w : Nat) (elems : List (Nat × Word))
  /-- a request for `w` bytes, and the number of the result that waits for them -/
  | readReq (addr w sq : Nat)
  | atom (addr op w : Nat) (x y : Word) (sq : Option Nat)
  | reply (sq : Nat) (x : Word) (bad : Bool)
  | commit (inst : PassId) (nrec : Nat)
  | recall (inst : PassId)
  /-- a B line of a ganged multiply on its way to member share `op` of core `g` (R290) -/
  | stream (g op off : Nat) (bytes : List Byte)
  deriving DecidableEq, Repr

/-- A flit on its way (R414 to R417). `st`: 0 travelling, 1 lost, 2 dead link, 3 payload poisoned, 4 delayed past its
landing. `home` is a core, or for a stack 2^20 + package × 8 + stack; `lead` is the flit whose journey it shares (R327);
`ref` is what a notice about it names, none where that operation is cancelled (R361); `lanes`: it is a commit sent again by
the control lanes (R425). -/
structure Flit where
  id : Nat
  lead : Nat
  core : Nat
  home : Nat
  inst : PassId
  ref : Option OpRef
  lanes : Bool
  tag : Nat
  dep : Nat
  land : Nat
  lback : Nat
  path : List Hop
  st : Nat
  src : Option Src
  load : Load
  deriving DecidableEq, Repr

/-- A notice (R417): what it names, its reason (0 LOST, 1 DEAD, 2 REFUSED, 3 LATE, 4 INCOMPLETE), and a commit to send
again. -/
structure Notice where
  id : Nat
  ref : OpRef
  reason : Nat
  resend : Option Flit
  deriving DecidableEq, Repr

/-- A queued access of the host or a control core to a core's scratchpad (R97). -/
inductive Svc where
  /-- a piece of HCPY operation `op` (R317) -/
  | hcpy (op k : Nat)
  /-- write of bytes at a slice offset, by staging (`staging`) or a control core, with the owner tag -/
  | write (off : Nat) (bytes : List Byte) (tag : Nat) (staging : Bool)
  /-- a control core's 8-byte read into its register -/
  | read (off : Nat) (cc reg : Nat)
  deriving DecidableEq, Repr

/-- A port already taken in a cycle (R378). `port`: 0 scratchpad read, 1 scratchpad write, 2 read port held by a matrix
operation, 3 bank-ALU read, 4 vector bank write, 5 scalar file landing, 6 mask file landing, 7 scratchpad write of a
lighter's landing, 8 scratchpad write of the core's own bank-ALU operation (`line` holds its offset × 16 + width). -/
structure Resv where
  port : Nat
  bank : Nat
  line : Nat
  cyc : Nat
  serial : Nat
  deriving DecidableEq, Repr

/-- A rollback in progress (R361, R367 to R370, R375, R461). -/
structure Roll where
  /-- cycle of detection, rank of the recorded fault in R355, its slot -/
  d : Nat
  rank : Nat
  slot : Nat
  /-- undo entries at `d` -/
  k : Nat
  /-- the faulted pass, as its entry -/
  pass : Pass
  deriving DecidableEq, Repr

/-- A unit record of a checkpoint (R441). -/
structure CkUnit where
  vid : Nat
  s : Tab Word
  lc : Tab (BitVec 32)
  extents : List (Nat × List Byte)
  deriving DecidableEq, Repr

/-- A core: its architectural state, its sequencer and the buffers of R103, R104, R170. -/
structure Core where
  live : Live
  shadow : Live
  shadow2 : Live
  code : Tab (BitVec 32)
  codeValid : Tab Bool
  /-- bad bits of the code window by 64-bit word (R160) -/
  codeBad : Tab Nat
  scale : Tab (BitVec 512)
  /-- system registers by index (R246, R306, R307, R356, R358, R392, R399, R402 to R404, R410, R421, R422, R455) -/
  sys : Tab Word
  recv : Tab (BitVec 64)
  pc : Nat
  run : Run
  vid : Nat
  nvc : Nat
  /-- launch being run: queue entry, and the rest of its berth list (R45) -/
  entry : Option Nat
  berth : List Nat
  entryOff : Nat
  /-- units of the berth list that resume at a safe point, with the offset of its mooring bundle (R442) -/
  resume : List (CkUnit × Nat)
  pass : Pass
  /-- the faulted pass's entry while a handler runs (R368), and the rollback in progress -/
  roll : Option Roll
  heldFaults : List FaultRec
  /-- the faults found in this cycle away from an issue, until the core takes the first of them (R355) -/
  found : List FaultRec
  recovery : Bool
  /-- recovery run started by RESYNC: defers landings only (R371) -/
  recoverySync : Bool
  /-- cycle of the last landing written late in a recovery run (R371) -/
  deferEnd : Nat
  /-- its own landings at other cores wait for free ports (R420) -/
  soft : Bool
  ports : List Resv
  /-- ports that the bundle of a cycle takes, known before the foreign landings of that cycle (R371), and the cycle -/
  ahead : Nat × List Resv
  /-- foreign landings waiting for a port in a recovery run, with the cycles they were due (R371) -/
  deferred : List (Nat × Instr)
  zone : List Zone
  bases : List (Nat × BitVec 512)
  touched : List Nat
  recalled : List PassId
  commits : List (PassId × Nat)
  mops : List MOp
  /-- the gang buffer by line (0 to 127 B, 128 to 135 SB), the stream each line came from, and poisoned lines (R365) -/
  gangBuf : Tab (BitVec 512)
  gangTag : Tab Nat
  gangBad : List Nat
  svc : List Svc
  /-- notices no DRAIN has reported (R417, R421) -/
  notices : List Notice
  /-- writes and RMWs issued and not yet reported: operation number, home, route (R420) -/
  writes : List (Nat × Nat × Nat)
  drains : List (Nat × Nat)
  /-- DRAINs still to complete: number, scope, register (64: no status word; 128 more: its landing takes a free value),
  horizon completion, pass -/
  draining : List (Nat × Nat × Nat × Bool × Nat)
  /-- operations of the two lighters: slot, landing, pass (R311) -/
  ops : List (Nat × Nat × Nat)
  /-- the number from which operations belong to the unit being run (R420) -/
  unitFrom : Nat
  /-- RLD and RATOM results still to come: number, issue, landing, register (R418; 128 more: its landing takes a free
  value) -/
  waits : List (Nat × Src × Nat × Nat)
  /-- the core's copy of the failed-peer and dead-link sets (R422) -/
  peers : List Peer
  /-- landings still to come of the operations it issued: pass, cycle, and whether the destination is a register, latch,
  mask, accumulator, margin or directory entry (R47, R74) -/
  lands : List (Nat × Nat × Bool)
  dredge : Tab (BitVec 64)
  deriving DecidableEq, Repr

/-! ### Images, partitions, packages -/

/-- A rendezvous group of an image (R62). -/
structure Group where
  num : Nat
  scope : Nat
  members : List Nat
  deriving DecidableEq, Repr

/-- A gang of an image (R49): leader, and members with their skews; the leader stands first with skew 0. -/
structure Gang where
  members : List (Nat × Nat)
  deriving DecidableEq, Repr

/-- A specialisation record (R217). -/
structure Spec where
  slot : Nat
  kind : Nat
  fill : Nat
  target : Nat
  value : Word
  deriving DecidableEq, Repr

/-- A relocation record (R215): slot offset, type, index of its symbol, addend. -/
structure Reloc where
  slot : BitVec 32
  typ : BitVec 8
  sym : BitVec 24
  addend : Word
  deriving DecidableEq, Repr

/-- A symbol of the table that the loader takes a record's S from (R215): a value, or the image's own name, which stands for
the virtual address at which LOAD placed its first code byte (R349). -/
inductive Symbol where
  | value (x : Int)
  | own
  deriving DecidableEq, Repr

/-- An image as the loader reads it (R45, R49, R62, R142, R208, R215, R217, R438, R443). The file format of an image is
not given: an image is what `LOAD` finds placed at its address (see the assumption log). -/
structure Image where
  addr : Nat
  len : Nat
  /-- per package: specimen and map version it was translated for -/
  maps : List (Nat × Nat × Nat)
  nvc : Nat
  /-- per core: berth list and entry offset -/
  berths : List (Nat × List Nat × Nat)
  gangs : List Gang
  groups : List Group
  /-- translation table: entry index and word, per package -/
  table : List (Nat × Nat × BitVec 128)
  /-- initial scratchpad data, route and shape registers, entry segment words, per core -/
  data : List (Nat × Nat × List Byte)
  regs : List (Nat × Nat × Word)
  code : List (Nat × BitVec 32)
  /-- global address of the image's code in main memory -/
  codeBase : Nat
  /-- path table: package, index, hops (R306) -/
  paths : List (Nat × Nat × List Hop)
  relocs : List Reloc
  symbols : List Symbol
  specs : List Spec
  /-- safe-point table: ordinal, Bexvar offset, native offset, size (R438) -/
  extents : List (Nat × Nat × Nat × Nat)
  /-- mooring bundles: segment ordinal and code-window offset -/
  moors : List (Nat × Nat)
  useLayers : List (Nat × Nat)
  usePod : Bool
  /-- do its bytes agree with the digest it carries? -/
  intact : Bool
  bexvar : BitVec 256
  deriving DecidableEq, Repr

/-- A loaded image (R338): its handle, and the image, whose map versions REBIND changes (R431, R443). -/
structure Loaded where
  handle : Nat
  part : Nat
  img : Image
  deriving DecidableEq, Repr

/-- A launch running on some die layers (R69, R75). -/
structure Launch where
  entry : Nat
  handle : Nat
  /-- its graph, which the host reads also after the launch is done (R70) -/
  graph : Nat
  layers : List Nat
  nvc : Nat
  /-- release cycle at which it started (R75) -/
  start : Nat
  done : Nat
  canc : Bool
  /-- cores still running its units -/
  cores : List Nat
  /-- publications already taken, and whether one of them makes it stop at its next safe point (R444) -/
  taken : Nat
  stopPending : Bool
  /-- units stopped at a safe point, and its ordinal (R439) -/
  stopped : List CkUnit
  ord : Nat
  /-- units finished (R441) -/
  finished : List Nat
  deriving DecidableEq, Repr

/-- A cancel that has become visible and that the queue is still to apply (R72, R73): its level, identifier and cycle, and the
enqueue count when it became visible. -/
structure Cancel where
  lvl : Nat
  id : Nat
  v : Nat
  enq : Nat
  deriving DecidableEq, Repr

/-- A package: its map, its firmware's registers, its non-volatile store. -/
structure Pkg where
  alive : Bool
  trained : Bool
  spec : Word
  version : BitVec 32
  /-- map bytes in force that differ from the nominal map -/
  map : Tab Byte
  /-- measurement registers by layer × 8 + i (R344) -/
  mr : Tab (BitVec 256)
  /-- link injectors by layer × 8 + 2n (A) or + 2n + 1 (B) (R406) -/
  linj : Tab Word
  /-- repair tables in the non-volatile store, by core × 32 + n (R455, R458) -/
  nv : Tab Word
  /-- lost flits of a link: unit, tide index, count in that tide, and count since its last acknowledged flit (R415) -/
  lost : List (Nat × Nat × Nat × Nat)
  dead : List Nat
  /-- publications: version, die layers changed, pod entry changed (R40, R443) -/
  history : List (Nat × Nat × Bool)
  /-- die layers with a sensor that has tripped and not yet fallen below its release (R24) -/
  hot : List Nat
  /-- die layers whose control core is not good (R42) -/
  badControl : List Nat
  /-- surveys reported to the host without publication (R40): package cycle, measured bytes -/
  reported : List (Nat × List (Nat × Byte))
  /-- open survey windows: die layer, and the package cycle at which the survey ends (R347) -/
  survey : List (Nat × Nat)
  /-- the hypervisor's nonce, and the attestation report it was given (R346) -/
  nonce : Tab Word
  report : List Byte
  deriving DecidableEq, Repr

/-! ### Work in flight -/

/-- A rendezvous instance (R62 to R66). An arrival is a core, its cycle, and its kind × 8 + scope; `group` is 64 for a
launch point; `q` is none until the condition's cycle is known. -/
structure Rdv where
  id : Nat
  part : Nat
  kind : Nat
  group : Nat
  scope : Nat
  members : List Nat
  arrivals : List (Nat × Nat × Nat)
  a : Word
  b : Word
  q : Option Nat
  /-- offset of the keeper's RDV bundle -/
  keeperOff : Nat
  posted : Bool
  deriving DecidableEq, Repr

/-- An engine transfer (R308, R312): `kind` 0 CPY, 1 CPYS, 2 CPYM, 3 CPYT, 4 CODE, 5 HCPY, 6 SEND, 7 BCST. A piece is
its local offset, its virtual and its global address, and its length; `data` holds what has been read of each piece, and
`bad` its poisoned bytes, as piece × 64 + byte. -/
structure Xfer where
  id : Nat
  kind : Nat
  g : Nat
  src : Src
  inst : PassId
  put : Bool
  stg : Bool
  entry : Nat
  fmt : Nat
  mask : BitVec 64
  tag : Nat
  chan : Nat
  hcid : Nat
  sectors : Nat
  dst : Nat
  opno : Nat
  pace : Nat
  land : Nat
  lout : Nat
  lback : Nat
  path : List Hop
  pieces : List (Nat × Nat × Nat × Nat)
  data : List (Nat × List Byte)
  bad : List Nat
  lost : List Nat
  done : List Nat
  cancelled : Bool
  deriving DecidableEq, Repr

/-- A bank-ALU operation between its read and its write (R158): the core, offset, width, value to write, tag, and for a
staged one its instance and merge (operation, operand). -/
structure BOp where
  id : Nat
  g : Nat
  off : Nat
  w : Nat
  op : Nat
  x : Word
  y : Word
  new : Word
  old : Word
  /-- it read a poisoned word -/
  bad : Bool
  tag : Nat
  src : Option Src
  inst : Option PassId
  merge : Option (Nat × Word)
  /-- a RATOM's issuing core, the number of its result, latency and route back -/
  back : Option (Nat × Nat × Nat × List Hop)
  ref : Option OpRef
  deriving DecidableEq, Repr

/-- The part of an instruction's effect that takes place after its issue, in phase 3 of a cycle (R81, R86). -/
inductive Perf where
  | store (ws : List (Nat × Byte)) (clear : Bool)
  | capture (q : Nat) (x : VReg)
  | syswr (i : Nat) (x : Word)
  | seed (key : Word)
  | winv (o n : Nat)
  | recv (n base : Nat)
  | redMerge (route line var e : Nat) (v : Word)
  | redRelease (all : Bool) (route : Nat)
  | stageSet (x : BitVec 32)
  | cancel (lvl id : Nat)
  | haltClear
  /-- the state of an abandoned unit is cleared (R73) -/
  | clearUnit
  | hcpy (op : Nat)
  /-- a DRAIN's completion is decided (R420) -/
  | drainDecide (n : Nat)
  /-- the core issues nothing for one tide (R420) -/
  | horizonHold (n : Nat)
  /-- an arrival at a rendezvous: kind, group, scope and the operand registers (R64, R237) -/
  | arrive (kind group scope off : Nat) (a b : Word)
  /-- WKLAUNCH.DONE rises (R71) -/
  | doneRise
  /-- the last unit of the core's berth list and the last landing of its operations are over (R69, R74) -/
  | berthEnd
  /-- a completion register is read, after every change of its cycle (R71) -/
  | lateRead (i d cyc : Nat)
  /-- RETT or RESYNC leaves the handler (R369, R370) -/
  | leave (resync : Bool)
  /-- MST is cleared in these entries (R153) -/
  | mstClear (es : List Nat)
  /-- the error counters take an event of array code `arr`, word `word` (R399): 0 corrected, 1 uncorrectable, 2 found
  uncorrectable by the dredger -/
  | count (kind arr word n : Nat)
  /-- the dredger writes back line `n` of array `arr`, whose words it read as `view` with these bad ones (R400) -/
  | scrub (arr n : Nat) (view : List Nat) (bad : List (Nat × Nat))
  deriving DecidableEq, Repr

/-- An event due at some cycle and phase. -/
inductive Ev where
  /-- the core issues its next bundle (R43) -/
  | issue (g : Nat)
  /-- a step of the opcode table -/
  | instr (i : Instr)
  /-- phase 3 of an instruction of core `g` -/
  | perform (g : Nat) (x : Perf)
  /-- the engine of core `g` reads line `l` of operand `o` of operation `op` (R277); a stream's lines are operand 2 -/
  | engineRead (g op o l : Nat)
  /-- row `x` of a MOUT's destination lands (R296), or tile row `x` is read -/
  | moutRow (g op x : Nat)
  | moutRead (g op x : Nat)
  /-- the landing of a transfer: margins and directory entry of a CPYT, and the end of it -/
  | xferLand (op : Nat)
  /-- piece `k` of a transfer meets a taken port: BANK `sub` (R379) -/
  | pieceBank (op k sub bank : Nat)
  /-- the request of piece `k` of a get leaves for a stack, which reads it `wait` cycles on (R104, R312) -/
  | stackAsk (op k wait : Nat)
  /-- the ports that the bundle of core `g` takes in this cycle become known (R371) -/
  | ahead (g : Nat)
  /-- the result of an RLD or RATOM lands -/
  | reply (f : Nat)
  /-- a bank ALU reads for an operation that landed -/
  | aluRead (b : Nat)
  /-- a flit of a gang's stream arrives (R448) -/
  | streamArrive (f : Nat)
  /-- core `g` takes the first of the faults found in this cycle (R355) -/
  | faults (g : Nat)
  /-- a SAVE or RESTORE of a partition completes (R433, R434) -/
  | contextDone (p : Nat)
  /-- the system image of a new partition is running (R340) -/
  | booted (p : Nat)
  deriving DecidableEq, Repr

/-- An event and when it is due: on the package clock, or on the tide counter of a partition, at a cycle and within it
at a place `ph`. `own` marks an operation that a rollback of its pass discards (R361). -/
structure Due where
  clk : Option Nat
  cyc : Nat
  ph : Nat
  seq : Nat
  own : Option Src
  ev : Ev
  deriving DecidableEq, Repr

/-! ### Partitions -/

/-- What a save area holds in its state areas, and the words that SAVE wrote poisoned (R432, R433): the boundary, its package
cycle and the owner tag, which its headers name, and every core. -/
structure Saved where
  b : Nat
  bAt : Nat
  tag : Nat
  cores : List (Nat × Core)
  memBad : List (Nat × Nat)
  tagBad : List (Nat × Nat)
  /-- what was in flight and is caught with the cores (R103, R104, R375) -/
  agenda : List Due
  xfers : List Xfer
  flits : List Flit
  bops : List BOp
  notes : List Notice
  deriving DecidableEq, Repr

/-- A checkpoint section (R441). -/
structure CkSection where
  entry : Nat
  handle : Nat
  ord : Nat
  digest : BitVec 256
  nvc : Nat
  status : List (Nat × Nat)
  units : List CkUnit
  deriving DecidableEq, Repr

/-- A partition (R70 to R79, R101 to R107, R335 to R340, R422, R428, R429). -/
structure Part where
  state : Nat
  layers : Nat
  ctx : Nat
  lpivl : BitVec 32
  job : Nat
  pod : Bool
  live : Bool
  tide : Nat
  /-- freeze reasons now standing (R101), the pending boundary, FRZSTAT (R107) -/
  reasons : BitVec 5
  pendB : Option Nat
  frzReason : BitVec 5
  /-- reasons of the freeze decided or standing, which REASON takes at the resume -/
  frzNext : BitVec 5
  frzB : Nat
  /-- package cycle of the most recent freeze boundary (R432) -/
  frzAt : Nat
  frzCount : Nat
  /-- map version and layers' subversions in force at that boundary (R432, R436) -/
  frzVer : Nat
  frzSubs : List Nat
  /-- the package cycle of the resume boundary that the latest clearing of the reasons gives (R106) -/
  resumeAt : Option Nat
  phase : Nat
  phasesDone : Nat
  jobCanc : Bool
  canc : List Cancel
  /-- queue entries (R76), enqueue count, and the finished entries that were emptied or enqueued afresh: graph, phase,
  enqueue order (R71) -/
  queue : Tab (BitVec 256)
  enq : Nat
  gone : List (Nat × Nat × Nat)
  /-- per phase number, the enqueue order from which entries count for it (R75) -/
  phaseFrom : List (Nat × Nat)
  /-- enqueue orders of the entries that an earlier job left done or cancelled in the queue: no phase of this job counts them -/
  oldOrds : List Nat
  cancInst : List (Nat × Nat)
  lastLaunch : Option Nat
  /-- WKLAUNCH and WKGRAPH of a checkpoint, as the host reads them until a launch starts (R442); has a job started (R70)? -/
  wkSaved : List Word
  jobRan : Bool
  launches : List Launch
  chans : Tab (BitVec 64)
  chanNext : Tab (BitVec 64)
  chanPend : List (Nat × Nat × Nat)
  mailbox : Tab Word
  context : Tab Word
  hostMap : Tab Word
  report : List Byte
  /-- the staged set, the entries that were ready at A, and those that were waiting at A (R341) -/
  staged : List Nat
  ready : List Nat
  waiting : List Nat
  /-- the enqueue count at A (R341) -/
  enqA : Nat
  endAsked : Bool
  /-- cycle from which a CKPT command is pending (R440) -/
  ckptAsked : Option Nat
  failed : List Peer
  /-- publications since the job started: cycle, package, layers changed, pod entry changed (R444) -/
  pubs : List (Nat × Nat × Nat × Bool)
  /-- release cycle of the latest rendezvous of each group, named by its number and its keeper (R239) -/
  groupRel : List ((Nat × Nat) × Nat)
  saved : Option Saved
  /-- launches of a checkpoint still to be restarted (R442) -/
  resume : List CkSection
  /-- code words that a PATCH invalidated: handle, core, word offsets / 4 (R218) -/
  refill : List (Nat × Nat × List Nat)
  /-- the job about to start goes on from a checkpoint (R442) -/
  restart : Bool
  deriving DecidableEq, Repr

/-- The slot being issued (R43): its core, position (R356), bundle offset and slot count, vector registers the bundle
has read, and the cycle. -/
structure Cur where
  g : Nat
  slot : Nat
  off : Nat
  n : Nat
  vreads : List Nat
  /-- the faults its slots raised (R355) -/
  faults : List FaultRec
  deriving DecidableEq, Repr

/-- The whole machine. -/
structure State where
  /-- package cycle counter (R80) -/
  now : Nat
  /-- memory by global address (R137): cells listed where they differ from zero -/
  mem : List Host.Cell
  /-- owner tags by line address (R161), bad words by address / 8 (R397, R398), retired lines' repair (R455) -/
  tags : Tab Nat
  /-- bad bits of the owner tags, by line address (R160, R396) -/
  tagBad : Tab Nat
  memBad : Tab Nat
  /-- translation table copies by layer key × 4,096 + entry (R142), their bad entries, the control cores' kept copies -/
  table : Tab (BitVec 128)
  tableBad : Tab Nat
  kept : Tab (BitVec 128)
  cores : Tab Core
  parts : Tab Part
  pkgs : Tab Pkg
  images : List Loaded
  /-- images placed in memory by the host, by partition (see the assumption log) -/
  placed : List (Nat × Image)
  nextHandle : Nat
  rdvs : List Rdv
  xfers : List Xfer
  flits : List Flit
  bops : List BOp
  notes : List Notice
  agenda : List Due
  seq : Nat
  cur : Cur
  /-- instructions the outside world is about to cause, with their package cycles -/
  inbox : List (Nat × Instr)
  /-- completions that the host fails (R418): partition, channel, identifier, piece -/
  hostFails : List (Nat × Nat × Nat × Nat)
  /-- the model's own counter of free values taken (see the assumption log) -/
  fresh : Nat
  deriving DecidableEq, Repr

/-- The reset value of system register `i` of a core, where it is no zero (R307, R402, R404). -/
def sysDefault (i : Nat) : Word :=
  if 0x300 ≤ i ∧ i < 0x340 then
    (if i % 8 = 0 then 0xFFFFFFFF00000000#64 else if i % 8 ≤ 3 then 1#64 else 0#64)
  else if i = 0x428 then 1#64
  else 0#64

/-- A core after reset. -/
def Core.reset : Core :=
  { live := Live.empty, shadow := Live.empty, shadow2 := Live.empty, code := [], codeValid := [], codeBad := []
    scale := [], sys := [], recv := [], pc := 0, run := .idle, vid := 0, nvc := 0, entry := none, berth := []
    entryOff := 0, resume := [], pass := Pass.none, roll := none, heldFaults := [], found := [], recovery := false, recoverySync := false
    deferEnd := 0, soft := false, ports := [], ahead := (0, []), zone := [], bases := [], touched := [], recalled := [], commits := [], mops := []
    gangBuf := [], gangTag := [], gangBad := [], deferred := [], svc := [], notices := [], writes := [], drains := [], draining := [], ops := [], unitFrom := 0, waits := [], peers := [], lands := [], dredge := [] }

/-- A partition that has not been created (R336). -/
def Part.reset : Part :=
  { state := 0, layers := 0, ctx := 0, lpivl := 0, job := 0, pod := false, live := false, tide := 0, reasons := 0
    pendB := none, frzReason := 0, frzNext := 0, frzB := 0, frzAt := 0, frzCount := 0, frzVer := 0, frzSubs := []
    resumeAt := none
    phase := 0, phasesDone := 0, jobCanc := false, canc := []
    queue := [], enq := 0, gone := [], phaseFrom := [], oldOrds := [], cancInst := [], lastLaunch := none, wkSaved := [], jobRan := false, launches := [], chans := [], chanNext := []
    chanPend := [], mailbox := [], context := [], hostMap := [], report := [], staged := [], ready := [], waiting := [], enqA := 0, endAsked := false
    ckptAsked := none, failed := [], pubs := [], groupRel := [], saved := none
    resume := [], refill := [], restart := false }

/-- A package at power-on; the fused and stored words are the model's choice (see the assumption log). -/
def Pkg.reset : Pkg :=
  { alive := true, trained := false, spec := 0, version := 0, map := [], mr := [], linj := [], nv := [], lost := []
    dead := [], history := [], hot := [], badControl := [], reported := [], survey := [], nonce := [], report := [] }

/-- The machine after power-on reset: the boot ROM is about to run on package 0 (R343). -/
def State.reset : State :=
  { now := 0, mem := [], tags := [], tagBad := [], memBad := [], table := [], tableBad := [], kept := [], cores := [], parts := []
    pkgs := [(0, Pkg.reset)], images := [], placed := [], nextHandle := 1, rdvs := [], xfers := []
    flits := [], bops := [], notes := []
    agenda := [⟨none, 0, 0, 0, none, .instr (.powerOnReset 0)⟩], seq := 1
    cur := ⟨0, 0, 0, 0, [], []⟩, inbox := [], hostFails := [], fresh := 0 }

end Sys2Proof.Machine
end

