-- ==== Sys2Proof/Machine/Map.lean ====
section
/-! DEFINITION. The specimen map (01, R25 to R39): its bytes, and what the machine reads of it. The bytes of a map that
no survey has published are the nominal map below (see the assumption log). -/

namespace Sys2Proof.Machine

/-- Byte `i` of a little-endian number (R13). -/
def byteOf (x i : Nat) : Byte := BitVec.ofNat 8 (x / 2 ^ (8 * i))

/-- The number of little-endian bytes (R13). -/
def leNat : List Byte → Nat
  | [] => 0
  | b :: bs => b.toNat + 256 * leNat bs

/-- The `n` little-endian bytes of a number. -/
def leBytes : Nat → Nat → List Byte
  | 0, _ => []
  | n + 1, x => BitVec.ofNat 8 x :: leBytes n (x / 256)

/-- Absolute difference. -/
def absDiff (a b : Nat) : Nat := (a - b) + (b - a)

/-- The package core index of mesh position `pos` of the layer-in-chiplet 0 of chiplet `ch`. -/
def gatewayOf (ch pos : Nat) : Nat := ch * 96 + pos

/-- Nominal crossing table entry as a 64-bit number (R32). -/
def nominalCrossing (e : Nat) : Nat :=
  if e < 192 then 6 + 65536 * (gatewayOf (e / 48) (e % 48)) + 4294967296 * (gatewayOf (e / 48) (e % 48) + 48)
  else if e < 224 then
    let b := e - 192
    let r := b / 16
    12 + 65536 * gatewayOf (2 * r) (3 * (b % 16)) + 4294967296 * gatewayOf (2 * r + 1) (3 * (b % 16))
  else if e < 240 then
    let b := e - 224
    22 + 65536 * gatewayOf 0 (3 * b) + 4294967296 * gatewayOf 2 (3 * b)
  else if e < 248 then 12 + 65536 * gatewayOf ((e - 240) / 2) (e - 240) + 4294967296 * 0xFFFF
  else if e < 266 then 30 + 65536 * gatewayOf ((e - 248) / 9 * 2) (e - 248) + 4294967296 * 0xFFFF
  else 0

/-- Costs of a fully good package (R38) by scope code: fence, rendezvous, diameter, horizon. -/
def nominalCosts (code : Nat) : Nat × Nat × Nat × Nat :=
  match code with
  | 0 => (0, 0, 0, 0)
  | 1 => (2, 2, 0, 4)
  | 2 => (28, 36, 24, 64)
  | 3 => (44, 56, 30, 96)
  | 4 => (80, 96, 60, 176)
  | 5 => (140, 168, 110, 320)
  | _ => (1300, 1400, 640, 2600)

/-- Scope code, instance, first core and core count of a discovery entry (R36). DESIGN CHOICE (log entry 56): the count of
good members reads 0 in entries 0 and 1, where R37 gives the Members bitmap as zero and no count. -/
def entryScope (e : Nat) : Nat × Nat × Nat × Nat :=
  if e = 0 then (0, 0, 0, 0)
  else if e = 1 then (1, 0, 0, 0)
  else if e < 10 then (2, e - 2, 48 * (e - 2), 48)
  else if e < 14 then (3, e - 10, 96 * (e - 10), 96)
  else if e < 16 then (4, e - 14, 192 * (e - 14), 192)
  else if e = 16 then (5, 0, 0, 384)
  else (6, 0, 0, 0)

/-- Nominal discovery entry as a 512-bit number (R37, R38). The pod entry is zero until Quayline training completes. -/
def nominalDiscovery (e : Nat) : Nat :=
  let sc := entryScope e
  let k := nominalCosts sc.1
  if sc.1 = 6 then 0 else sc.1 + 2 ^ 8 * sc.2.1 + 2 ^ 16 * sc.2.2.2 + 2 ^ 32 * k.1 + 2 ^ 48 * k.2.1 + 2 ^ 64 * k.2.2.1 + 2 ^ 80 * k.2.2.2 +
    2 ^ 128 * ((2 ^ sc.2.2.2 - 1) * 2 ^ sc.2.2.1)

/-- The nominal map (R25, R38): every unit good at pace 1, no stretch, two cycles a mesh hop. DESIGN CHOICE (log entries 7
and 56): R39 gives a nominal value for energy coefficient 11 alone; the others read 0 until a survey measures them. -/
def nominalMapByte (o : Nat) : Byte :=
  if o < 0x40 then byteOf (0x4B564D50 + 0x0001 * 2 ^ 32 + 0xC000 * 2 ^ 48) o
  else if o < 0x1980 then 0
  else if o < 0xA980 then
    let i := (o - 0x1980) / 2
    let a := i / 48 % 48
    let b := i % 48
    byteOf (2 * (absDiff (a / 8) (b / 8) + absDiff (a % 8) (b % 8))) (o % 2)
  else if o < 0xB200 then byteOf (nominalCrossing ((o - 0xA980) / 8)) (o % 8)
  else if o < 0xB300 then byteOf (560 + 13 * 4 ^ ((o - 0xB200) / 4 % 8)) (o % 4)
  else if o < 0xB780 then byteOf (nominalDiscovery ((o - 0xB300) / 64)) (o % 64)
  else if o < 0xBB80 then byteOf (if (o - 0xB780) / 4 = 11 then 2000 else 0) (o % 4)
  else 0

/-- The default of the table of packages: a package that is not there. -/
def Pkg.absent : Pkg := { Pkg.reset with alive := false }

/-- A package. -/
def pkgOf (s : State) (n : Nat) : Pkg := tabGet (fun _ => Pkg.absent) s.pkgs n
def setPkg (s : State) (n : Nat) (x : Pkg) : State := { s with pkgs := tabSet (fun _ => Pkg.absent) s.pkgs n x }

/-- The bits of the byte at map offset `o` that no Reserved field holds (R16, R26, R27, R32, R37, R42). -/
def mapMask (o : Nat) : Byte :=
  if o < 0x40 then (if o = 0x14 then 3 else if (0x15 ≤ o ∧ o < 0x18) ∨ 0x30 ≤ o then 0 else 0xFF)
  else if o < 0xD80 then (if o < 0x40 + 3344 then 3 else 0)
  else if o < 0xA980 then 0xFF
  else if o < 0xB200 then (if o < 0xA980 + 2128 ∧ (o - 0xA980) % 8 < 6 then 0xFF else 0)
  else if o < 0xB300 then 0xFF
  else if o < 0xB780 then (if 12 ≤ o % 64 ∧ o % 64 < 16 then 0 else 0xFF)
  else if o < 0xBB80 then 0xFF
  else if o < 0xBF80 then 0
  else if o < 0xBFE1 then 0xFF
  else 0

/-- A byte of the map in force; the fused identifier and the stored version stand in its header (R26, R40). -/
def mapByte (s : State) (n o : Nat) : Byte :=
  if 8 ≤ o ∧ o < 0x10 then byteOf (pkgOf s n).spec.toNat (o - 8)
  else if 0x10 ≤ o ∧ o < 0x14 then byteOf (pkgOf s n).version.toNat (o - 0x10)
  else tabGet nominalMapByte (pkgOf s n).map o

/-- `k` little-endian bytes of the map in force, as a number. -/
def mapNat (s : State) (n o : Nat) : Nat → Nat
  | 0 => 0
  | k + 1 => mapNat s n o k + (mapByte s n (o + k)).toNat * 2 ^ (8 * k)

/-- State code of a unit (R27, R28). -/
def unitState (s : State) (n u : Nat) : Nat := (mapByte s n (0x40 + u)).toNat % 4

/-- Pace of a state code (R27); a dead unit has none and takes 1 here (R460 stops work aimed at it). -/
def paceOfCode (c : Nat) : Nat := if c = 1 then 2 else if c = 2 then 4 else 1

/-- intra(L, a, b) for mesh positions (R31). -/
def intra (s : State) (n l a b : Nat) : Nat := mapNat s n (0x1980 + ((l * 48 + a) * 48 + b) * 2) 2

/-- Delivery bound B(stack, class) (R34). -/
def deliveryBound (s : State) (n st c : Nat) : Nat := mapNat s n (0xB200 + (st * 8 + c) * 4) 4

/-- The discovery entry of scope `sc` that encloses core index `c` (R36). -/
def scopeEntry (sc c : Nat) : Nat :=
  match sc with
  | 0 => 0
  | 1 => 1
  | 2 => 2 + c / 48
  | 3 => 10 + c / 96
  | 4 => 14 + c / 192
  | 5 => 16
  | _ => 17

/-- Fence cost, rendezvous cost, diameter and horizon (R37) of the instance of scope `sc` that encloses core `g`. -/
def fenceCost (s : State) (g sc : Nat) : Nat := mapNat s (g / 512) (0xB300 + 64 * scopeEntry sc (g % 512) + 4) 2
def rdvCost (s : State) (g sc : Nat) : Nat := mapNat s (g / 512) (0xB300 + 64 * scopeEntry sc (g % 512) + 6) 2
def scopeDiameter (s : State) (g sc : Nat) : Nat := mapNat s (g / 512) (0xB300 + 64 * scopeEntry sc (g % 512) + 8) 2
def scopeHorizon (s : State) (g sc : Nat) : Nat := mapNat s (g / 512) (0xB300 + 64 * scopeEntry sc (g % 512) + 10) 2

/-- Is the core good (R27)? -/
def goodCore (s : State) (g : Nat) : Bool := g % 512 < 384 && decide (unitState s (g / 512) (g % 512) ≠ 3)

/-- stretch(core, n) (R30). -/
def stretchOf (s : State) (g n : Nat) : Nat :=
  if g % 512 < 384 then (mapByte s (g / 512) (0xD80 + 8 * (g % 512) + n / 2)).toNat / 16 ^ (n % 2) % 16 else 0

/-- The smallest size class whose copies take `n` lines (R34, R312). -/
def sizeClass (n : Nat) : Nat :=
  if n ≤ 1 then 0 else if n ≤ 4 then 1 else if n ≤ 16 then 2 else if n ≤ 64 then 3 else if n ≤ 256 then 4
  else if n ≤ 1024 then 5 else if n ≤ 4096 then 6 else 7

end Sys2Proof.Machine
end

