-- ==== Sys2Proof/Machine/Num.lean ====
section
/-! DEFINITION. Number formats, rounding and the order of sums (04, R108 to R136): the exact value of every code,
the conversion of an exact value to a format, the arithmetic of the formats, the correctly rounded functions, the
matrix engine's chunk sums and the Chamois words. A code is a natural number below 2 to the width of its format. -/

namespace Sys2Proof.Machine

/-- The formats of R108 that hold elements (e8m0 scales and int64 cells stand apart). -/
inductive Fmt where
  | f64 | f32 | f16 | bf16 | e5m2 | e4m3 | dm8 | e2m1
  | i32 | n32 | i16 | n16 | i8 | n8 | i4 | n4
  deriving DecidableEq, Repr

/-- The width of a format in bits (R108). -/
def fmtWidth : Fmt → Nat
  | .f64 => 64 | .f32 => 32 | .f16 => 16 | .bf16 => 16 | .e5m2 => 8 | .e4m3 => 8 | .dm8 => 8 | .e2m1 => 4
  | .i32 => 32 | .n32 => 32 | .i16 => 16 | .n16 => 16 | .i8 => 8 | .n8 => 8 | .i4 => 4 | .n4 => 4

/-- Is the format an integer format? -/
def fmtIsInt : Fmt → Bool
  | .i32 | .n32 | .i16 | .n16 | .i8 | .n8 | .i4 | .n4 => true
  | _ => false

/-- Is the format a signed integer format? -/
def fmtSigned : Fmt → Bool
  | .i32 | .i16 | .i8 | .i4 => true
  | _ => false

/-- Width of the fraction field of a binary floating format (R109, R114). -/
def fracBits : Fmt → Nat
  | .f64 => 52 | .f32 => 23 | .f16 => 10 | .bf16 => 7 | .e5m2 => 2 | .e4m3 => 3 | .e2m1 => 1 | _ => 0

/-- Exponent bias of a binary floating format (R109, R114). -/
def expBias : Fmt → Nat
  | .f64 => 1023 | .f32 => 127 | .f16 => 15 | .bf16 => 127 | .e5m2 => 15 | .e4m3 => 7 | .e2m1 => 1 | _ => 0

/-- The code of the largest finite magnitude (R109, R114, R116). -/
def maxCode : Fmt → Nat
  | .f64 => 0x7FEFFFFFFFFFFFFF | .f32 => 0x7F7FFFFF | .f16 => 0x7BFF | .bf16 => 0x7F7F
  | .e5m2 => 0x7B | .e4m3 => 0x7E | .dm8 => 0x01 | .e2m1 => 7 | _ => 0

/-- The default NaN of a floating format (R112); e2m1 has none and takes +0 (R122). -/
def defaultNaN : Fmt → Nat
  | .f64 => 0x7FF8000000000000 | .f32 => 0x7FC00000 | .f16 => 0x7E00 | .bf16 => 0x7FC0
  | .e5m2 => 0x7E | .e4m3 => 0x7F | .dm8 => 0x80 | _ => 0

/-- The exponent of the unit of the subnormal range: `1 - bias - w` (R110). -/
def minUlp (f : Fmt) : Int := 1 - (expBias f : Int) - (fracBits f : Int)

/-- An exact value: a NaN, an infinity, or `± num / den × 2^exp`. A zero has `num = 0` and keeps its sign. -/
inductive Val where
  | nan
  | inf (neg : Bool)
  | fin (neg : Bool) (num den : Nat) (exp : Int)
  deriving DecidableEq, Repr

/-- The value of a finite dm8 magnitude in units of 1/32,000,000 (R115): marker position `z`, fraction `F`. -/
def dm8Scaled (c : Nat) : Nat :=
  let lo := c % 64
  let z := 5 - Nat.log2 lo
  let fr := lo - 2 ^ (5 - z)
  let k := (2 ^ (5 - z) + 9 * fr) * 2 ^ z
  if (c / 64) % 2 = 0 then k * 10 ^ (z + 6) else k * 10 ^ (5 - z)

/-- The exact value of a dm8 code (R115, R116). -/
def dm8Val (c : Nat) : Val :=
  let c := c % 256
  if c % 64 = 0 then
    if c = 0 then .fin false 0 1 0 else if c = 0x80 then .nan else .inf (c = 0xC0)
  else .fin (128 ≤ c) (dm8Scaled c) 32000000 0

/-- The exact value of a binary floating code (R110, R114). -/
def binVal (f : Fmt) (c : Nat) : Val :=
  let w := fracBits f
  let width := fmtWidth f
  let c := c % 2 ^ width
  let neg := decide (2 ^ (width - 1) ≤ c)
  let m := c % 2 ^ (width - 1)
  let e := m / 2 ^ w
  let fr := m % 2 ^ w
  if maxCode f < m then
    if fr = 0 then .inf neg else .nan
  else if e = 0 then .fin neg fr 1 (minUlp f)
  else .fin neg (2 ^ w + fr) 1 (minUlp f + e - 1)

/-- Signed reading of the low `w` bits of `x`. -/
def signed (w x : Nat) : Int :=
  let x := x % 2 ^ w
  if 2 * x < 2 ^ w then x else (x : Int) - 2 ^ w

/-- The integer an integer code stands for (R117). -/
def intVal (f : Fmt) (c : Nat) : Int :=
  if fmtSigned f then signed (fmtWidth f) c else ((c % 2 ^ fmtWidth f : Nat) : Int)

/-- The value of an integer, exactly. -/
def valOfInt (x : Int) : Val := .fin (x < 0) x.natAbs 1 0

/-- The exact value of a code of any format (R110, R114, R115, R117). -/
def valOf (f : Fmt) (c : Nat) : Val :=
  match f with
  | .dm8 => dm8Val c
  | .f64 | .f32 | .f16 | .bf16 | .e5m2 | .e4m3 | .e2m1 => binVal f c
  | _ => valOfInt (intVal f c)

/-- The low `w` bits of an integer. -/
def wrapInt (w : Nat) (x : Int) : Nat := (x % 2 ^ w).toNat

/-- `num/den × 2^e` as a fraction of naturals. -/
def scaleQ (num den : Nat) (e : Int) : Nat × Nat :=
  if 0 ≤ e then (num * 2 ^ e.toNat, den) else (num, den * 2 ^ (-e).toNat)

/-- `floor (log2 (num/den))` for a positive fraction. -/
def log2Q (num den : Nat) : Int :=
  let g : Int := (Nat.log2 num : Int) - (Nat.log2 den : Int)
  let p := scaleQ num den (-g)
  if p.2 ≤ p.1 then g else g - 1

/-- The neighbours of a magnitude in a format: the code of the largest magnitude not above it, the code of the next
one (none: above the largest finite magnitude), and how far the magnitude lies between them as a fraction (R122). -/
structure Near where
  lo : Nat
  hi : Option Nat
  num : Nat
  den : Nat
  /-- the magnitude reaches the overflow threshold T(F) (R121) -/
  huge : Bool
  deriving DecidableEq, Repr

/-- Neighbours in a binary floating format (R109, R121). -/
def nearBin (f : Fmt) (num den : Nat) (e : Int) : Near :=
  let w := fracBits f
  let q := max (log2Q num den + e - w) (minUlp f)
  let p := scaleQ num den (e - q)
  let n := p.1 / p.2
  let r := p.1 % p.2
  let code := (n : Int) + (q - minUlp f) * 2 ^ w
  let lo := code.toNat
  if maxCode f < lo then ⟨maxCode f, none, 1, 1, true⟩
  else if lo = maxCode f then ⟨lo, none, r, p.2, decide (p.2 ≤ 2 * r)⟩
  else ⟨lo, some (lo + 1), r, p.2, false⟩

/-- The positive finite dm8 codes in rising order of value (R116). -/
def dm8Rising : List Nat :=
  [0x41] ++ [0x42, 0x43] ++ [0x44, 0x45, 0x46, 0x47] ++ (List.range 8).map (0x48 + ·) ++
  (List.range 16).map (0x50 + ·) ++ (List.range 32).map (0x60 + ·) ++ (List.range 32).map (0x20 + ·) ++
  (List.range 16).map (0x10 + ·) ++ (List.range 8).map (0x08 + ·) ++ [0x04, 0x05, 0x06, 0x07] ++
  [0x02, 0x03] ++ [0x01]

/-- Neighbours in dm8, of the magnitude `a/b` in units of 1/32,000,000; above 10^5 the next value is the 10^6 of
R121. -/
def nearDm8Go : List Nat → Nat → Nat → Nat → Near
  | [], lo, a, b =>
    let l := dm8Scaled lo
    let h := 32000000 * 1000000
    ⟨lo, none, a - l * b, (h - l) * b, decide (550000 * 32000000 * b ≤ a)⟩
  | c :: cs, lo, a, b =>
    if dm8Scaled c * b ≤ a then nearDm8Go cs c a b
    else
      let l := if lo = 0 then 0 else dm8Scaled lo
      ⟨lo, some c, a - l * b, (dm8Scaled c - l) * b, false⟩

/-- Neighbours of a magnitude in a floating format (R122). -/
def near (f : Fmt) (num den : Nat) (e : Int) : Near :=
  match f with
  | .dm8 => let p := scaleQ num den e; nearDm8Go dm8Rising 0 (p.1 * 32000000) p.2
  | _ => nearBin f num den e

/-- The code of magnitude code `m` with sign `neg` (R122, Encode): dm8 has no -0. -/
def encodeSign (f : Fmt) (neg : Bool) (m : Nat) : Nat :=
  if f = .dm8 ∧ m = 0 then 0 else if neg then m + 2 ^ (fmtWidth f - 1) else m

/-- The infinity of a format, or its default NaN for e4m3 (R122). -/
def infCode (f : Fmt) (neg : Bool) : Nat :=
  match f with
  | .dm8 => if neg then 0xC0 else 0x40
  | .e4m3 => defaultNaN .e4m3
  | _ => encodeSign f neg (maxCode f + 1)

/-- ConvertF (R122): the code of value `x` in floating format `f`, in rounding mode `rm`, with random bits `u`. DESIGN CHOICE (log
entry 56): at 77,500 in dm8 both neighbours have bit 0 set, so that R122's tie rule decides nothing; the greater is taken. -/
def convertF (x : Val) (f : Fmt) (rm u : Nat) : Nat :=
  match x with
  | .nan => defaultNaN f
  | .inf neg => if rm = 3 ∨ f = .e2m1 then encodeSign f neg (maxCode f) else infCode f neg
  | .fin neg num den e =>
    if num = 0 then encodeSign f neg 0
    else
      let n := near f num den e
      if n.num = 0 ∧ n.huge = false then encodeSign f neg n.lo
      else if rm = 1 then encodeSign f neg n.lo
      else if rm = 2 then
        match n.hi with
        | none => encodeSign f neg (maxCode f)
        | some h => encodeSign f neg (if u < n.num * 65536 / n.den then h else n.lo)
      else if n.huge = true ∧ rm = 0 ∧ f ≠ .e2m1 then infCode f neg
      else
        match n.hi with
        | none => encodeSign f neg (maxCode f)
        | some h =>
          if 2 * n.num < n.den then encodeSign f neg n.lo
          else if n.den < 2 * n.num then encodeSign f neg h
          else encodeSign f neg (if n.lo % 2 = 0 then n.lo else h)

/-- Rounding to nearest-even (R113). -/
def roundNE (x : Val) (f : Fmt) : Nat := convertF x f 0 0

/-- Smallest and largest value of an integer format. -/
def intMin (f : Fmt) : Int := if fmtSigned f then -(2 ^ (fmtWidth f - 1)) else 0
def intMax (f : Fmt) : Int := if fmtSigned f then 2 ^ (fmtWidth f - 1) - 1 else 2 ^ fmtWidth f - 1

/-- Sat (R18). -/
def sat (x lo hi : Int) : Int := if x < lo then lo else if hi < x then hi else x

/-- The magnitude `num/den × 2^e` rounded to an integer in mode `rm` (R123). -/
def roundMag (num den : Nat) (e : Int) (rm u : Nat) : Nat :=
  let p := scaleQ num den e
  let n := p.1 / p.2
  let r := p.1 % p.2
  if r = 0 ∨ rm = 1 then n
  else if rm = 2 then (if u < r * 65536 / p.2 then n + 1 else n)
  else if 2 * r < p.2 then n
  else if p.2 < 2 * r then n + 1
  else n + n % 2

/-- Conversion of an exact value of a floating source to an integer format (R123). -/
def convertFloatToInt (x : Val) (f : Fmt) (rm u : Nat) : Nat :=
  match x with
  | .nan => 0
  | .inf neg => wrapInt (fmtWidth f) (if neg then intMin f else intMax f)
  | .fin neg num den e =>
    let n : Int := roundMag num den e rm u
    wrapInt (fmtWidth f) (sat (if neg then -n else n) (intMin f) (intMax f))

/-- Conversion of an integer to an integer format (R123). -/
def convertIntToInt (x : Int) (f : Fmt) (rm : Nat) : Nat :=
  if rm = 3 then wrapInt (fmtWidth f) (sat x (intMin f) (intMax f)) else wrapInt (fmtWidth f) x

/-- Conversion of a code of one format to another (R122, R123). -/
def convert (src dst : Fmt) (c rm u : Nat) : Nat :=
  if fmtIsInt dst then
    if fmtIsInt src then convertIntToInt (intVal src c) dst rm else convertFloatToInt (valOf src c) dst rm u
  else convertF (valOf src c) dst rm u

/-- The negation of a value. -/
def negV : Val → Val
  | .nan => .nan
  | .inf n => .inf (!n)
  | .fin n a b e => .fin (!n) a b e

/-- The exact sum of two finite signed magnitudes, as numerator and exponent over the denominator `d1 × d2`. -/
def addFin (n1 : Bool) (a1 d1 : Nat) (e1 : Int) (n2 : Bool) (a2 d2 : Nat) (e2 : Int) : Val :=
  let e := min e1 e2
  let x : Int := (a1 * d2 * 2 ^ (e1 - e).toNat : Nat)
  let y : Int := (a2 * d1 * 2 ^ (e2 - e).toNat : Nat)
  let s := (if n1 then -x else x) + (if n2 then -y else y)
  if s = 0 then .fin (n1 && n2) 0 1 0 else .fin (s < 0) s.natAbs (d1 * d2) e

/-- The exact sum (R113); a zero sum is +0 unless both operands have the sign -. -/
def addV : Val → Val → Val
  | .nan, _ => .nan
  | .inf _, .nan => .nan
  | .fin .., .nan => .nan
  | .inf a, .inf b => if a = b then .inf a else .nan
  | .inf a, .fin .. => .inf a
  | .fin .., .inf b => .inf b
  | .fin n1 a1 d1 e1, .fin n2 a2 d2 e2 => addFin n1 a1 d1 e1 n2 a2 d2 e2

/-- The exact product (R113, R129). -/
def mulV : Val → Val → Val
  | .nan, _ => .nan
  | .inf _, .nan => .nan
  | .fin .., .nan => .nan
  | .inf a, .inf b => .inf (xor a b)
  | .inf a, .fin n x _ _ => if x = 0 then .nan else .inf (xor a n)
  | .fin n x _ _, .inf b => if x = 0 then .nan else .inf (xor n b)
  | .fin n1 a1 d1 e1, .fin n2 a2 d2 e2 => .fin (xor n1 n2) (a1 * a2) (d1 * d2) (e1 + e2)

/-- The exact quotient (R136, VDIV). -/
def divV : Val → Val → Val
  | .nan, _ => .nan
  | .inf _, .nan => .nan
  | .fin .., .nan => .nan
  | .inf _, .inf _ => .nan
  | .inf a, .fin n _ _ _ => .inf (xor a n)
  | .fin n _ _ _, .inf b => .fin (xor n b) 0 1 0
  | .fin n1 a1 d1 e1, .fin n2 a2 d2 e2 =>
    if a2 = 0 then (if a1 = 0 then .nan else .inf (xor n1 n2))
    else if a1 = 0 then .fin (xor n1 n2) 0 1 0
    else .fin (xor n1 n2) (a1 * d2) (d1 * a2) (e1 - e2)

/-- Multiplication by a power of two. -/
def shiftV (x : Val) (k : Int) : Val :=
  match x with
  | .fin n a d e => .fin n a d (e + k)
  | _ => x

/-- `a < b` of two values that are no NaN; -0 equals +0. -/
def ltV : Val → Val → Bool
  | .nan, _ => false
  | .inf _, .nan => false
  | .fin .., .nan => false
  | .inf a, .inf b => a && !b
  | .inf a, .fin .. => a
  | .fin .., .inf b => !b
  | .fin n1 a1 d1 e1, .fin n2 a2 d2 e2 =>
    let e := min e1 e2
    let x : Int := (a1 * d2 * 2 ^ (e1 - e).toNat : Nat)
    let y : Int := (a2 * d1 * 2 ^ (e2 - e).toNat : Nat)
    decide ((if n1 then -x else x) < (if n2 then -y else y))

/-- Is the value a NaN? -/
def isNaN : Val → Bool
  | .nan => true
  | _ => false

/-- Equality of values: never of a NaN; -0 equals +0. -/
def eqV (a b : Val) : Bool := !isNaN a && !isNaN b && !ltV a b && !ltV b a

/-- The sign of a value that is no NaN. -/
def negSign : Val → Bool
  | .nan => false
  | .inf n => n
  | .fin n _ _ _ => n

/-- Floating add, subtract, multiply (R113): on codes of one format. -/
def faddC (f : Fmt) (a b : Nat) : Nat := roundNE (addV (valOf f a) (valOf f b)) f
def fsubC (f : Fmt) (a b : Nat) : Nat := roundNE (addV (valOf f a) (negV (valOf f b))) f
def fmulC (f : Fmt) (a b : Nat) : Nat := roundNE (mulV (valOf f a) (valOf f b)) f
/-- FMA: `a × b + c` (or `- c` operand signs by the caller), rounded once (R113). -/
def ffmaC (f : Fmt) (x y : Nat) (neg : Bool) (c : Nat) : Nat :=
  let p := mulV (valOf f x) (valOf f y)
  roundNE (addV (if neg then negV p else p) (valOf f c)) f

/-- minimumNumber and maximumNumber (R113): one NaN gives the other operand, two give the default NaN, -0 < +0. -/
def fminC (f : Fmt) (a b : Nat) : Nat :=
  let x := valOf f a
  let y := valOf f b
  if isNaN x && isNaN y then defaultNaN f
  else if isNaN x then b else if isNaN y then a
  else if ltV x y then a else if ltV y x then b
  else if negSign x then a else b
def fmaxC (f : Fmt) (a b : Nat) : Nat :=
  let x := valOf f a
  let y := valOf f b
  if isNaN x && isNaN y then defaultNaN f
  else if isNaN x then b else if isNaN y then a
  else if ltV x y then b else if ltV y x then a
  else if negSign x then b else a

/-! ### The correctly rounded functions (R136) -/

/-- The integer square root, bit by bit from bit `k - 1`. -/
def isqrtGo : Nat → Nat → Nat → Nat
  | 0, _, r => r
  | k + 1, x, r => if (r + 2 ^ k) * (r + 2 ^ k) ≤ x then isqrtGo k x (r + 2 ^ k) else isqrtGo k x r
def isqrt (x : Nat) : Nat := isqrtGo (Nat.log2 x / 2 + 1) x 0

/-- A value just above `s × 2^e` when `exact` is false: `s` is the floor of the exact result at a unit far below
every rounding boundary, and one half of that unit stands for the rest. -/
def withSticky (neg : Bool) (s : Nat) (exact : Bool) (e : Int) : Val :=
  .fin neg (2 * s + if exact then 0 else 1) 1 (e - 1)

/-- √x (R136). -/
def sqrtV : Val → Val
  | .nan => .nan
  | .inf n => if n then .nan else .inf false
  | .fin n a d e =>
    if a = 0 then .fin n 0 1 0
    else if n then .nan
    else
      let odd := e % 2
      let x := a * d * 2 ^ (128 + odd.toNat)
      let s := isqrt x
      -- a/d × 2^e = (a × d) / d² × 2^e
      .fin false (2 * s + if s * s = x then 0 else 1) d ((e - odd) / 2 - 64 - 1)

/-- 1/x (R136). -/
def rcpV : Val → Val
  | .nan => .nan
  | .inf n => .fin n 0 1 0
  | .fin n a d e => if a = 0 then .inf n else .fin n d a (-e)

/-- 1/√x (R136). -/
def rsqV : Val → Val
  | .nan => .nan
  | .inf n => if n then .nan else .fin false 0 1 0
  | .fin n a d e =>
    if a = 0 then .inf n
    else if n then .nan
    else
      let odd := e % 2
      let a' := a * 2 ^ odd.toNat
      let x := d * 2 ^ 256
      let s := isqrt (x / a')
      withSticky false s (s * s * a' = x) (-((e - odd) / 2) - 128)

/-- `floor (ln 2 × 2^256)`. -/
def ln2At256 : Nat := 0xb17217f7d1cf79abc9e3b39803f2f6af40f343267298b62d8a0d175b8baafa2b

/-- Taylor terms of e^t at 256 fractional bits: `term` is the k-th term. -/
def expGo : Nat → Nat → Nat → Nat → Nat → Nat
  | 0, _, _, _, acc => acc
  | n + 1, k, t, term, acc =>
    let term' := term * t / 2 ^ 256 / k
    expGo n (k + 1) t term' (acc + term')

/-- 2^x (R136): exact for an integer x, else evaluated to 200 bits; see the assumption log. -/
def exp2V : Val → Val
  | .nan => .nan
  | .inf n => if n then .fin false 0 1 0 else .inf false
  | .fin n a d e =>
    if a = 0 then .fin false 1 1 0
    else if (4096 : Int) ≤ log2Q a d + e then (if n then .fin false 1 1 (-100000) else .fin false 1 1 100000)
    else
      let p := scaleQ a d (e + 256)
      let x : Int := if n then -((p.1 + p.2 - 1) / p.2 : Nat) else (p.1 / p.2 : Nat)
      let i := x / 2 ^ 256
      let fr := (x % 2 ^ 256).toNat
      let i := if (100000 : Int) < i then 100000 else if i < -100000 then -100000 else i
      if fr = 0 ∧ p.1 % p.2 = 0 then .fin false 1 1 i
      else
        let t := fr * ln2At256 / 2 ^ 256
        let y := expGo 60 1 t (2 ^ 256) (2 ^ 256)
        withSticky false (y / 2 ^ 56) false (i - 200)

/-- `k` binary digits of log2 of `m/2^512`, m in [2^512, 2^513). -/
def log2Go : Nat → Nat → Nat → Nat
  | 0, _, acc => acc
  | k + 1, m, acc =>
    let q := m * m / 2 ^ 512
    if 2 ^ 513 ≤ q then log2Go k (q / 2) (2 * acc + 1) else log2Go k q (2 * acc)

/-- log2 x (R136): exact for a power of two, else evaluated to 200 binary places; see the assumption log. -/
def log2V : Val → Val
  | .nan => .nan
  | .inf n => if n then .nan else .inf false
  | .fin n a d e =>
    if a = 0 then .inf true
    else if n then .nan
    else
      let g := log2Q a d
      let p := scaleQ a d (512 - g)
      let i := g + e
      if p.1 = p.2 * 2 ^ 512 then valOfInt i
      else
        let frac := log2Go 200 (p.1 / p.2) 0
        -- the value lies in (i + frac/2^200, i + (frac + 1)/2^200)
        let y : Int := i * 2 ^ 201 + 2 * frac + 1
        .fin (y < 0) y.natAbs 1 (-201)

/-! ### Matrix accumulation (R129 to R132) -/

/-- The dyadic numerator and exponent a finite product has (denominator 1), or its value rounded for a dm8 operand. -/
structure Prod where
  neg : Bool
  num : Nat
  exp : Int
  deriving DecidableEq, Repr

/-- State of the chunk sum: running exponent, signed sum, sticky. -/
structure Chunk where
  m : Option Int
  s : Int
  sticky : Bool
  deriving DecidableEq, Repr

/-- `sign(S) × floor(|S| / 2^k)`. -/
def shrSM (s : Int) (k : Nat) : Int :=
  let q : Int := (s.natAbs / 2 ^ k : Nat)
  if s < 0 then -q else q

/-- One product into the window (R131). -/
def chunkAdd (c : Chunk) (neg : Bool) (num : Nat) (exp : Int) : Chunk :=
  if num = 0 then c
  else
    let e := (Nat.log2 num : Int) + exp
    let c := match c.m with
      | none => { c with m := some e }
      | some m =>
        if m < e then
          let k := (e - m).toNat
          { m := some e, s := shrSM c.s k, sticky := c.sticky || decide (c.s.natAbs % 2 ^ k ≠ 0) }
        else c
    let m := c.m.getD e
    let p := scaleQ num 1 (exp - (m - 80))
    let q : Int := (p.1 / p.2 : Nat)
    { c with s := c.s + (if neg then -q else q), sticky := c.sticky || decide (p.1 % p.2 ≠ 0) }

/-- Any NaN, and the signs of infinities met. -/
def chunkSpecials : List Val → Bool × Bool × Bool
  | [] => (false, false, false)
  | v :: vs =>
    let r := chunkSpecials vs
    match v with
    | .nan => (true, r.2.1, r.2.2)
    | .inf n => (r.1, r.2.1 || !n, r.2.2 || n)
    | .fin .. => r

/-- ChunkSum (R131), as a binary64 code. The products come as exact values with denominator 1. -/
def chunkSum (ps : List Val) : Nat :=
  let sp := chunkSpecials ps
  if sp.1 then defaultNaN .f64
  else if sp.2.1 && sp.2.2 then defaultNaN .f64
  else if sp.2.1 then infCode .f64 false
  else if sp.2.2 then infCode .f64 true
  else
    let c := ps.foldl (fun c v => match v with
      | .fin n a _ e => chunkAdd c n a e
      | _ => c) ⟨none, 0, false⟩
    match c.m with
    | none => 0
    | some m =>
      if c.s = 0 then 0
      else if c.sticky = false ∨ c.s.natAbs < 2 ^ 53 then roundNE (.fin (c.s < 0) c.s.natAbs 1 (m - 80)) .f64
      else roundNE (.fin (c.s < 0) (2 * c.s.natAbs + 1) 1 (m - 81)) .f64

/-- The first `n` elements of a list and the rest, in chunks. -/
def chunksOf : Nat → Nat → List Val → List (List Val)
  | 0, _, _ => []
  | k + 1, n, l => l.take n :: chunksOf k n (l.drop n)

/-- A float accumulator cell after the chunks of one operation (R130): binary64 codes. -/
def accChunks (acc : Nat) (chunks : List (List Val)) : Nat :=
  chunks.foldl (fun a ps => faddC .f64 a (chunkSum ps)) acc

/-- An element's value as it enters the array: dm8 rounded to a 24-bit significand (R129), others exact. -/
def arrayVal (f : Fmt) (c : Nat) : Val :=
  match f with
  | .dm8 => valOf .f32 (convertF (valOf .dm8 c) .f32 0 0)
  | _ => valOf f c

/-- The power of two of an e8m0 scale, none for its NaN (R119). -/
def scaleExp (c : Nat) : Option Int := if c % 256 = 255 then none else some ((c % 256 : Nat) - 127 : Int)

/-- A product with its two block scales (R129); a NaN scale makes the product a NaN (R119, R112). -/
def scaledProduct (a b : Val) (sa sb : Nat) : Val :=
  match scaleExp sa, scaleExp sb with
  | some x, some y => shiftV (mulV a b) (x + y)
  | _, _ => .nan

/-! ### The Chamois generator (R124, R127) -/

/-- Mix64 (R124). -/
def mix64 (v : Word) : Word :=
  let v := v ^^^ (v >>> 31)
  let v := v * 0x9C7A51E32B8D46F1#64
  let v := v ^^^ (v >>> 29)
  let v := v * 0x6A3FC809E5147B2D#64
  v ^^^ (v >>> 32)

/-- Block j of word n (R124). -/
def chamoisBlock (key n : Word) (j : Nat) : Word := mix64 (mix64 (16 * n + BitVec.ofNat 64 j) ^^^ key)

/-- Word n: block j at bits [64j + 63 : 64j] (R124). -/
def chamoisWord (key n : Word) : BitVec 1024 :=
  BitVec.ofNat 1024 ((List.range 16).foldl (fun a j => a + (chamoisBlock key n j).toNat * 2 ^ (64 * j)) 0)

/-- The random bits of lane i (R127). -/
def laneBits (w : BitVec 1024) (i : Nat) : Nat := w.toNat / 2 ^ (16 * i) % 65536

/-! ### CRC-32C (R55) -/

/-- Eight or more bit steps of the reflected CRC-32C. -/
def crcBits : Nat → BitVec 32 → BitVec 32
  | 0, c => c
  | k + 1, c => crcBits k (if c.getLsbD 0 then (c >>> 1) ^^^ 0x82F63B78#32 else c >>> 1)

/-- One byte into the running CRC. -/
def crcByte (c : BitVec 32) (b : BitVec 8) : BitVec 32 := crcBits 8 (c ^^^ b.zeroExtend 32)

/-- One slot word, least significant byte first (R55). -/
def crcWord (c : BitVec 32) (w : BitVec 32) : BitVec 32 :=
  crcByte (crcByte (crcByte (crcByte c (w.extractLsb' 0 8)) (w.extractLsb' 8 8)) (w.extractLsb' 16 8)) (w.extractLsb' 24 8)

/-- The initial value and the final XOR (R55). -/
def crcInit : BitVec 32 := 0xFFFFFFFF#32
def crcFinal (c : BitVec 32) : BitVec 32 := c ^^^ 0xFFFFFFFF#32

end Sys2Proof.Machine
end

