-- ==== Sys2Proof/Machine/Ops.lean ====
section
/-! DEFINITION. The named operations over the state: units and clocks, scheduling, system registers, memory, landings,
freezes, and taking a fault (15, R354 to R379) with its rollback. -/

namespace Sys2Proof.Machine

/-! ### Units and clocks -/

/-- A core. -/
def coreOf (s : State) (g : Nat) : Core := tabGet (fun _ => Core.reset) s.cores g
def setCore (s : State) (g : Nat) (c : Core) : State := { s with cores := tabSet (fun _ => Core.reset) s.cores g c }
def modCore (s : State) (g : Nat) (f : Core → Core) : State := setCore s g (f (coreOf s g))

/-- A partition. -/
def partOf (s : State) (p : Nat) : Part := tabGet (fun _ => Part.reset) s.parts p
def setPart (s : State) (p : Nat) (x : Part) : State := { s with parts := tabSet (fun _ => Part.reset) s.parts p x }
def modPart (s : State) (p : Nat) (f : Part → Part) : State := setPart s p (f (partOf s p))
def modPkg (s : State) (n : Nat) (f : Pkg → Pkg) : State := setPkg s n (f (pkgOf s n))

/-- Die layer of a core (R19), within its package. -/
def layerOf (g : Nat) : Nat := if g % 512 < 384 then g % 512 / 48 else g % 512 - 384

/-- Key of a core's die layer. -/
def layerKey (g : Nat) : Nat := g / 512 * 8 + layerOf g

/-- Does the partition hold the layer, in a state that keeps its layers (R340, R428)? -/
def holdsLayer (x : Part) (l : Nat) : Bool :=
  x.layers / 2 ^ l % 2 = 1 && !(x.state = 0 || x.state = 5 || x.state = 6 || x.state = 7)

/-- The partition that holds layer `l` of package `n`. -/
def partAt (s : State) (n l : Nat) : Option Nat :=
  (List.range 8).map (n * 8 + ·) |>.find? (fun p => holdsLayer (partOf s p) l)

/-- The partition of a core. -/
def partOfCore (s : State) (g : Nat) : Option Nat := partAt s (g / 512) (layerOf g)

/-- The time a clock reads: the package cycle counter, or a partition's tide counter. -/
def timeOn (s : State) (clk : Option Nat) : Nat :=
  match clk with
  | none => s.now
  | some p => (partOf s p).tide

/-- Is it a control core (R137)? -/
def isControl (g : Nat) : Bool := decide (384 ≤ g % 512)

/-- The clock of a core: its partition's tide counter; the package clock for one that belongs to none, and for a control
core, which takes part in no tide or freeze (R339). -/
def clkOf (s : State) (g : Nat) : Option Nat := if isControl g then none else partOfCore s g

/-- The current cycle at a core. -/
def cnow (s : State) (g : Nat) : Nat := timeOn s (clkOf s g)

/-- The good cores of a partition, in order; one that is saved, restore-failed or checkpointed has none (R428). -/
def partCores (s : State) (p : Nat) : List Nat :=
  ((List.range 8).filter (fun l => holdsLayer (partOf s p) l)).flatMap (fun l =>
    ((List.range 48).map (fun i => p / 8 * 512 + l * 48 + i)).filter (goodCore s))

/-- The lowest scope code that encloses all the cores (R9, R37). -/
def enclosingScope (l : List Nat) : Nat :=
  match l with
  | [] => 1
  | g :: gs =>
    if gs.all (fun h => h = g) then 1
    else if gs.all (fun h => h / 512 = g / 512 ∧ h % 512 / 48 = g % 512 / 48) then 2
    else if gs.all (fun h => h / 512 = g / 512 ∧ h % 512 / 96 = g % 512 / 96) then 3
    else if gs.all (fun h => h / 512 = g / 512 ∧ h % 512 / 192 = g % 512 / 192) then 4
    else if gs.all (fun h => h / 512 = g / 512) then 5
    else 6

/-- The image of a handle in a partition. -/
def imageOf (s : State) (p h : Nat) : Option Loaded := s.images.find? (fun i => i.handle = h && i.part = p)

/-- The launch a core runs. -/
def launchOf (s : State) (g : Nat) : Option Launch :=
  match partOfCore s g, (coreOf s g).entry with
  | some p, some e => (partOf s p).launches.find? (fun l => l.entry = e)
  | _, _ => none

/-- The image a core runs. -/
def coreImage (s : State) (g : Nat) : Option Image :=
  match partOfCore s g, launchOf s g with
  | some p, some l => (imageOf s p l.handle).map (·.img)
  | _, _ => none

/-- The gangs of a core's image. -/
def coreGangs (s : State) (g : Nat) : List Gang := ((coreImage s g).map (·.gangs)).getD []

/-- Own pace of a core (R27). -/
def ownPace (s : State) (g : Nat) : Nat :=
  if g % 512 < 384 then paceOfCode (unitState s (g / 512) (g % 512)) else 1

/-- Effective core pace: the largest of its gang's (R49). -/
def corePace (s : State) (g : Nat) : Nat :=
  ((coreGangs s g).filter (fun x => x.members.any (fun m => m.1 = g))).foldl
    (fun p x => x.members.foldl (fun p m => max p (ownPace s m.1)) p) (ownPace s g)

/-- Unit state table index of the unit of a core a slot position uses (R28, R460). -/
def unitIndex (g slot : Nat) : Nat :=
  let c := g % 512
  match slot with
  | 1 => 384 + 2 * c
  | 2 => 385 + 2 * c
  | 3 => 1152 + c
  | 4 => 1536 + 2 * c
  | 5 => 1537 + 2 * c
  | _ => c

/-- Is the unit that the position uses dead (R27)? -/
def unitDead (s : State) (g slot : Nat) : Bool := decide (unitState s (g / 512) (unitIndex g slot) = 3)

/-- Effective pace of the unit a slot position uses (R29). -/
def unitPace (s : State) (g slot : Nat) : Nat :=
  if 384 ≤ g % 512 then 1 else max (corePace s g) (paceOfCode (unitState s (g / 512) (unitIndex g slot)))

/-- Effective latency (R30, R84). -/
def effLatency (s : State) (g slot cls nominal : Nat) : Nat := nominal * unitPace s g slot + stretchOf s g cls

/-- The smallest multiple of `p` that is not below `x` (R29, R64). -/
def paceUp (p x : Nat) : Nat := (x + p - 1) / p * p

/-- The first tide boundary at or after `x` (R7). -/
def tideUp (x : Nat) : Nat := paceUp 4096 x

/-- Is the cycle in the service window (R96)? -/
def inWindow (x : Nat) : Bool := decide (0xFC0 ≤ x % 4096)

/-! ### Scheduling -/

/-- Adds an event at place `ph` of a cycle; `sub` orders the events of one place, as R378 orders landings by sender. -/
def postSub (s : State) (clk : Option Nat) (cyc ph sub : Nat) (own : Option Src) (ev : Ev) : State :=
  { s with agenda := s.agenda ++ [⟨clk, cyc, ph * 65536 + sub, s.seq, own, ev⟩], seq := s.seq + 1 }

/-- Adds an event. -/
def post (s : State) (clk : Option Nat) (cyc ph : Nat) (own : Option Src) (ev : Ev) : State :=
  postSub s clk cyc ph 0 own ev

/-- Adds an event of a core at one of its cycles. -/
def postAt (s : State) (g cyc ph : Nat) (own : Option Src) (ev : Ev) : State := post s (clkOf s g) cyc ph own ev

/-- The operation issued now by core `g`: with stretch class `cls`, and the engine ordinal it takes, if any. -/
def srcNow (s : State) (g cls cmd : Nat) : Src :=
  let c := coreOf s g
  { core := g, serial := c.pass.id.serial, cls := cls, slot := s.cur.slot, bundle := s.cur.off, cmd := cmd
    issued := cnow s g }

/-- Notes that an operation of pass `serial` of the core lands at cycle `t` (R47, R74). -/
def noteLand (s : State) (g serial t : Nat) (reg : Bool) : State :=
  let n := cnow s g
  modCore s g (fun c => { c with lands := c.lands.filter (fun l => decide (n < l.2.1)) ++ [(serial, t, reg)] })

/-- The pass of an operation; 0 for one that no pass owns. -/
def serialOf (own : Option Src) : Nat := (own.map (·.serial)).getD 0

/-- Takes a free value: the counter rises. -/
def freeWord (s : State) : Word × State := (Config.freeWord s.fresh, { s with fresh := s.fresh + 1 })
def freeVec (s : State) : VReg × State := (Config.freeVec s.fresh, { s with fresh := s.fresh + 1 })

/-- Do two landings write one destination (R85)? -/
def sameDest : Landing → Landing → Bool
  | .sreg a _, .sreg b _ => a = b
  | .vreg a l _, .vreg b k _ => a = b && l &&& k != 0
  | .mreg a l _, .mreg b k _ => a = b && l &&& k != 0
  | .lcr a _, .lcr b _ => a = b
  | .srow a _, .srow b _ => a = b
  | .accRow t r _ l _, .accRow u q _ k _ => t = u && r = q && l &&& k != 0
  | _, _ => false

/-- Port and bank a landing uses: a vector bank's write port, or the scalar or mask file (R89, R90). -/
def landPort : Landing → Option (Nat × Nat)
  | .vreg n _ _ => some (4, n % 6)
  | .sreg _ _ => some (5, 0)
  | .mreg _ _ _ => some (6, 0)
  | _ => none

/-- Does the landing's port take no more in that cycle: one landing in a vector bank, two in the scalar or mask file (R89,
R90)? -/
def portFull (s : State) (g cyc : Nat) (l : Landing) : Bool :=
  match landPort l with
  | none => false
  | some (p, b) => decide ((if p = 4 then 1 else 2) ≤
      ((coreOf s g).ports.filter (fun r => r.port = p && r.bank = b && r.cyc = cyc)).length)

/-- Is the result of an RLD or RATOM to land in the register of landing `l` in cycle `cyc`? -/
def farResult (cyc : Nat) (l : Landing) (w : Nat × Src × Nat × Nat) : Bool :=
  match l with
  | .sreg n _ => w.2.2.1 = cyc && w.2.2.2 % 128 = n
  | _ => false

/-- Is the status word of a DRAIN to land in the register of landing `l` in cycle `cyc`? -/
def farStatus (s : State) (g cyc : Nat) (l : Landing) (d : Nat × Nat × Nat × Bool × Nat) : Bool :=
  match l with
  | .sreg n _ => d.2.2.1 % 128 = n &&
      d.1 / 16 + (if d.2.2.2.1 then scopeHorizon s g d.2.1 else fenceCost s g d.2.1) = cyc
  | _ => false

/-- Is a landing of core `g` with that destination to come in that cycle, or do as many as its port takes? -/
def landingClash (s : State) (g cyc : Nat) (l : Landing) : Bool :=
  s.agenda.any (fun d => d.cyc = cyc && match d.ev with
    | .instr (.resultLanding h k) => h = g && sameDest k l
    | _ => false) || (coreOf s g).waits.any (farResult cyc l) || (coreOf s g).draining.any (farStatus s g cyc l) ||
    portFull s g cyc l

/-- The results and status words that land with `l` in one destination take free values: two landings into one destination in
one cycle have no order (R85). -/
def freeFar (s : State) (g cyc : Nat) (l : Landing) : State :=
  modCore s g (fun c => { c with
    waits := c.waits.map (fun w => if farResult cyc l w then (w.1, w.2.1, w.2.2.1, w.2.2.2 % 128 + 128) else w)
    draining := c.draining.map (fun d =>
      if farStatus s g cyc l d then (d.1, d.2.1, d.2.2.1 % 128 + 128, d.2.2.2) else d) })

/-- The landing with a free value in place of its own: two landings into one destination in one cycle have no order
(R85), and a landing beyond what its port takes, for which R379 gives no fault, has no stated value (R89, R90). -/
def freeLanding (s : State) : Landing → Landing × State
  | .sreg n _ => let f := freeWord s; (.sreg n f.1, f.2)
  | .vreg n l _ => let f := freeVec s; (.vreg n l f.1, f.2)
  | .mreg n l _ => let f := freeWord s; (.mreg n l f.1, f.2)
  | .lcr n _ => let f := freeWord s; (.lcr n (f.1.truncate 32), f.2)
  | .srow n _ => let f := freeVec s; (.srow n (f.1.truncate 512), f.2)
  | .accRow t r m l _ => let f := freeVec s; (.accRow t r m l f.1, f.2)
  | .vstm e w => (.vstm e w, s)

/-- Land(t, c) (R18, R82): the value becomes visible at cycle `cyc`. -/
def land (s : State) (g cyc : Nat) (own : Option Src) (l : Landing) : State :=
  if landingClash s g cyc l then
    let f := freeLanding (freeFar s g cyc l) l
    noteLand (postAt f.2 g cyc 10 own (.instr (.resultLanding g f.1))) g (serialOf own) cyc true
  else noteLand (postAt s g cyc 10 own (.instr (.resultLanding g l))) g (serialOf own) cyc true

/-! ### System registers -/

/-- A system register of a core (R245, R246). -/
def sysGet (c : Core) (i : Nat) : Word := tabGet sysDefault c.sys i
def sysSet (c : Core) (i : Nat) (x : Word) : Core := { c with sys := tabSet sysDefault c.sys i x }

/-- Bits [hi:lo] of a word as a number. -/
def fieldOf (x : Word) (lo n : Nat) : Nat := x.toNat / 2 ^ lo % 2 ^ n

/-- The word with bits [lo + n - 1 : lo] replaced. -/
def withField (x : Word) (lo n v : Nat) : Word :=
  BitVec.ofNat 64 (x.toNat - fieldOf x lo n * 2 ^ lo + v % 2 ^ n * 2 ^ lo)

/-- TRAPENT, TRAPSTAT, FAULTCNT (R358). -/
def trapEnabled (c : Core) : Bool := fieldOf (sysGet c 0x400) 16 1 = 1
def handlerOff (c : Core) : Nat := fieldOf (sysGet c 0x400) 0 16
def redoMax (c : Core) : Nat := fieldOf (sysGet c 0x400) 20 4
def inhibited (c : Core) : Bool := fieldOf (sysGet c 0x401) 0 1 = 1
def redoOf (c : Core) : Nat := fieldOf (sysGet c 0x401) 4 5
def setInh (c : Core) (b : Bool) : Core := sysSet c 0x401 (withField (sysGet c 0x401) 0 1 b.toNat)
def setStop (c : Core) (b : Bool) : Core := sysSet c 0x401 (withField (sysGet c 0x401) 1 1 b.toNat)
def setRedo (c : Core) (n : Nat) : Core := sysSet c 0x401 (withField (sysGet c 0x401) 4 5 n)
def bumpRoll (c : Core) : Core :=
  sysSet c 0x402 (withField (sysGet c 0x402) 0 32 (fieldOf (sysGet c 0x402) 0 32 + 1))
def bumpDefer (c : Core) : Core :=
  sysSet c 0x402 (withField (sysGet c 0x402) 32 16 (min 0xFFFF (fieldOf (sysGet c 0x402) 32 16 + 1)))

/-- ERRCNT and ERRLAST take `n` events of one kind (R399): 0 corrected, 1 uncorrectable, 2 uncorrectable found by the
dredger. They change in the cycle after the event, whose tide ERRLAST names. -/
def countError (s : State) (g kind arr word n : Nat) : State :=
  modCore s g (fun c =>
    let e := sysGet c 0x420
    let e := if kind = 0 then withField e 0 32 (fieldOf e 0 32 + n)
      else if kind = 1 then withField e 32 16 (min 0xFFFF (fieldOf e 32 16 + n))
      else withField e 48 16 (min 0xFFFF (fieldOf e 48 16 + n))
    let k := BitVec.ofNat 64 (arr + (if kind = 0 then 0 else 16) + word % 2 ^ 22 * 32 + (cnow s g - 1) % 2 ^ 32 * 2 ^ 32)
    sysSet (sysSet c 0x420 e) 0x421 k)

/-- An error event is counted in phase 1 of the next cycle (R399). -/
def postError (s : State) (g kind arr word n : Nat) : State :=
  if n = 0 then s else postAt s g (cnow s g + 1) 8 none (.perform g (.count kind arr word n))

/-- The keys without repeats, in first order. -/
def dedup (l : List Nat) : List Nat := l.foldl (fun acc x => if acc.contains x then acc else acc ++ [x]) []

/-! ### Injectors (R403 to R405) -/

/-- Is some array injector of the core armed? -/
def anyArmed (c : Core) : Bool := (List.range 4).any (fun n => fieldOf (sysGet c (0x440 + 2 * n)) 63 1 = 1)

/-- Width of a word of an injectable array (R404); 0: not injectable. -/
def arrayWidth (a : Nat) : Nat :=
  if a = 0 ∨ a = 1 ∨ a = 2 ∨ a = 4 then 64 else if a = 3 ∨ a = 6 then 32 else 0

/-- The code of a protected word with these bits bad: 0 none, 1 + b one bad bit b, 1000 more, which is poison (R397, R398). -/
def badCode : List Nat → Nat
  | [] => 0
  | [b] => 1 + b
  | _ => 1000

/-- Bits flipped after others: one flipped twice is good again. -/
def flipBits (xs ys : List Nat) : List Nat := xs.filter (fun b => !ys.contains b) ++ ys.filter (fun b => !xs.contains b)

/-- One injector at one counted write of `val` to its word: registers, stored value, bits left bad (R405). An ARM with a
field outside the word counts nothing, whatever the mode (R404). -/
def injectOne (sys : Tab Word) (n arr word val : Nat) : Tab Word × Nat × List Nat :=
  let a := tabGet sysDefault sys (0x440 + 2 * n)
  let b := tabGet sysDefault sys (0x441 + 2 * n)
  let width := arrayWidth arr
  let bit := fieldOf a 25 6
  let bit2 := fieldOf a 31 6
  let mode := fieldOf a 37 3
  let lim := fieldOf b 0 32
  if fieldOf a 63 1 = 0 ∨ fieldOf a 0 4 ≠ arr ∨ fieldOf a 4 21 ≠ word ∨ lim = 0 ∨ 4 < mode ∨ width ≤ bit ∨
      width ≤ bit2 then (sys, val, [])
  else
    let cnt := fieldOf b 32 32 + 1
    let sys := tabSet sysDefault sys (0x441 + 2 * n) (withField b 32 32 cnt)
    let fire (t : Tab Word) : Tab Word :=
      let i := tabGet sysDefault t 0x430
      tabSet sysDefault t 0x430 (withField i (4 + n) 1 1)
    let has := val / 2 ^ bit % 2
    let flipped := if has = 1 then val - 2 ^ bit else val + 2 ^ bit
    if mode ≤ 2 then
      if cnt = lim then
        let sys := fire (tabSet sysDefault sys (0x440 + 2 * n) (withField a 63 1 0))
        if mode = 0 then (sys, val, [bit])
        else if mode = 1 then (sys, val, if bit = bit2 then [] else [bit, bit2])
        else (sys, flipped, [])
      else (sys, val, [])
    else if lim ≤ cnt then
      let sys := if cnt = lim then fire sys else sys
      let v := fieldOf a 40 1
      if has = v then (sys, val, []) else if mode = 3 then (sys, flipped, []) else (sys, val, [bit])
    else (sys, val, [])

/-- All injectors at one counted write. -/
def inject (sys : Tab Word) (arr word val : Nat) : Tab Word × Nat × List Nat :=
  (List.range 4).foldl (fun r n =>
    let q := injectOne r.1 n arr word r.2.1
    (q.1, q.2.1, flipBits r.2.2 q.2.2)) (sys, val, [])

/-- Key of a protected word of a core in `Live.bad`. -/
def badKey (arr word : Nat) : Nat := arr * 2 ^ 24 + word

/-- The protected words of word `word` of an array, with the codes that these bad bits give them: a scalar register is
protected in two halves of 32 bits (R160). No injector reaches a mask register (R404). -/
def protWords (arr word : Nat) (bits : List Nat) : List (Nat × Nat) :=
  if arr = 4 then
    [(badKey 4 (2 * word), badCode (bits.filter (· < 32))), (badKey 4 (2 * word + 1), badCode (bits.filter (32 ≤ ·)))]
  else [(badKey arr word, badCode bits)]

/-- The word index of R396 of a protected word: scalar and mask registers have two, and the hold latches follow the masks'. -/
def errorWord (arr k : Nat) : Nat :=
  if arr = 4 then k / 2 else if arr = 6 then 2 * k else if arr = 5 then (if k < 16 then k / 2 else k - 8) else k

/-- Word index of the shadow state (R396) of word `k` of an array, in the order in which R57 and then R359 name its items: 32 scalar
registers, 4 loop coordinates, 48 × 64 lanes, 8 masks, 128 latch words, the cells, the margins of accumulators, 64 directory
entries, the Chamois queue's 128 words, the other margins. DESIGN CHOICE (log entry 56). -/
def shadowWord (arr k : Nat) : Nat :=
  if arr = 4 then errorWord 4 k
  else if arr = 3 then 36 + k
  else if arr = 5 then 3108 + errorWord 5 k
  else if arr = 1 then 3244 + k
  else if arr = 7 then 37036 + k
  else if k < 1024 then 36012 + k
  else 37228 + (k - 1024)

/-- The bad words after a write that leaves these bits bad; a write of a part of a poisoned word leaves it poisoned (R398). -/
def badAfter (full : Bool) (t : Tab Nat) (arr word : Nat) (bits : List Nat) : Tab Nat :=
  (protWords arr word bits).foldl (fun t e =>
    tabSet (fun _ => 0) t e.1 (if full = false ∧ tabGet (fun _ => 0) t e.1 = 1000 then 1000 else e.2)) t

/-- Counted write of word `word` of array `arr` in the live state, of all its bits (`full`) or of a part of them: the value to
store. -/
def liveStore (full : Bool) (c : Core) (arr word val : Nat) : Core × Nat :=
  if anyArmed c then
    let r := inject c.sys arr word val
    ({ c with sys := r.1, live := { c.live with bad := badAfter full c.live.bad arr word r.2.2 } }, r.2.1)
  else ({ c with live := { c.live with bad := badAfter full c.live.bad arr word [] } }, val)
def liveWrite (c : Core) (arr word val : Nat) : Core × Nat := liveStore true c arr word val

/-- A slot word is written into the code window and becomes valid (R244), counted by the injectors where an operation of
the image writes it; with the bits left bad, as bits of its 64-bit word (R160, R405). -/
def codeWord (count : Bool) (c : Core) (w v : Nat) : Core × List Nat :=
  let r := if count && anyArmed c then inject c.sys 6 w v else (c.sys, v, [])
  ({ c with sys := r.1, code := tabSet zeroAt c.code w (BitVec.ofNat 32 r.2.1)
            codeValid := tabSet (fun _ => false) c.codeValid w true }, r.2.2.map (32 * (w % 2) + ·))

/-- The 64-bit words of the code window that writes of these slot words meet, and whether they write the whole word. -/
def codeWords (ws : List (Nat × Nat)) : List (Nat × Bool) :=
  (dedup (ws.map (·.1 / 2))).map (fun k => (k, ws.any (fun e => e.1 = 2 * k) && ws.any (fun e => e.1 = 2 * k + 1)))

/-- The 64-bit words with a corrected bit that writes of these slot words read, since they write a part (R397). -/
def codePartial (c : Core) (ws : List (Nat × Nat)) : List Nat :=
  ((codeWords ws).filter (fun k => let b := tabGet (fun _ => 0) c.codeBad k.1
    !k.2 && decide (b ≠ 0) && decide (b ≠ 1000))).map (fun k => errorWord 6 k.1)

/-- Slot words are written into the code window: a 64-bit word written in part stays poisoned (R398). -/
def writeCode (count : Bool) (c : Core) (ws : List (Nat × Nat)) : Core :=
  let r := ws.foldl (fun (a : Core × List (Nat × List Nat)) e =>
    let q := codeWord count a.1 e.1 e.2
    (q.1, a.2 ++ [(e.1 / 2, q.2)])) (c, [])
  (codeWords ws).foldl (fun c k =>
    let bits := (r.2.filter (fun b => b.1 = k.1)).flatMap (·.2)
    let code := if k.2 = false ∧ tabGet (fun _ => 0) c.codeBad k.1 = 1000 then 1000 else badCode bits
    { c with codeBad := tabSet (fun _ => 0) c.codeBad k.1 code }) r.1

/-! ### Register files -/

def sReg (c : Core) (n : Nat) : Word := tabGet zeroAt c.live.s n
def vReg (c : Core) (n : Nat) : VReg := tabGet zeroAt c.live.v n
def mReg (c : Core) (n : Nat) : Word := tabGet zeroAt c.live.m n
def lcReg (c : Core) (n : Nat) : BitVec 32 := tabGet zeroAt c.live.lc n
def holdReg (c : Core) (q : Nat) : VReg := tabGet zeroAt c.live.hold q
def accCell (c : Core) (t i j : Nat) : Word := tabGet zeroAt c.live.acc (t * 4096 + i * 64 + j)
def dirEntry (c : Core) (e : Nat) : Word := tabGet dirDefault c.live.dir e
def margWord (c : Core) (e w : Nat) : BitVec 32 := tabGet zeroAt c.live.marg (e * 256 + w)

/-- Lane `i` of a vector (R249). -/
def lane (x : VReg) (i : Nat) : Nat := x.toNat / 2 ^ (32 * i) % 2 ^ 32

/-- A vector from its lanes. -/
def ofLanes (f : Nat → Nat) : VReg :=
  BitVec.ofNat 2048 ((List.range 64).foldl (fun a i => a + f i % 2 ^ 32 * 2 ^ (32 * i)) 0)

/-- The lanes of `x` where the bit of `m` is set, of `old` elsewhere. -/
def mergeLanes (m : Word) (x old : VReg) : VReg :=
  if m = BitVec.allOnes 64 then x else ofLanes (fun i => if m.getLsbD i then lane x i else lane old i)

/-- Directory entry fields (R147). -/
def dValid (w : Word) : Bool := fieldOf w 0 1 = 1
def dFmt (w : Word) : Nat := fieldOf w 1 4
def dMst (w : Word) : Bool := fieldOf w 5 1 = 1
def dRows (w : Word) : Nat := fieldOf w 6 7
def dCols (w : Word) : Nat := fieldOf w 13 7
def dBase (w : Word) : Nat := fieldOf w 20 21
def mkDir (valid : Bool) (fmt : Nat) (mst : Bool) (rows cols base : Nat) : Word :=
  BitVec.ofNat 64 (valid.toNat + fmt % 16 * 2 + mst.toNat * 32 + rows % 128 * 64 + cols % 128 * 8192 + base % 2 ^ 21 * 2 ^ 20)
def setDir (c : Core) (e : Nat) (w : Word) : Core :=
  { c with live := { c.live with dir := tabSet dirDefault c.live.dir e w
                                 bad := tabDel c.live.bad (badKey 7 e) } }

/-- Has the protected word of the live state one bad bit? -/
def oneBad (c : Core) (arr k : Nat) : Bool :=
  let b := tabGet (fun _ => 0) c.live.bad (badKey arr k)
  decide (b ≠ 0) && decide (b ≠ 1000)

/-- A word stays poisoned if it was: a part of it is written (R398). -/
def keepPoison (arr k : Nat) (old : Core) (c : Core) : Core :=
  if tabGet (fun _ => 0) old.live.bad (badKey arr k) = 1000 then
    { c with live := { c.live with bad := tabSet (fun _ => 0) c.live.bad (badKey arr k) 1000 } }
  else c

/-- MST of an entry is written, a part of its word (R398). -/
def setMst (c : Core) (e : Nat) (b : Bool) : Core :=
  keepPoison 7 e c (setDir c e (withField (dirEntry c e) 5 1 b.toNat))

/-- Bytes of a tile of a format code (R148). -/
def tileBytes (fmt : Nat) : Nat :=
  match fmt with
  | 0 | 9 | 10 => 16384
  | 1 | 2 | 11 | 12 => 8192
  | 3 | 4 | 5 | 7 | 8 => 4096
  | 6 => 2048
  | _ => 32768

/-- The element format of a tile format code (R148). -/
def tileFmt (fmt : Nat) : Fmt :=
  match fmt with
  | 0 => .f32 | 1 => .bf16 | 2 => .f16 | 3 => .e5m2 | 4 => .e4m3 | 5 => .dm8 | 6 => .e2m1 | 7 => .i8 | 8 => .n8
  | 9 => .i32 | 10 => .n32 | 11 => .i16 | 12 => .n16 | _ => .f64

/-- Does the filled region of the tile hold byte `o` of the slice (R149, R150, R153)? -/
def inRegion (w : Word) (o : Nat) : Bool :=
  let base := dBase w
  let bits := fmtWidth (tileFmt (dFmt w))
  if dValid w ∧ base ≤ o ∧ o < base + tileBytes (dFmt w) then
    let first := (o - base) * 8 / bits
    let last := ((o - base) * 8 + 7) / bits
    (decide (first / 64 < dRows w) && decide (first % 64 < dCols w)) ||
      (decide (last / 64 < dRows w) && decide (last % 64 < dCols w))
  else false

/-- A cell of an accumulator is written, whole or in part (R398, R405, R450). -/
def storeCell (full : Bool) (c : Core) (t i j : Nat) (x : Word) : Core :=
  let r := liveStore full c 1 (t * 4096 + i * 64 + j) x.toNat
  { r.1 with live := { r.1.live with acc := tabSet zeroAt r.1.live.acc (t * 4096 + i * 64 + j) (BitVec.ofNat 64 r.2) } }

def setCell (c : Core) (t i j : Nat) (x : Word) : Core := storeCell true c t i j x

/-- One 64-bit word of a margin slot (two margin words of 32 bits) is written, whole or in part (R152, R398, R405). -/
def storeMarg (full : Bool) (c : Core) (e w : Nat) (x : Nat) : Core :=
  let r := liveStore full c 2 (e * 128 + w) x
  let t := tabSet zeroAt r.1.live.marg (e * 256 + 2 * w) (BitVec.ofNat 32 r.2)
  let t := tabSet zeroAt t (e * 256 + 2 * w + 1) (BitVec.ofNat 32 (r.2 / 2 ^ 32))
  { r.1 with live := { r.1.live with marg := t } }

def setMarg64 (c : Core) (e w : Nat) (x : Nat) : Core := storeMarg true c e w x

/-- All 1,024 bytes of a margin slot are written, from its 256 words (R152). -/
def setMargins (c : Core) (e : Nat) (ws : List (BitVec 32)) : Core :=
  (List.range 128).foldl (fun c i =>
    setMarg64 c e i ((ws.getD (2 * i) 0).toNat + (ws.getD (2 * i + 1) 0).toNat * 2 ^ 32)) c

/-! ### Memory -/

/-- Global address of offset `o` of the slice of core `g` (R137, R138). -/
def sliceAddr (g o : Nat) : Nat := g * 2 ^ 30 + o

/-- One byte of memory; a byte that nothing has written reads 0 (see the assumption log). -/
def memByte (s : State) (a : Nat) : Byte := tabGet zeroAt s.mem a

/-- `n` bytes from an address. -/
def memBytes (s : State) (a : Nat) : Nat → List Byte
  | 0 => []
  | n + 1 => memByte s a :: memBytes s (a + 1) n

/-- Bytes of a core's slice. -/
def sliceBytes (s : State) (g o n : Nat) : List Byte := memBytes s (sliceAddr g o) n

/-- Raw writes of bytes. -/
def memWrite (s : State) (ws : List (Nat × Byte)) : State := { s with mem := tabSetAll zeroAt s.mem ws }

/-- Raw write of consecutive bytes. -/
def memPut (s : State) (a : Nat) (bs : List Byte) : State :=
  memWrite s ((List.range bs.length).map (fun i => (a + i, bs.getD i 0)))

/-- Owner tag of a line (R161). -/
def tagOf (s : State) (a : Nat) : Nat := tabGet (fun _ => 0) s.tags (a / 64)
def setTag (s : State) (a t : Nat) : State :=
  { s with tags := tabSet (fun _ => 0) s.tags (a / 64) t, tagBad := tabDel s.tagBad (a / 64) }

/-- The bad bits of a line's owner tag, which has its own SECDED (R160): as those of a word. -/
def tagBadAt (s : State) (a : Nat) : Nat := tabGet (fun _ => 0) s.tagBad (a / 64)

def poisonTag (s : State) (a : Nat) : State := { s with tagBad := tabSet (fun _ => 0) s.tagBad (a / 64) 1000 }

/-- Bad bits of the 8-byte word of memory that holds `a` (R397, R398). -/
def badAt (s : State) (a : Nat) : Nat := tabGet (fun _ => 0) s.memBad (a / 8)
def setBad (s : State) (a v : Nat) : State := { s with memBad := tabSet (fun _ => 0) s.memBad (a / 8) v }

/-- Bank and line of a slice offset (R92). -/
def bankOf (o : Nat) : Nat := o / 2 ^ 19 % 4 * 4 + o / 64 % 4
def bankLine (o : Nat) : Nat := o / 256 % 2048

/-- Is the line repaired, so that no access reaches the retired line (R455, R459)? -/
def repaired (c : Core) (o : Nat) : Bool :=
  [0, 1].any (fun j =>
    let r := sysGet c (0x4A0 + 2 * bankOf o + j)
    fieldOf r 0 1 = 1 && fieldOf r 8 11 = bankLine o)

/-- Owner tag of the context running on a core (R161). -/
def ctxTag (s : State) (g : Nat) : Nat :=
  match partOfCore s g with
  | some p => p % 8 * 512 + (partOf s p).ctx % 512
  | none => 0

/-- SECDED and the injectors at one write to one 8-byte word of a slice (R397, R398, R405); `full`: all its bytes; `count`: does
the write count for the injectors? -/
def wordWritten (count full : Bool) (g : Nat) (s : State) (word : Nat) : State :=
  let a := sliceAddr g (8 * word)
  let old := badAt s a
  let s := if old ≠ 0 ∧ old ≠ 1000 ∧ full = false then postError s g 0 0 word 1 else s
  let keep := if full then 0 else if old = 1000 then 1000 else 0
  let c := coreOf s g
  if count = true ∧ anyArmed c = true ∧ repaired c (8 * word) = false then
    let v := leNat (memBytes s a 8)
    let r := inject c.sys 0 word v
    let s := setCore s g { c with sys := r.1 }
    let s := if r.2.1 = v then s else memPut s a (leBytes 8 r.2.1)
    setBad s a (if keep = 1000 then 1000 else badCode r.2.2)
  else setBad s a keep

/-- The entries 8 to 63 whose filled region holds a written byte (R153). -/
def hitEntries (c : Core) (offs : List Nat) : List Nat :=
  ((List.range 56).map (· + 8)).filter (fun e => dValid (dirEntry c e) && offs.any (inRegion (dirEntry c e)))

/-- MST is cleared in the entries (R153). -/
def clearMst (c : Core) (es : List Nat) : Core := es.foldl (fun c e => setMst c e false) c

/-- MST is cleared in entries of core `g`; the entries with one bad bit are corrected reads (R397). -/
def clearMstNow (s : State) (g : Nat) (es : List Nat) : State :=
  let one := es.filter (oneBad (coreOf s g) 7)
  one.foldl (fun s e => postError s g 0 7 e 1) (modCore s g (fun c => clearMst c es))

/-- The matrix operations in flight learn of writes into filled regions (R285). -/
def noteDirty (c : Core) (es : List Nat) : Core :=
  { c with mops := c.mops.map (fun m => { m with dirty := m.dirty ++ es }) }

/-- A write meets the filled regions of the entries: matrix operations in flight see them change (R285), and MST is cleared
in all but `except` in the perform phase of its cycle (R153), at once while the partition is frozen. -/
def meetRegions (s : State) (g : Nat) (es : List Nat) (except : Option Nat) (clear : Bool) : State :=
  if es = [] then s
  else
    let s := modCore s g (fun c => noteDirty c es)
    let es := es.filter (fun e => some e ≠ except)
    if clear = true ∧ es ≠ [] then
      match clkOf s g with
      | some p => if (partOf s p).live then postAt s g (cnow s g) 31 none (.perform g (.mstClear es))
          else clearMstNow s g es
      | none => clearMstNow s g es
    else s

/-- The unsigned 32-bit word at a slice offset. -/
def sliceWord (s : State) (g o : Nat) : Nat := leNat (sliceBytes s g o 4)

/-! ### Rendezvous (R62 to R65, R236 to R240) -/

/-- Last arrival, and the largest effective core pace, of a rendezvous. -/
def rdvLast (r : Rdv) : Nat := r.arrivals.foldl (fun m x => max m x.2.1) 0
def rdvPace (s : State) (r : Rdv) : Nat := r.members.foldl (fun m g => max m (corePace s g)) 1

/-- The keeper: the first member in core order (R62). -/
def rdvKeeper (r : Rdv) : Nat := r.members.headD 0

/-- Have all members arrived? -/
def rdvFull (r : Rdv) : Bool := r.members.all (fun g => r.arrivals.any (fun x => x.1 = g))

/-- The other partitions of a pod job (R66). -/
def podPeers (s : State) (p : Nat) : List Nat :=
  if (partOf s p).pod then
    (s.parts.filter (fun e => e.1 ≠ p && e.2.pod && e.2.job = (partOf s p).job && decide (3 ≤ e.2.state))).map (·.1)
  else []

/-- Does a set of failed peers name the core, or its package (R422)? -/
def namesCore (l : List Peer) (g : Nat) : Bool := l.any (fun x => match x with
  | .core h => h = g
  | .pkg n => n = g / 512
  | .link _ _ => false)

/-- Does a member belong to the failed peers of a partition of the job (R423)? -/
def rdvFailed (s : State) (r : Rdv) : Bool :=
  r.members.any (fun g => (r.part :: podPeers s r.part).any (fun p => namesCore (partOf s p).failed g))

def setRdv (s : State) (r : Rdv) : State := { s with rdvs := s.rdvs.map (fun x => if x.id = r.id then r else x) }

/-- The release cycle T (R64) for condition cycle `q`. -/
def rdvRelease (s : State) (r : Rdv) (q : Nat) : Nat :=
  paceUp (rdvPace s r) (max (rdvLast r) q + rdvCost s (rdvKeeper r) r.scope)

/-- When every member has arrived: the release is due, once `q` is known; a watermark is compared at A + cost (R65),
before that cycle's first phase where the cycle is the boundary at which a host wait would freeze (R102), and a launch point
is staged at A (R341). -/
def rdvTry (s : State) (id : Nat) : State :=
  match s.rdvs.find? (fun r => r.id = id) with
  | none => s
  | some r =>
    if r.posted ∨ rdvFull r = false ∨ rdvFailed s r = true then s
    else
      let done (s : State) : State := setRdv s { r with posted := true }
      match r.q, r.kind with
      | some q, 4 => post (done s) (some r.part) (rdvRelease s r q) 18 none (.instr (.launchPointRelease r.part))
      | some q, _ => post (done s) (some r.part) (rdvRelease s r q) 18 none (.instr (.rendezvousRelease id))
      | none, 2 => let c := rdvLast r + rdvCost s (rdvKeeper r) r.scope
          post (done s) (some r.part) c (if c % 4096 = 0 then 0 else 16) none (.instr (.watermarkCompare id))
      | none, 4 => post (done s) (some r.part) (rdvLast r) 33 none (.instr (.launchStaging r.part))
      | none, _ => s

/-- Where the commit flits of a rendezvous count from (R239): the group's previous release. DESIGN CHOICE (log entry 56): its
first rendezvous in a launch counts from the launch's start. -/
def commitFrom (s : State) (r : Rdv) : Nat :=
  let start := ((launchOf s (rdvKeeper r)).map (·.start)).getD 0
  match (partOf s r.part).groupRel.find? (fun e => e.1 = (r.group, rdvKeeper r)) with
  | some e => max e.2 start
  | none => start

/-- q of a commit rendezvous (R239): the latest landing at the keeper of one commit flit from each named member. -/
def commitQ (s : State) (r : Rdv) : Option Nat :=
  let from_ := commitFrom s r
  let named := (List.range (min 64 r.members.length)).filter (fun i => r.a.getLsbD i)
  named.foldl (fun q i => match q with
    | none => none
    | some q =>
      match (coreOf s (rdvKeeper r)).commits.find? (fun e => e.1.core = r.members.getD i 0 &&
          e.1.seg = r.b.toNat % 2 ^ 19 && decide (from_ ≤ e.2)) with
      | some e => some (max q e.2)
      | none => none) (some 0)

/-- A commit rendezvous kept by `g` looks again after a commit flit landed there. -/
def commitCheck (s : State) (g : Nat) : State :=
  (s.rdvs.filter (fun r => r.kind = 3 && rdvKeeper r = g && r.arrivals.any (fun x => x.1 = g))).foldl (fun s r =>
    match commitQ s r with
    | some q => rdvTry (setRdv s { r with q := some q }) r.id
    | none => s) s

/-- A barrier rendezvous whose keeper is `g` compares its word after a write to it (R63, R238): `q` is the cycle from
which the word counts as holding its value. -/
def barrierCheck (s : State) (g cyc : Nat) (offs : List Nat) : State :=
  (s.rdvs.filter (fun r => let o := r.a.toNat
      r.kind = 1 && rdvKeeper r = g && r.q.isNone && r.arrivals.any (fun x => x.1 = g) &&
      offs.any (fun x => o ≤ x && x < o + 4) && decide (r.b.toNat % 2 ^ 32 ≤ sliceWord s g o))).foldl
    (fun s r => rdvTry (setRdv s { r with q := some cyc }) r.id) s

/-- A write to a line drops the dredger's write-back of it (R400). -/
def dropWritebacks (s : State) (g : Nat) (lines : List Nat) : State :=
  { s with agenda := s.agenda.filter (fun d => match d.ev with
    | .instr (.dredgerWriteback h o) => !(h = g && lines.contains (o / 64))
    | _ => true) }

/-- Any write of bytes into a core's slice: the bytes, SECDED and injectors, owner tags of the lines, MST, barrier
words (R153, R161, R238, R397, R405). `except` names the entry a CPYT or MOUT carries; `count` says whether an operation of
the image makes the write, so that an armed injector counts it. -/
def writeSliceAs (count : Bool) (s : State) (g : Nat) (ws : List (Nat × Byte)) (tag : Nat) (clear : Bool) (except : Option Nat)
    (cyc : Nat) : State :=
  let offs := ws.map (·.1)
  let words := dedup (offs.map (· / 8))
  let s := memWrite (dropWritebacks s g (offs.map (· / 64))) (ws.map (fun w => (sliceAddr g w.1, w.2)))
  let s := words.foldl (fun s w =>
    wordWritten count ((List.range 8).all (fun i => offs.contains (8 * w + i))) g s w) s
  let s := (dedup (offs.map (· / 64))).foldl (fun s l => setTag s (sliceAddr g (64 * l)) tag) s
  let s := meetRegions s g (hitEntries (coreOf s g) offs) except clear
  barrierCheck s g cyc offs

/-- A write that an operation of the image makes. -/
def writeSlice (s : State) (g : Nat) (ws : List (Nat × Byte)) (tag : Nat) (clear : Bool) (except : Option Nat)
    (cyc : Nat) : State := writeSliceAs true s g ws tag clear except cyc

/-- The words of a slice that a read of the bytes meets: corrected ones are counted, and the first poisoned one is
named (R397, R398). -/
def readWords (s : State) (g : Nat) (offs : List Nat) : List Nat × Option Nat :=
  let words := dedup (offs.map (· / 8))
  (words.filter (fun w => let b := badAt s (sliceAddr g (8 * w)); b ≠ 0 ∧ b ≠ 1000),
   words.find? (fun w => badAt s (sliceAddr g (8 * w)) = 1000))

/-- The bad words of a slice that a read of the bytes meets, and whether each is poisoned (R397, R398). -/
def badWords (s : State) (g : Nat) (offs : List Nat) : List (Nat × Bool) :=
  ((dedup (offs.map (· / 8))).filter (fun w => decide (badAt s (sliceAddr g (8 * w)) ≠ 0))).map (fun w =>
    (w, decide (badAt s (sliceAddr g (8 * w)) = 1000)))

/-- Counts bad words of array `arr` that a read met: corrected ones, and poisoned ones as uncorrectable (R397 to R399). -/
def countWords (s : State) (g arr : Nat) (ws : List (Nat × Bool)) : State :=
  ws.foldl (fun s w => postError s g w.2.toNat arr w.1 1) s

/-- The lines of a slice whose bad owner tags a read of the bytes meets, and whether each is poisoned (R160, R396). -/
def badTags (s : State) (g : Nat) (offs : List Nat) : List (Nat × Bool) :=
  ((dedup (offs.map (· / 64))).filter (fun l => decide (tagBadAt s (sliceAddr g (64 * l)) ≠ 0))).map (fun l =>
    (l, decide (tagBadAt s (sliceAddr g (64 * l)) = 1000)))

/-- Counts the bad words and owner tags of a slice that a copy of the bytes reads (R397 to R399). -/
def countCopy (s : State) (g : Nat) (offs : List Nat) : State :=
  countWords (countWords s g 0 (badWords s g offs)) g 11 (badTags s g offs)

/-- Counts the corrected words of a read. -/
def countReads (s : State) (g arr : Nat) (ws : List Nat) : State :=
  ws.foldl (fun s w => postError s g 0 arr w 1) s

/-- Counts the corrected words and owner tags that a load of the bytes reads (R397). -/
def countLoad (s : State) (g : Nat) (offs : List Nat) : State :=
  countReads (countReads s g 0 (readWords s g offs).1) g 11 (((badTags s g offs).filter (fun t => !t.2)).map (·.1))

/-- The first poisoned word of a slice, or owner tag of a line, that a read of the bytes consumes (R398): subclass, word
index and array code. -/
def poisonRead (s : State) (g : Nat) (offs : List Nat) : Option (Nat × Nat × Nat) :=
  ((readWords s g offs).2.map (fun w => (2, w, 0))).orElse (fun _ =>
    ((badTags s g offs).find? (·.2)).map (fun t => (6, t.1, 11)))

/-- The poisoned words of a line, by their number in it; number 8 is its owner tag. -/
def lineBad (s : State) (a : Nat) : List (Nat × Nat) :=
  (((List.range 8).map (fun i => (i, badAt s (a + 8 * i)))) ++ [(8, tagBadAt s a)]).filter (fun e => e.2 = 1000)

/-! ### Landings -/

/-- Value of a VMWR cell (R272). -/
def vmwrCell (fmt mode : Nat) (old : Word) (x : Nat) : Word :=
  if mode = 0 then withField old 0 32 x
  else if mode = 1 then withField old 32 32 x
  else if fmt = 14 then BitVec.ofInt 64 (signed 32 x)
  else BitVec.ofNat 64 (convertF (valOf .f32 x) .f64 0 0)

/-- A margin word after a VSTM difference (R154): float or integer. -/
def vstmMargin (isFloat : Bool) (fmt : Fmt) (old : Nat) (ds : List (Nat × Nat)) : Nat :=
  if isFloat then
    let d := ds.foldl (fun a w => addV a (addV (arrayVal fmt w.2) (negV (arrayVal fmt w.1)))) (.fin false 0 1 0)
    if ds.any (fun w => match arrayVal fmt w.1, arrayVal fmt w.2 with
        | .fin .., .fin .. => false
        | _, _ => true) then defaultNaN .f32
    else convertF (addV (valOf .f32 old) d) .f32 0 0
  else
    wrapInt 32 (signed 32 old + ds.foldl (fun a w => a + (intVal fmt w.2 - intVal fmt w.1)) 0)

/-- Margin word `w` of entry `e` is rewritten alone, as half of a word of margin storage (R152, VSTM). DESIGN CHOICE (log
entry 56): a VSTM that updates both halves of one word writes, and counts for an injector (R405), twice. -/
def setMarg32 (c : Core) (e w : Nat) (x : Nat) : Core :=
  let other := (margWord c e (if w % 2 = 0 then w + 1 else w - 1)).toNat
  storeMarg false c e (w / 2) (if w % 2 = 0 then x + other * 2 ^ 32 else other + x * 2 ^ 32)

/-- The margin update of a VSTM (R154). -/
def landVstm (c : Core) (e : Nat) (ws : List (Nat × Nat × Nat × Nat)) : Core :=
  let f := dFmt (dirEntry c e)
  let fmt := tileFmt f
  let isFloat := !fmtIsInt fmt
  let rows := dedup (ws.map (·.1))
  let cols := dedup (ws.map (·.2.1))
  let c := rows.foldl (fun c r =>
    setMarg32 c e r (vstmMargin isFloat fmt (margWord c e r).toNat
      ((ws.filter (fun w => w.1 = r)).map (fun w => (w.2.2.1, w.2.2.2))))) c
  cols.foldl (fun c k =>
    setMarg32 c e (64 + k) (vstmMargin isFloat fmt (margWord c e (64 + k)).toNat
      ((ws.filter (fun w => w.2.1 = k)).map (fun w => (w.2.2.1, w.2.2.2))))) c

/-- Half `h` of the bits that a mask landing writes. -/
def maskHalf (b : Word) (h : Nat) : Nat := b.toNat / 2 ^ (32 * h) % 2 ^ 32

/-- The bad words of mask register `n` after a landing of the bits `b`: a half written whole is good, one written in part keeps
its poison (R160, R398). -/
def maskBad (t : Tab Nat) (n : Nat) (b : Word) : Tab Nat :=
  ([0, 1] : List Nat).foldl (fun t h =>
    let k := badKey 5 (2 * n + h)
    if maskHalf b h = 0 then t
    else if maskHalf b h ≠ 2 ^ 32 - 1 ∧ tabGet (fun _ => 0) t k = 1000 then t
    else tabDel t k) t

/-- The words, as array and index, that a landing writes in part and that hold one bad bit: each is a corrected read (R397). -/
def mergeReads (c : Core) (l : Landing) : List (Nat × Nat) :=
  let parts : List (Nat × Nat) := match l with
    | .accRow t r mode m _ => (7, t) ::
      (if 2 ≤ mode then [] else ((List.range 64).filter (fun i => m.getLsbD i)).map (fun i => (1, t * 4096 + r * 64 + i)))
    | .vstm e ws =>
      (dedup (ws.map (fun w => w.1 / 2) ++ ws.map (fun w => (64 + w.2.1) / 2))).map (fun w => (2, e * 128 + w))
    | .mreg n b _ => (([0, 1] : List Nat).filter (fun h => maskHalf b h ≠ 0 && maskHalf b h ≠ 2 ^ 32 - 1)).map (fun h => (5, 2 * n + h))
    | _ => []
  parts.filter (fun k => oneBad c k.1 k.2)

/-- A result is written to its destination (R81, R82, R220, R254, R272, R301, R302). -/
def landCore (c : Core) : Landing → Core
  | .sreg n x =>
    if n < 32 then
      let r := liveWrite c 4 n x.toNat
      { r.1 with live := { r.1.live with s := tabSet zeroAt r.1.live.s n (BitVec.ofNat 64 r.2) } }
    else c
  | .vreg n m x =>
    if anyArmed c then
      (List.range 64).foldl (fun c i =>
        if m.getLsbD i then
          let r := liveWrite c 3 (n * 64 + i) (lane x i)
          let x := ofLanes (fun j => if j = i then r.2 else lane (vReg r.1 n) j)
          { r.1 with live := { r.1.live with v := tabSet zeroAt r.1.live.v n x } }
        else c) c
    else
      let bad := if c.live.bad = [] then [] else
        c.live.bad.filter (fun e => !(e.1 / 2 ^ 24 = 3 && e.1 % 2 ^ 24 / 64 = n && m.getLsbD (e.1 % 64)))
      { c with live := { c.live with v := tabSet zeroAt c.live.v n (mergeLanes m x (vReg c n)), bad := bad } }
  | .mreg n b x =>
    { c with live := { c.live with m := tabSet zeroAt c.live.m n ((x &&& b) ||| (mReg c n &&& ~~~b))
                                   bad := maskBad c.live.bad n b } }
  | .lcr n x => { c with live := { c.live with lc := tabSet zeroAt c.live.lc n x } }
  | .srow n x => { c with scale := tabSet zeroAt c.scale n x }
  | .accRow t r mode m x =>
    let f := dFmt (dirEntry c t)
    let c := (List.range 64).foldl (fun c i =>
      if m.getLsbD i then storeCell (decide (2 ≤ mode)) c t r i (vmwrCell f mode (accCell c t r i) (lane x i)) else c) c
    setMst c t false
  | .vstm e ws => landVstm c e ws

/-! ### Freezes (R101 to R107) -/

/-- Diameter of the pod entry for a pod job, else 0 (R101). -/
def freezeD (s : State) (p : Nat) : Nat := if (partOf s p).pod then scopeDiameter s (p / 8 * 512) 6 else 0

/-- A freeze with reason `bit` is decided at cycle `r` of the tide counter (R101): a new one takes effect at its
boundary, after what that boundary itself decides, and one decided while another is pending or standing joins it. -/
def decideFreezeAt (s : State) (p bit r : Nat) : State :=
  let x := partOf s p
  let x' := { x with reasons := x.reasons ||| (1#5 <<< bit), frzNext :=
    if x.live ∧ x.pendB = none then 1#5 <<< bit else x.frzNext ||| (1#5 <<< bit) }
  if x.live = true ∧ x.pendB = none then
    let b := tideUp (r + freezeD s p)
    postSub (setPart s p { x' with pendB := some b }) (some p) b 0 1 none (.instr (.freezeBoundary p))
  else setPart s p x'

/-- A freeze decision of a partition, and of the other packages of its pod job (reason bit 3), whose counters are equal to
its own (R66) and which learn of it at the decision cycle, frozen or not. -/
def decideFreeze (s : State) (p bit r : Nat) : State :=
  if 3 ≤ (partOf s p).state then
    (podPeers s p).foldl (fun s q => post s none (s.now + (r - (partOf s p).tide)) 1 none (.instr (.podFreeze q r)))
      (decideFreezeAt s p bit r)
  else s

/-- Does a reason of its own stand at the partition: any but bit 3, the freeze of another package (R101)? -/
def ownReason (x : Part) : Bool := decide (x.reasons &&& 0b10111#5 ≠ 0)

/-- A resume is due at the next package tide boundary (R106); the latest clearing of the reasons names it. -/
def postResume (s : State) (p : Nat) : State :=
  let b := tideUp (s.now + freezeD s p)
  post (modPart s p (fun x => { x with resumeAt := some b })) none b 0 none (.instr (.partitionResume p))

/-- Bit 3 at the other packages of a pod job follows whether a reason of the job's other packages stands. -/
def clearReasonAt (s : State) (p bit : Nat) : State :=
  let x := partOf s p
  let left := x.reasons &&& ~~~(1#5 <<< bit)
  let s := setPart s p { x with reasons := left }
  if left = 0 then
    if x.live then
      match x.pendB with
      | some b => if (partOf s p).tide ≤ b - freezeD s p then modPart s p (fun y => { y with pendB := none }) else s
      | none => s
    else postResume s p
  else s

/-- A freeze reason clears (R101, R106). -/
def clearReason (s : State) (p bit : Nat) : State :=
  let s := clearReasonAt s p bit
  if ownReason (partOf s p) = false then
    (podPeers s p).foldl (fun s q =>
      if (podPeers s q).all (fun t => !ownReason (partOf s t)) then clearReasonAt s q 3 else s) s
  else s

/-! ### Peers -/

/-- The horizon a recall or a peer change takes (R363, R422): of the pod for a pod job, else of the package. -/
def bigHorizon (s : State) (g : Nat) : Nat :=
  match partOfCore s g with
  | some p => if (partOf s p).pod then scopeHorizon s g 6 else scopeHorizon s g 5
  | none => scopeHorizon s g 5

/-- The control cores record a change of the partition's failed-peer and dead-link sets (R422); every core's copy takes
it one horizon later. -/
def recordAt (s : State) (p : Nat) (x : Peer) : State :=
  let y := partOf s p
  if y.failed.contains x then s
  else
    let s := setPart s p { y with failed := y.failed ++ [x] }
    let h := if y.pod then scopeHorizon s (p / 8 * 512) 6 else scopeHorizon s (p / 8 * 512) 5
    post s none (s.now + h) 4 none (.instr (.peerSetUpdate p x))

/-- The partitions of the job of a partition (R66). -/
def jobParts (s : State) (p : Nat) : List Nat := p :: podPeers s p

/-- The control cores of every partition of the job record the change. -/
def recordPeer (s : State) (p : Nat) (x : Peer) : State := (jobParts s p).foldl (fun s q => recordAt s q x) s

/-- A failed peer freezes each partition of its job at its next tide boundary, with reason bit 2 (R373, R423). -/
def freezeFailed (s : State) (p : Nat) : State :=
  (jobParts s p).foldl (fun s q => decideFreeze s q 2 ((partOf s q).tide + 1)) s

/-! ### Flits -/

/-- A flit of instance `inst` from core `g` to `home`, that no notice names an operation for. -/
def newFlit (s : State) (g home : Nat) (inst : PassId) (dep land lback : Nat) (path : List Hop) (x : Load) : Flit :=
  { id := s.seq, lead := s.seq, core := g, home := home, inst := inst, ref := none, lanes := false, tag := ctxTag s g, dep := dep
    land := land, lback := lback, path := path, st := 0, src := none, load := x }

/-- A flit departs at its cycle, unless a rollback of its pass comes first (R361). Its `id` is
`s.seq`. -/
def launchFlit (s : State) (f : Flit) : State :=
  postAt { s with flits := s.flits ++ [f] } f.core f.dep 25 f.src (.instr (.linkFlit f.id 0))

/-! ### Taking a fault (R354 to R361, R373, R461) -/

/-- Rank of a fault class in the order of R355. -/
def faultRank (cls : Nat) : Nat :=
  match cls with
  | 0x0B => 1 | 0x04 => 2 | 0x0C => 3 | 0x0E => 4 | 0x05 => 5 | 0x06 => 6 | 0x03 => 7 | 0x02 => 8 | 0x08 => 9
  | 0x09 => 10 | 0x0A => 11 | 0x0D => 12 | 0x07 => 13 | _ => 14

/-- The fault record's words FREC0 to FREC7 (R356), for a fault of unit `vid` detected at cycle `d`. -/
def recordWords (g vid : Nat) (pass : Pass) (lc : Tab (BitVec 32)) (d : Nat) (r : FaultRec) : List Word :=
  let l (n : Nat) := (tabGet (zeroAt (w := 32)) lc n).toNat
  [ BitVec.ofNat 64 (r.cls + r.sub * 2 ^ 8 + r.slot * 2 ^ 16 + g % 512 * 2 ^ 24 + g / 512 * 2 ^ 33 + vid * 2 ^ 48),
    BitVec.ofNat 64 (pass.id.seg + r.bundle % 2 ^ 16 * 2 ^ 32 + r.cmd % 2 ^ 16 * 2 ^ 48),
    BitVec.ofNat 64 (l 0 + l 1 * 2 ^ 32), BitVec.ofNat 64 (l 2 + l 3 * 2 ^ 32),
    BitVec.ofNat 64 (r.extent % 2 ^ 32 + r.piece % 2 ^ 16 * 2 ^ 32), BitVec.ofNat 64 (r.addr % 2 ^ 48),
    BitVec.ofNat 64 d, r.detail ]

/-- The record is written (R356). -/
def writeRecord (c : Core) (g d : Nat) (pass : Pass) (lc : Tab (BitVec 32)) (r : FaultRec) : Core :=
  ((List.range 8).zip (recordWords g c.vid pass lc d r)).foldl (fun c e => sysSet c (0x408 + e.1) e.2) c

/-- Every operation of a pass is discarded or cancelled (R361, 1 and 2): what it still had to land, its events, its
matrix operations and its transfers. A notice still on its way for one of them is discarded on arrival (R417); those that
are held stay, for the next DRAIN (R421). -/
def discardPass (s : State) (g serial : Nat) : State :=
  let mine (o : Option Src) : Bool := match o with
    | some x => x.core = g && x.serial = serial
    | none => false
  let first := 16 * (coreOf s g).pass.m
  let ours (r : OpRef) : Bool := decide (r.core = g) && decide (first ≤ r.opno)
  let s := { s with
    agenda := s.agenda.filter (fun d => !mine d.own && (match d.ev with
      | .issue h => h ≠ g
      | .instr (.cycslip h) => h ≠ g
      | _ => true))
    bops := s.bops.filter (fun b => !mine b.src)
    xfers := s.xfers.map (fun x => if mine (some x.src) && x.kind ≠ 5 then { x with cancelled := true } else x)
    flits := (s.flits.filter (fun f => !(mine f.src && decide (cnow s g < f.dep)))).map (fun f =>
      if f.ref.any ours then { f with ref := none } else f)
    notes := s.notes.filter (fun n => !ours n.ref) }
  modCore s g (fun c => { c with
    mops := c.mops.filter (fun m => !mine (some m.src))
    ports := c.ports.filter (fun r => r.serial ≠ serial)
    ops := c.ops.filter (fun o => o.2.2 ≠ serial)
    draining := c.draining.filter (fun x => x.2.2.2.2 ≠ serial)
    waits := c.waits.filter (fun w => w.2.1.serial ≠ serial)
    writes := c.writes.filter (fun w => decide (w.1 < first))
    lands := c.lands.filter (fun l => l.1 ≠ serial) })

/-- The arrival of a core at a rendezvous is withdrawn, and with it the release (R372). -/
def withdraw (s : State) (g : Nat) : State :=
  match (coreOf s g).run with
  | .held id _ =>
    let lp := s.rdvs.any (fun r => r.id = id && r.kind = 4)
    let part := match s.rdvs.find? (fun r => r.id = id) with
      | some r => r.part
      | none => 0
    let s := if lp then modPart s part (fun x => { x with staged := [], ready := [], waiting := [] }) else s
    { s with
      rdvs := s.rdvs.map (fun r => if r.id = id then
        let q := if r.kind = 0 then r.q
          else if r.kind = 2 ∨ r.kind = 4 then none
          else if rdvKeeper r = g then none else r.q
        { r with arrivals := r.arrivals.filter (fun a => a.1 ≠ g), posted := false, q := q } else r)
      agenda := s.agenda.filter (fun d => match d.ev with
        | .instr (.rendezvousRelease x) => x ≠ id
        | .instr (.watermarkCompare x) => x ≠ id
        | .instr (.launchStaging p) => !lp || p ≠ part
        | .instr (.launchPointRelease p) => !lp || p ≠ part
        | _ => true) }
  | _ => s

/-- The core stops (R373): it reports to its control core, which freezes the partition, and it is a failed peer (R422). -/
def stopCore (s : State) (g : Nat) : State :=
  let s := modCore s g (fun c => { setStop c true with run := .stopped })
  match partOfCore s g with
  | some p => recordPeer (freezeFailed s p) p (.core g)
  | none => s

/-- Rollback (R361) from cycle `d`: discard, cancel, recall, record, count; the undo and the handler's entry (R367)
follow as events. -/
def rollback (s : State) (g d : Nat) (r : FaultRec) : State :=
  let c := coreOf s g
  let pass := c.pass
  let inh := inhibited c
  let k := pass.undo.length
  let stops := !trapEnabled c || inh || decide (redoMax c + 1 < redoOf c + 1)
  let s := discardPass (withdraw s g) g pass.id.serial
  let s := modCore s g (fun c =>
    let c := bumpRoll (writeRecord c g d pass (if inh then c.shadow2 else c.shadow).lc r)
    let c := if stops then c else setRedo c (redoOf c + 1)
    { c with run := .rolling, roll := some ⟨d, faultRank r.cls, r.slot, k, if inh then
        ((c.roll.map (·.pass)).getD pass) else pass⟩ })
  let lnd := d + 1 + bigHorizon s g
  let s := pass.homes.foldl (fun s h =>
    launchFlit s (newFlit s g h.home pass.id (d + 1) lnd h.lback h.path (.recall pass.id))) s
  let s := postAt s g (d + 1) 36 none (.instr (.undoWriteback g))
  if stops then stopCore s g
  else postAt s g (paceUp (corePace s g) (d + 8 + k)) 21 none (.instr (.handlerEntry g))

/-- Another fault in the cycle of a rollback: the record names the first in the order of R355. -/
def mergeFault (s : State) (g : Nat) (rl : Roll) (r : FaultRec) : State :=
  if faultRank r.cls < rl.rank ∨ (faultRank r.cls = rl.rank ∧ r.slot < rl.slot) then
    modCore s g (fun c => { writeRecord c g rl.d c.pass (if inhibited c then c.shadow2 else c.shadow).lc r with
      roll := some { rl with rank := faultRank r.cls, slot := r.slot } })
  else s

/-- The uncorrectable word that a fault record names is counted (R399). -/
def countUncorr (s : State) (g : Nat) (r : FaultRec) : State :=
  if r.cls = 0x0B then postError s g 1 (r.detail.toNat % 16) r.addr 1 else s

/-- A fault that is held until the re-entry (R461). -/
def holdFault (s : State) (g : Nat) (r : FaultRec) : State :=
  modCore s g (fun c => { c with heldFaults := c.heldFaults ++ [r] })

/-- TAKING A FAULT at core `g` in the current cycle. In the same cycle as another the record names the first in the
order of R355; one detected while INH is 0 between a rollback and its re-entry is held (R461); any other rolls the
pass back (R361). -/
def takeFault (s : State) (g : Nat) (r : FaultRec) : State :=
  let c := coreOf s g
  let d := cnow s g
  let s := countUncorr s g r
  match c.run with
  | .idle => s
  | .ending => s
  | .held _ _ => if c.entry.isNone then s else rollback s g d r
  | .stopped =>
    match c.roll with
    | some rl => if rl.d = d then mergeFault s g rl r else s
    | none => s
  | .rolling =>
    match c.roll with
    | some rl => if rl.d = d then mergeFault s g rl r else holdFault s g r
    | none => s
  | .reenter _ _ => holdFault s g r
  | _ => rollback s g d r

/-- A fault record of the slot being issued. -/
def slotFault (s : State) (cls sub : Nat) (addr : Nat) (detail : Word) : FaultRec :=
  { cls := cls, sub := sub, slot := s.cur.slot, bundle := s.cur.off, cmd := 0xFFFF, extent := 0, piece := 0
    addr := addr, detail := detail }

/-- The first of several faults in the order of R355: of one class, the one of the earlier slot. -/
def firstFault : List FaultRec → Option FaultRec
  | [] => none
  | r :: rs =>
    match firstFault rs with
    | none => some r
    | some q => if faultRank q.cls < faultRank r.cls ∨ (faultRank q.cls = faultRank r.cls ∧ q.slot < r.slot) then some q else some r

/-- The faults of a slot are noted with its bundle's. -/
def noteFaults (s : State) (fs : List FaultRec) : State := { s with cur := { s.cur with faults := s.cur.faults ++ fs } }

/-- An instruction with the faults found at its issue: with none it has its effect; with some, the core takes the first. -/
def checked (s : State) (fs : List FaultRec) (act : State → State) : Host.Outcome State Fault Refusal :=
  match firstFault fs with
  | some r => .next (takeFault (noteFaults s fs) s.cur.g r)
  | none => .next (act s)

/-- May the core still take a fault of this cycle at a later place of it? -/
def takesLater (c : Core) : Bool :=
  match c.run with
  | .running => true
  | .horizon => true
  | .held _ _ => c.entry.isSome
  | _ => false

/-- A fault found away from an issue, in phase 1 (`ph` is place 17) or before the issue of phase 2 (place 21): it is kept
with the others of its cycle at the core, which takes the first of them all at that place (R355). -/
def findFault (s : State) (g ph : Nat) (r : FaultRec) : State :=
  if takesLater (coreOf s g) then
    let due (d : Due) : Bool := d.ev = .faults g && d.clk = clkOf s g && d.cyc = cnow s g && d.ph = ph * 65536 + 0xFFFF
    let s := if s.agenda.any due then s else postSub s (clkOf s g) (cnow s g) ph 0xFFFF none (.faults g)
    modCore s g (fun c => { c with found := c.found ++ [r] })
  else takeFault s g r

end Sys2Proof.Machine
end

