-- ==== Sys2Proof/Machine/Operands.lean ====
section
/-! DEFINITION. Operand forms: register fields, guards, lane masks, immediates, addresses, ports, and how a result is
sent to its destination (07, R193 to R197; 08, R219; 09, R249 to R254; 03, R89 to R96). -/

namespace Sys2Proof.Machine

/-- The value of a field of the S numbering (R44, R193, R219). -/
def sVal (s : State) (f : RegField) : Word :=
  let c := coreOf s s.cur.g
  let n := f.toNat
  if n < 32 then sReg c n
  else if n = 33 then BitVec.ofNat 64 c.vid
  else if n = 34 then BitVec.ofNat 64 c.nvc
  else if n = 35 then BitVec.ofNat 64 (s.cur.g % 512)
  else if 36 ≤ n ∧ n < 40 then (lcReg c (n - 36)).zeroExtend 64
  else if n = 40 then BitVec.ofNat 64 (cnow s s.cur.g)
  else 0

/-- The hold latch a slot reads: pipe 1's in the second V slot, else pipe 0's (R91). -/
def latchOf (s : State) : Nat := if s.cur.slot = 2 then 1 else 0

/-- The value of a field of the V numbering that names a vector register or h (R193, R251). -/
def vVal (s : State) (f : RegField) : VReg :=
  let c := coreOf s s.cur.g
  if f.toNat = 56 then holdReg c (latchOf s) else vReg c f.toNat

/-- The value of a mask code of the V numbering (R193, R266). -/
def mVal (s : State) (f : RegField) : Word := mReg (coreOf s s.cur.g) (f.toNat - 48)

/-- The guard of a modifier (R196, R197). -/
def guardOf (s : State) (m : Modifier) : Bool := !m.gen || (decide (sVal s m.greg ≠ 0) != m.gneg)
def guardMd (s : State) : Md → Bool
  | none => true
  | some m => guardOf s m

/-- The lane mask of a V slot (R253): every lane when it has none. -/
def laneMask (s : State) : Md → Word
  | none => BitVec.allOnes 64
  | some m => if m.xf.getLsbD 19 then mReg (coreOf s s.cur.g) (m.xf.extractLsb' 16 3).toNat else BitVec.allOnes 64

/-- The XF field of a modifier, 0 when there is none (R253). -/
def xfOf : Md → Nat
  | none => 0
  | some m => m.xf.toNat

/-- The immediate as a 64-bit two's-complement value (R195). -/
def immVal (i : Imm) : Word := BitVec.ofInt 64 i.toInt

/-- The engine ordinal that an L, Q or M slot takes in its pass (R356, CMD). -/
def nextCmd (s : State) : Nat := (coreOf s s.cur.g).pass.engines
def takeCmd (s : State) : State :=
  modCore s s.cur.g (fun c => { c with pass := { c.pass with engines := c.pass.engines + 1 } })

/-! ### Consuming bad words (R397, R398) -/

/-- Array code and protected words of a source location of R198 (`Instr.srcs`). -/
def locWords (s : State) (l : Nat) : Nat × Nat × Nat :=
  if l < 32 then (4, 2 * l, 2)
  else if 64 ≤ l ∧ l < 112 then (3, (l - 64) * 64, 64)
  else if 112 ≤ l ∧ l < 120 then (5, 2 * (l - 112), 2)
  else if l = 120 then (5, 16 + 64 * latchOf s, 64)
  else (0, 0, 0)

/-- The bad words of a source location: array, word index, code. -/
def locBad (s : State) (l : Nat) : List (Nat × Nat × Nat) :=
  let w := locWords s l
  ((coreOf s s.cur.g).live.bad.filter (fun e =>
    w.2.2 ≠ 0 && e.1 / 2 ^ 24 = w.1 && decide (w.2.1 ≤ e.1 % 2 ^ 24) && decide (e.1 % 2 ^ 24 < w.2.1 + w.2.2))).map
    (fun e => (w.1, errorWord w.1 (e.1 % 2 ^ 24), e.2))

/-- The register that an accumulating slot reads as its D, and its lanes: those masked off are not read (R253). -/
def accOperand (s : State) : Instr → Option (Nat × Word)
  | .vfma _ d _ _ _ m => some (locV d, laneMask s m)
  | .vfms _ d _ _ _ m => some (locV d, laneMask s m)
  | .vdot _ d _ _ _ m => some (locV d, laneMask s m)
  | _ => none

/-- The bad words that a slot's operands meet. An accumulating D stands first among the sources. -/
def operandBad (s : State) (i : Instr) : List (Nat × Nat × Nat) :=
  match accOperand s i with
  | none => i.srcs.flatMap (locBad s)
  | some (l, m) => (locBad s l).filter (fun e => m.getLsbD (e.2.1 % 64)) ++ i.srcs.tail.flatMap (locBad s)

/-- UNCORR of a register operand (R398). -/
def operandFaults (s : State) (i : Instr) : List FaultRec :=
  ((operandBad s i).filter (fun e => e.2.2 = 1000)).map (fun e =>
    slotFault s 0x0B 1 e.2.1 (BitVec.ofNat 64 e.1))

/-- Corrected operand reads are counted (R397, R399). -/
def countOperands (s : State) (i : Instr) : State :=
  ((operandBad s i).filter (fun e => e.2.2 ≠ 1000)).foldl (fun s e => postError s s.cur.g 0 e.1 e.2.1 1) s

/-- Work aimed at a dead unit (R460). -/
def deadFaults (s : State) : List FaultRec :=
  if 1 ≤ s.cur.slot ∧ s.cur.slot ≤ 5 ∧ unitDead s s.cur.g s.cur.slot = true then [slotFault s 0x0A 10 0 0] else []

/-! ### Ports (R89 to R96, R378) -/

def reserve (s : State) (g port bank line cyc : Nat) : State :=
  let t := cnow s g
  modCore s g (fun c =>
    let keep := c.ports.filter (fun r => decide (t ≤ r.cyc) || (decide (r.port = 2) && decide (t ≤ r.line)))
    { c with ports := ⟨port, bank, line, cyc, c.pass.id.serial⟩ :: keep })

/-- The vector registers a slot reads (R90, R251). -/
def vregsRead (i : Instr) : List Nat := dedup ((i.srcs.filter (fun l => 64 ≤ l && l < 112)).map (· - 64))

/-- BANK 1: two distinct registers of one vector bank read in one bundle (R90). -/
def vreadFaults (s : State) (i : Instr) : List FaultRec :=
  let rs := vregsRead i
  let all := s.cur.vreads ++ rs
  ((rs.filter (fun r => all.any (fun q => q ≠ r && q % 6 = r % 6))).take 1).map (fun r =>
    slotFault s 0x09 1 0 (BitVec.ofNat 64 (r % 6 * 16)))

def noteVreads (s : State) (i : Instr) : State :=
  { s with cur := { s.cur with vreads := dedup (s.cur.vreads ++ vregsRead i) } }

/-- BANK 2: the landing's write port is taken (R354). R379 gives it to vector and mask landings alone. -/
def landFaults (s : State) (g cyc : Nat) (l : Landing) : List FaultRec :=
  if portFull s g cyc l then
    [slotFault s 0x09 2 0 (BitVec.ofNat 64 (match landPort l with
      | some (4, b) => b * 16
      | _ => 0))] else []

/-- A result of the issuing core lands at cycle `cyc`, its port reserved (R82, R378). -/
def landResult (s : State) (cyc cls : Nat) (l : Landing) : State :=
  let g := s.cur.g
  let t := land s g cyc (some (srcNow s g cls 0xFFFF)) l
  match landPort l with
  | some (p, b) => reserve t g p b 0 cyc
  | none => t

/-- The landing cycle of a result of class `cls` issued now by the slot's unit (R82, R83, R84). -/
def landCyc (s : State) (cls nominal : Nat) : Nat := cnow s s.cur.g + effLatency s s.cur.g s.cur.slot cls nominal

/-- A scalar result; destination zero discards it (R194, R220). -/
def scalarResult (s : State) (d : RegField) (cls nominal : Nat) (x : Word) : State :=
  if d.toNat < 32 then landResult s (landCyc s cls nominal) cls (.sreg d.toNat x) else s

/-- The lines of a slice that the bytes lie in. -/
def linesOf (offs : List Nat) : List Nat := dedup (offs.map (· / 64))

/-- The cycle at core `h` that is cycle `cyc` at core `g`. -/
def cycAt (s : State) (g h cyc : Nat) : Nat := cnow s h + (cyc - cnow s g)

/-- The ports that a bank-ALU operation of another core uses when it lands at `t`: port, offset, cycle. -/
def aluUses (off t : Nat) : List (Nat × Nat × Nat) := [(0, off, t), (3, off, t), (1, off, t + 2)]

/-- Where line `l` of a SEND to slot `n` goes at core `h`, as the slot is armed now (R326). -/
def slotUse (s : State) (h n l t : Nat) : List (Nat × Nat × Nat) :=
  let w := tabGet zeroAt (coreOf s h).recv n
  if w.getLsbD 63 then [(1, w.toNat % 2 ^ 21 + 64 * l, t)] else []

/-- The ports that a flit on its way uses at its home: port, offset, cycle. -/
def flitUses (s : State) (f : Flit) : List (Nat × Nat × Nat) :=
  let t := if f.st < 8 then cycAt s f.core f.home f.land else f.land
  match f.load with
  | .write ws _ _ => (ws.take 1).map (fun w => (1, w.1, t))
  | .slot n l _ _ => slotUse s f.home n l t
  | .atom off .. => aluUses off t
  | .merge _ _ es => (List.range es.length).flatMap (fun e => aluUses (es.getD e (0, 0)).1 (t + e))
  | .readReq a .. => [(0, a % 2 ^ 30, t)]
  | _ => []

/-- Does a flit come to core `h` for its partition, from an operation issued before this cycle, to take a port there? Lost and
late flits take none, and the landings of a core after a horizon completion yield (R420). -/
def flitComes (s : State) (h : Nat) (f : Flit) : Bool :=
  f.home = h && (f.st % 8 = 0 || f.st % 8 = 3) && !(coreOf s f.core).soft &&
    f.src.all (fun x => decide (x.issued < cnow s f.core)) &&
    ((partOfCore s h).map (· % 8)) = some (f.tag / 512)

/-- The ports that piece `k` of another core's transfer uses at core `h`, when its first half is due at cycle `t` of that core. -/
def pieceUses (s : State) (h : Nat) (x : Xfer) (k t : Nat) : List (Nat × Nat × Nat) :=
  let p := x.pieces.getD k (0, 0, 0, 0)
  let off := p.2.2.1 % 2 ^ 30
  if x.put then
    let u := cycAt s x.g h (t + x.lout)
    if (coreOf s x.g).soft then []
    else if x.kind = 6 then (if x.dst = h then slotUse s h x.entry k u else [])
    else if x.kind = 7 then
      (if h / 512 = x.dst / 8 ∧ h % 512 / 48 = x.dst % 8 ∧ goodCore s h = true then [(1, x.entry + 64 * k, u)] else [])
    else if x.dst = h ∧ p.1 < 2 ^ 21 then [(1, off, u)] else []
  else if x.dst = h ∧ off < 2 ^ 21 then [(0, off, cycAt s x.g h t)] else []

/-- The ports of core `h` that operations which other cores have issued before this cycle are still to use (R378). DESIGN CHOICE
(log entry 56): of two accesses of which another core's is issued later, or in the same cycle, none raises a fault. -/
def foreignUses (s : State) (h : Nat) : List Resv :=
  let us := (s.flits.filter (flitComes s h)).flatMap (flitUses s) ++
    s.agenda.flatMap (fun d => match d.ev with
      | .instr (.pieceTransfer op k true) =>
        match s.xfers.find? (fun x => x.id = op) with
        | some x => if x.g ≠ h ∧ x.cancelled = false ∧ x.src.issued < cnow s x.g then pieceUses s h x k d.cyc else []
        | none => []
      | _ => [])
  us.map (fun u => ⟨u.1, bankOf u.2.1, u.2.1 / 64, u.2.2, 0⟩)

/-- Ports that the core's own accesses find taken: in a recovery run the landings of other cores (serial 0) and of the
lighters (port 7) yield (R371). -/
def coreTaken (s : State) (g : Nat) : List Resv :=
  let c := coreOf s g
  if c.recovery then c.ports.filter (fun r => r.serial ≠ 0 && r.port ≠ 7) else c.ports ++ foreignUses s g

/-- Is the service window shut to the core's accesses (R96)? A recovery run that RETT began takes every cycle (R371). -/
def windowShut (s : State) (g cyc : Nat) : Bool :=
  inWindow cyc && !((coreOf s g).recovery && !(coreOf s g).recoverySync)

/-- Faults of reading lines through the scratchpad read ports in cycle `cyc`: BANK 6, 5, 3 (R93, R94, R96), and with `bank7`
BANK 7, a second bank-ALU read (R158, R322). DESIGN CHOICE (log entry 56): a bank-ALU read that meets another of the same bank at
another line fits BANK 3 and BANK 7, and raises BANK 3. -/
def readPortFaults (s : State) (g : Nat) (lines : List Nat) (cyc : Nat) (bank7 : Bool) : List FaultRec :=
  let c := { coreOf s g with ports := coreTaken s g }
  let f (l : Nat) : Option (Nat × Nat) :=
    let b := bankOf (64 * l)
    if windowShut s g cyc then some (6, b)
    else if c.ports.any (fun r => r.port = 2 && r.bank = b && decide (r.cyc ≤ cyc) && decide (cyc ≤ r.line)) then some (5, b)
    else if c.ports.any (fun r => r.port = 0 && r.bank = b && r.cyc = cyc && r.line ≠ l) ||
        lines.any (fun k => k ≠ l && bankOf (64 * k) = b) then some (3, b)
    else if bank7 && c.ports.any (fun r => r.port = 3 && r.bank = b && r.cyc = cyc) then some (7, b)
    else none
  ((lines.filterMap f).take 1).map (fun e => slotFault s 0x09 e.1 0 (BitVec.ofNat 64 e.2))

/-- Does a port's use take the write port of a bank in a cycle from a store now to the bytes? The write of a bank-ALU
operation leaves it to a store into the very bytes it wrote in phase 1, which the store overwrites (R228). -/
def writeTaken (r : Resv) (bank cyc : Nat) (offs : List Nat) : Bool :=
  r.bank = bank && r.cyc = cyc && (r.port = 1 || r.port = 7 ||
    (r.port = 8 && !offs.any (fun o => decide (r.line / 16 ≤ o) && decide (o < r.line / 16 + r.line % 16))))

/-- Faults of writing lines through the write ports in cycle `cyc`: BANK 6, 4, 8 (R93, R95, R96). -/
def writePortFaults (s : State) (g : Nat) (offs : List Nat) (cyc : Nat) : List FaultRec :=
  let c := { coreOf s g with ports := coreTaken s g }
  let lines := linesOf offs
  let f (l : Nat) : Option (Nat × Nat) :=
    let b := bankOf (64 * l)
    if windowShut s g cyc then some (6, b)
    else if c.ports.any (fun r => writeTaken r b cyc (if cyc = cnow s g then offs else [])) ||
        lines.any (fun k => k ≠ l && bankOf (64 * k) = b) then some (4, b)
    else none
  let late := s.bops.find? (fun x => x.g = g && x.src.isSome && x.inst.isNone &&
    offs.any (fun o => decide (x.off ≤ o) && decide (o < x.off + x.w)))
  ((lines.filterMap f).take 1).map (fun e => slotFault s 0x09 e.1 0 (BitVec.ofNat 64 e.2)) ++
    late.toList.map (fun x => slotFault s 0x09 8 0 (BitVec.ofNat 64 (bankOf x.off)))

/-- BANK 8 of the stores that stand in the bundle of a bank-ALU operation issued now and meet the bytes it reads (R95): it
names the slot of the store. -/
def sameBundleFaults (s : State) (g off w : Nat) : List FaultRec :=
  s.agenda.filterMap (fun d => match d.ev, d.own with
    | .perform h (.store ws _), some x =>
      if h = g ∧ d.cyc = cnow s g ∧ ws.any (fun y => decide (off ≤ y.1) && decide (y.1 < off + w)) = true then
        some { slotFault s 0x09 8 0 (BitVec.ofNat 64 (bankOf off)) with slot := x.slot }
      else none
    | _, _ => none)

def reserveRead (s : State) (g : Nat) (lines : List Nat) (cyc : Nat) : State :=
  lines.foldl (fun s l => reserve s g 0 (bankOf (64 * l)) l cyc) s
def reserveWrite (s : State) (g : Nat) (lines : List Nat) (cyc : Nat) : State :=
  lines.foldl (fun s l => reserve s g 1 (bankOf (64 * l)) l cyc) s

/-! ### Local offsets (R141) -/

/-- OPERAND 1: a local offset out of range or misaligned (R141, R354). -/
def offsetFaults (s : State) (xs : List Int) (align len : Nat) : List FaultRec :=
  ((xs.filter (fun (x : Int) => decide (x < 0) || decide (2 ^ 21 < x + (len : Int)) ||
      decide (x % (align : Int) ≠ 0))).take 1).map (fun (x : Int) => slotFault s 0x0A 1 (x % 2 ^ 48).toNat 0)

/-- UNCORR of a load: 2 for its words, 6 for the owner tags of its lines (R398). -/
def loadFaults (s : State) (g : Nat) (offs : List Nat) : List FaultRec :=
  ((badWords s g offs).filter (·.2)).map (fun w => slotFault s 0x0B 2 w.1 0) ++
    ((badTags s g offs).filter (·.2)).map (fun t => slotFault s 0x0B 6 t.1 11)

/-- BUDGET (R56, R360): the lines the counted writes would add. -/
def budgetFaults (s : State) (offs : List Nat) : List FaultRec :=
  let p := (coreOf s s.cur.g).pass
  let n := (dedup (p.lines ++ linesOf offs)).length
  if p.budget < n then [slotFault s 0x07 0 0 (BitVec.ofNat 64 (p.budget + n % 512 * 512))] else []

/-- Counted lines join the pass's (R56). -/
def countLines (s : State) (offs : List Nat) : State :=
  modCore s s.cur.g (fun c => { c with pass := { c.pass with lines := dedup (c.pass.lines ++ linesOf offs) } })

/-- The undo log takes an entry of a line before its first counted write in the pass (R360), a read that counts (R397). -/
def logLine (s : State) (g line : Nat) : State :=
  let c := coreOf s g
  if c.pass.undo.any (fun u => u.off = 64 * line) then s
  else
    let a := sliceAddr g (64 * line)
    let u : UndoEntry := ⟨64 * line, BitVec.ofNat 512 (leNat (memBytes s a 64)), tagOf s a, lineBad s a⟩
    setCore (countCopy s g ((List.range 64).map (64 * line + ·))) g
      { c with pass := { c.pass with undo := c.pass.undo ++ [u] } }

/-- A counted store of the issuing core in phase 3 (R56, R228, R270, R360). -/
def storeNow (s : State) (g : Nat) (ws : List (Nat × Byte)) (clear : Bool) : State :=
  let s := (linesOf (ws.map (·.1))).foldl (fun s l => logLine s g l) s
  writeSlice s g ws (ctxTag s g) clear none (cnow s g + 1)

/-- Phase 3 of the issuing slot: an effect that a rollback of its pass discards. -/
def perform (s : State) (x : Perf) : State :=
  postAt s s.cur.g (cnow s s.cur.g) 30 (some (srcNow s s.cur.g 0 0xFFFF)) (.perform s.cur.g x)

end Sys2Proof.Machine
end

