-- ==== Sys2Proof/Machine/Flags.lean ====
section
/-! DEFINITION. Conditions and status words: the comparisons of VCMP (R257), the status word of DRAIN (R420, R330), the
completion registers (R70, R71), FRZSTAT (R107), RNDSTAT (R247), PEERFAIL (R422), NOTSTAT (R421), and the register space
that SYSRD and SYSWR reach (R246). -/

namespace Sys2Proof.Machine

/-! ### Queue entries (R76) -/

/-- Field `[lo + n - 1 : lo]` of a queue entry. -/
def qField (x : BitVec 256) (lo n : Nat) : Nat := x.toNat / 2 ^ lo % 2 ^ n
def qSet (x : BitVec 256) (lo n v : Nat) : BitVec 256 :=
  BitVec.ofNat 256 (x.toNat - qField x lo n * 2 ^ lo + v % 2 ^ n * 2 ^ lo)
def qHandle (x : BitVec 256) : Nat := qField x 0 32
def qGraph (x : BitVec 256) : Nat := qField x 32 16
def qPhase (x : BitVec 256) : Nat := qField x 48 8
def qPrio (x : BitVec 256) : Nat := qField x 56 2
def qWhole (x : BitVec 256) : Bool := qField x 58 1 = 1
def qState (x : BitVec 256) : Nat := qField x 59 3
def qLayers (x : BitVec 256) : Nat := qField x 64 8
def qPass (x : BitVec 256) : Nat := qField x 72 4
def qPredv (x : BitVec 256) : Nat := qField x 96 8
def qPred (x : BitVec 256) (i : Nat) : Nat := qField x (128 + 6 * i) 6
def qOrd (x : BitVec 256) : Nat := qField x 176 64

/-- Queue entry `e` of a partition. -/
def queueEntry (x : Part) (e : Nat) : BitVec 256 := tabGet zeroAt x.queue e
def setQueue (x : Part) (e : Nat) (v : BitVec 256) : Part := { x with queue := tabSet zeroAt x.queue e v }

/-- Every entry of the queue that holds a launch, as graph, phase, order and whether it is done or cancelled, with those
emptied since (R71). -/
def queueCounts (x : Part) : List (Nat × Nat × Nat × Bool) :=
  ((x.queue.filter (fun e => qState e.2 ≠ 0)).map (fun e =>
    (qGraph e.2, qPhase e.2, qOrd e.2, decide (qState e.2 = 3 ∨ qState e.2 = 4)))) ++
  x.gone.map (fun e => (e.1, e.2.1, e.2.2, true))

/-- The enqueue order from which entries count for a phase number. -/
def phaseStart (x : Part) (n : Nat) : Nat := (x.phaseFrom.filter (fun e => e.1 = n)).foldl (fun m e => max m e.2) 0

/-- Entries counted for a graph, and for a phase. -/
def graphCounts (x : Part) (n : Nat) : List (Nat × Nat × Nat × Bool) := (queueCounts x).filter (fun e => e.1 = n)
def phaseCounts (x : Part) (n : Nat) : List (Nat × Nat × Nat × Bool) :=
  (queueCounts x).filter (fun e => e.2.1 = n && decide (phaseStart x n ≤ e.2.2.1) && !x.oldOrds.contains e.2.2.1)

/-- A completion register (R70). -/
def completionWord (done total id : Nat) (canc : Bool) : Word :=
  BitVec.ofNat 64 (done % 2 ^ 16 + total % 2 ^ 16 * 2 ^ 16 + id % 2 ^ 16 * 2 ^ 32 + canc.toNat * 2 ^ 48)

def countsWord (l : List (Nat × Nat × Nat × Bool)) (id : Nat) (canc : Bool) : Word :=
  completionWord (l.filter (fun e => e.2.2.2)).length l.length id canc

/-- Is the graph or phase instance cancelled (R73)? -/
def instCanc (x : Part) (lvl id : Nat) : Bool := x.jobCanc || x.cancInst.contains (lvl, id)

/-- WKLAUNCH, WKGRAPH, WKPHASE, WKJOB as seen with launch `l` running, or with none (R70). -/
def completionReg (x : Part) (l : Option Launch) (i : Nat) : Word :=
  match i, l with
  | 0, some l => completionWord l.done l.nvc l.entry (l.canc || x.jobCanc)
  | 1, some l => let n := l.graph; countsWord (graphCounts x n) n (instCanc x 1 n)
  | 2, some l => let n := qPhase (queueEntry x l.entry); countsWord (phaseCounts x n) n (instCanc x 2 n)
  | 2, none => countsWord (phaseCounts x x.phase) x.phase (instCanc x 2 x.phase)
  | 3, _ => completionWord x.phasesDone (if x.jobRan then 0xFFFF else 0) x.job x.jobCanc
  | _, _ => 0

/-- A completion register as the host reads it (R70): WKPHASE for the current phase, WKLAUNCH and WKGRAPH for the launch
most recently started, which before the first start after a RESUMECK is that of the checkpoint (R442). -/
def hostCompletion (x : Part) (i : Nat) : Word :=
  if i < 2 ∧ x.lastLaunch = none then x.wkSaved.getD i 0
  else completionReg x (if i = 2 then none else x.lastLaunch.bind (fun e => x.launches.find? (fun l => l.entry = e))) i

/-! ### Comparisons (R257) -/

/-- VCMP's condition codes: 0 eq, 1 ne, 2 lt, 3 le, 4 gt, 5 ge, 6 unordered, 7 ordered. -/
def compareVals (cond : Nat) (x y : Val) : Bool :=
  let un := isNaN x || isNaN y
  match cond with
  | 0 => !un && eqV x y
  | 1 => un || !eqV x y
  | 2 => !un && ltV x y
  | 3 => !un && (ltV x y || eqV x y)
  | 4 => !un && ltV y x
  | 5 => !un && (ltV y x || eqV x y)
  | 6 => un
  | _ => !un

/-! ### DRAIN's status word (R330, R420) -/

/-- The status word from its fields. -/
def drainWord (fail horizon dead refused : Bool) (nfail : Nat) (peer : Option (Nat × Nat)) : Word :=
  BitVec.ofNat 64 (fail.toNat + dead.toNat * 2 + refused.toNat * 4 + horizon.toNat * 8 + min 255 nfail * 2 ^ 8 +
    (match peer with
     | some (pkg, c) => 2 ^ 16 + pkg % 64 * 2 ^ 24 + c % 512 * 2 ^ 32
     | none => 0))

/-! ### Other composed registers -/

/-- FRZSTAT (R107). -/
def frzStat (x : Part) : Word :=
  BitVec.ofNat 64 (x.frzCount % 2 ^ 32 + x.frzReason.toNat * 2 ^ 32 + x.frzB / 4096 % 2 ^ 24 * 2 ^ 40)

/-- RNDSTAT (R247). -/
def rndStat (r : Chamois) : Word :=
  BitVec.ofNat 64 (r.queue.length % 16 + r.seeded.toNat * 16 + r.n.toNat % 2 ^ 32 * 2 ^ 32)

/-- PEERFAIL (R422): what the core's copy of the sets names. -/
def peerFail (l : List Peer) : Word :=
  let cores := l.filterMap (fun x => match x with
    | .core g => some g
    | _ => none)
  let pkgs := l.filterMap (fun x => match x with
    | .pkg n => some n
    | _ => none)
  let links := l.length - cores.length - pkgs.length
  let keys := cores.map (fun g => g / 512 * 512 + g % 512) ++ pkgs.map (fun n => n * 512 + 0x1FF)
  let low := keys.foldl (fun a k => match a with
    | none => some k
    | some b => some (min b k)) none
  BitVec.ofNat 64 (cores.length % 2 ^ 10 + pkgs.length % 2 ^ 6 * 2 ^ 10 + links % 2 ^ 12 * 2 ^ 16 +
    (match low with
     | some k => k / 512 % 64 * 2 ^ 32 + k % 512 * 2 ^ 38
     | none => 0))

/-- NOTSTAT (R421): PEND follows from the notices held. -/
def notStat (c : Core) : Word := withField (sysGet c 0x450) 0 1 (decide (c.notices ≠ [])).toNat

/-- MCHKCNT takes one comparison of directory entry `e` with `cor` elements corrected (R287). -/
def countCheck (c : Core) (e cor : Nat) : Core :=
  let x := sysGet c 0x121
  let x := withField x 0 32 (fieldOf x 0 32 + 1)
  let x := withField x 32 16 (fieldOf x 32 16 + cor)
  sysSet c 0x121 (withField x 48 6 e)

/-- CORESTAT and PARTINFO (R247). -/
def coreStat (s : State) (g : Nat) : Word :=
  BitVec.ofNat 64 (g % 512 + unitState s (g / 512) (g % 512) * 2 ^ 9 + layerOf g * 2 ^ 11 + g / 512 * 2 ^ 14)
def partInfo (s : State) (g : Nat) : Word :=
  match partOfCore s g with
  | some p => BitVec.ofNat 64 (ctxTag s g + (partOf s p).layers % 256 * 2 ^ 12 + (partOf s p).pod.toNat * 2 ^ 20)
  | none => 0

/-- Indices that hold a stored word of the core: shapes, routes, traps, faults, error counters, injectors, notices,
repair (R246, R306, R307, R356, R358, R392, R399, R402 to R404, R410, R455 to R457). -/
def storedIndex (i : Nat) : Bool :=
  decide (0x300 ≤ i ∧ i < 0x340) || decide (0x380 ≤ i ∧ i < 0x390) || decide (0x400 ≤ i ∧ i ≤ 0x402) ||
  decide (0x408 ≤ i ∧ i < 0x418) || i = 0x418 || i = 0x420 || i = 0x421 || i = 0x428 || i = 0x430 ||
  decide (0x440 ≤ i ∧ i < 0x448) || i = 0x451 || i = 0x462 || i = 0x468 || decide (0x4A0 ≤ i ∧ i < 0x4C0)

/-- What register index `i` of core `g` reads (R245 to R248). -/
def sysRead (s : State) (g i : Nat) : Word :=
  let c := coreOf s g
  let p := (partOfCore s g).map (partOf s)
  if i = 0 then (pkgOf s (g / 512)).spec
  else if i = 1 then
    BitVec.ofNat 64 ((pkgOf s (g / 512)).version.toNat + mapNat s (g / 512) (0x18 + 2 * layerOf g) 2 * 2 ^ 32)
  else if i = 2 then coreStat s g
  else if i = 3 then partInfo s g
  else if i = 4 then (p.map (fun x => x.lpivl.zeroExtend 64)).getD 0
  else if i = 8 then BitVec.ofNat 64 s.now
  else if 0x100 ≤ i ∧ i < 0x104 then
    match p with
    | some x => completionReg x (launchOf s g) (i - 0x100)
    | none => 0
  else if i = 0x104 then (p.map frzStat).getD 0
  else if 0x110 ≤ i ∧ i < 0x114 then (p.map (fun x => tabGet zeroAt x.chans (i - 0x110))).getD 0
  else if i = 0x120 then rndStat c.live.rnd
  else if i = 0x121 then sysGet c 0x121
  else if i = 0x122 then c.live.stage.zeroExtend 64
  else if 0x200 ≤ i ∧ i < 0x240 then dirEntry c (i - 0x200)
  else if i = 0x450 then notStat c
  else if i = 0x452 then peerFail c.peers
  else if storedIndex i then sysGet c i
  else if 0x1000 ≤ i ∧ i < 0x2800 then BitVec.ofNat 64 (mapNat s (g / 512) (8 * (i - 0x1000)) 8)
  else 0

/-- The bits of register `i` that a core's SYSWR writes as RW fields (R15, R306, R307, R358, R404, R456, R457). -/
def writeMask (i : Nat) : Word :=
  if 0x300 ≤ i ∧ i < 0x340 then
    (if i % 8 = 0 then 0xFFFFFFFF001FFFFF#64 else if i % 8 ≤ 3 then 0x003FFFFF0000FFFF#64
     else if i % 8 ≤ 6 then 0x0000FFFFFFFFFFFF#64 else 0x8000FFFFFFFFFFFF#64)
  else if 0x380 ≤ i ∧ i < 0x390 then 0xFFFFFFFFFF03FFFF#64
  else if i = 0x400 then 0x0000000000F1FFFF#64
  else if 0x440 ≤ i ∧ i < 0x448 then (if i % 2 = 0 then 0x800001FFFFFFFFFF#64 else 0x00000000FFFFFFFF#64)
  else if i = 0x462 then 0x00000000000000FF#64
  else if i = 0x468 then 0xFFFFFFFFFFFFFFFF#64
  else 0

/-- The stored word after its RW fields take those of `x`. -/
def maskedWrite (i : Nat) (old x : Word) : Word := (old &&& ~~~(writeMask i)) ||| (x &&& writeMask i)

/-- A repair request at a core (R456): the table, the spare's zero fill with the writer's tag, BISTSUM. It acts after the
stores of its cycle, which reach the retired line, count there for an injector (R459), and are lost. -/
def repairRequest (s : State) (g off tag : Nat) : State :=
  let c := coreOf s g
  let b := bankOf off
  if repaired c off then s
  else
    match [0, 1].find? (fun j => fieldOf (sysGet c (0x4A0 + 2 * b + j)) 0 1 = 0) with
    | none => setCore s g (sysSet c 0x462 (withField (sysGet c 0x462) 22 1 1))
    | some j =>
      let sum := sysGet c 0x462
      let c := sysSet c (0x4A0 + 2 * b + j) (BitVec.ofNat 64 (1 + bankLine off * 256))
      let c := sysSet c 0x462 (withField sum 16 6 (fieldOf sum 16 6 + 1))
      let s := setCore s g c
      let o := off / 64 * 64
      writeSliceAs false s g ((List.range 64).map (fun i => (o + i, 0))) tag true none (cnow s g + 1)

/-- SYSWR's effect on a register of the core, in phase 3 (R245): `x` is written to index `i` of core `g`. -/
def sysWrite (s : State) (g i : Nat) (x : Word) : State :=
  let c := coreOf s g
  if i = 0x451 then
    if x.getLsbD 0 && fieldOf (sysGet c i) 0 1 = 0 then
      let w := withField (sysGet c i) 0 2 1
      let s := setCore s g (sysSet c i (withField w 16 16 (fieldOf w 16 16 + 1)))
      postAt s g (cnow s g) 32 none (.instr (.tableServiceRequest g))
    else s
  else if i = 0x430 then
    if fieldOf (sysGet c i) 0 1 = 1 then setCore s g (sysSet c i (sysGet c i &&& ~~~(x &&& 0xF0#64))) else s
  else if 0x440 ≤ i ∧ i < 0x448 then
    if fieldOf (sysGet c 0x430) 0 1 = 1 then
      let c := sysSet c i (maskedWrite i (sysGet c i) x)
      setCore s g (if i % 2 = 0 ∧ x.getLsbD 63 = true then
        sysSet c (i + 1) (withField (sysGet c (i + 1)) 32 32 0) else c)
    else s
  else if i = 0x462 then setCore s g (sysSet c i (withField (maskedWrite i (sysGet c i) x) 63 1 1))
  else if i = 0x468 then
    let s := setCore s g (sysSet c i x)
    if x.toNat / 2 ^ 21 = 0 ∧ fieldOf (sysGet c 0x462) 62 1 = 1 then
      repairRequest s g (x.toNat % 2 ^ 21) (match c.run with
        | .idle => 0
        | _ => ctxTag s g)
    else s
  else setCore s g (sysSet c i (maskedWrite i (sysGet c i) x))

end Sys2Proof.Machine
end

