-- ==== Sys2Proof/Machine/Registers.lean ====
section
/-! DEFINITION. Memory and registers as control cores and the host reach them: the private memory of a control core
(R339), main memory, and the system space of a package (R137, R140, R334, R406, R412). -/

namespace Sys2Proof.Machine

/-- Key of byte `o` of the private memory of control core `g` (R339); it lies above every global address. -/
def privAddr (g o : Nat) : Nat := 2 ^ 50 + g * 2 ^ 20 + o

/-- Key of byte `o` of the shadow store of die layer `k`: no instruction can name it. -/
def shadowAddr (k o : Nat) : Nat := 2 ^ 52 + k * 2 ^ 27 + o

/-- Key of a host bus address. -/
def hostAddr (a : Nat) : Nat := 2 ^ 48 * 3 + 2 ^ 60 + a

/-- The bits of a table entry that are not Reserved, which read 0 (R16, R143). -/
def tableMask : BitVec 128 := 0x0000FFFFFFFF00000000FFFFFFFF00FF#128

/-- Entry `e` of the table copy of layer `k`, and its reads and writes (R142, R412). -/
def tableEntry (s : State) (k e : Nat) : BitVec 128 := tabGet zeroAt s.table (k * 4096 + e)
def setTable (s : State) (k e : Nat) (x : BitVec 128) : State :=
  { s with table := tabSet zeroAt s.table (k * 4096 + e) (x &&& tableMask), tableBad := tabDel s.tableBad (k * 4096 + e) }

/-- One half of an entry replaced. -/
def withHalf (x : BitVec 128) (hi : Bool) (w : Word) : BitVec 128 :=
  if hi then w ++ x.extractLsb' 0 64 else x.extractLsb' 64 64 ++ w

/-- What register `i` of unit `g` reads through the system space (R137, R334): 0 above the control cores. -/
def systemRead (s : State) (g i : Nat) : Word :=
  if 392 ≤ g % 512 then 0
  else if isControl g then
    let k := layerKey g
    if 0x480 ≤ i ∧ i < 0x488 then tabGet zeroAt (pkgOf s (g / 512)).linj (layerOf g * 8 + (i - 0x480))
    else if 0x8000 ≤ i ∧ i < 0xA000 then
      let x := tableEntry s k ((i - 0x8000) / 2)
      if i % 2 = 0 then x.extractLsb' 0 64 else x.extractLsb' 64 64
    else if i = 0 ∨ i = 1 ∨ i = 8 then sysRead s g i
    else sysGet (coreOf s g) i
  else sysRead s g i

/-- A half of a table entry is written through the system space: it takes effect only while the owning partition is
frozen, and the kept copy records it (R412). -/
def writeTableHalf (s : State) (k e : Nat) (hi : Bool) (x : Word) : State :=
  match partAt s (k / 8) (k % 8) with
  | some p =>
    if (partOf s p).state = 4 then
      let s := setTable s k e (withHalf (tableEntry s k e) hi x)
      { s with kept := tabSet zeroAt s.kept (k * 4096 + e) (tableEntry s k e) }
    else s
  | none => s

/-- LINJ register `j` of layer `k` is written: a write of A with ARM set clears the count (R406). -/
def writeLinj (s : State) (k j : Nat) (x : Word) : State :=
  modPkg s (k / 8) (fun p =>
    let i := k % 8 * 8 + j
    if j % 2 = 0 then
      let t := tabSet zeroAt p.linj i (x &&& 0x800001FFFFFFFFFF#64)
      { p with linj := if x.getLsbD 63 then
          tabSet zeroAt t (i + 1) (withField (tabGet zeroAt t (i + 1)) 32 32 0) else t }
    else { p with linj := tabSet zeroAt p.linj i (withField (tabGet zeroAt p.linj i) 0 32 (fieldOf x 0 32)) })

/-- A write to register `i` of unit `g` through the system space (R137): the hypervisor's fields and the RW fields
(R402, R403, R404, R406, R410, R412, R456, R457). A repair request acts in phase 3 of the cycle. -/
def systemWrite (s : State) (g i : Nat) (x : Word) : State :=
  if isControl g then
    if 0x480 ≤ i ∧ i < 0x488 then writeLinj s (layerKey g) (i - 0x480) x
    else if 0x8000 ≤ i ∧ i < 0xA000 then writeTableHalf s (layerKey g) ((i - 0x8000) / 2) (i % 2 = 1) x
    else if i = 0x400 then modCore s g (fun c => sysSet c i (maskedWrite i (sysGet c i) x))
    else s
  else
    let c := coreOf s g
    if i = 0x428 then setCore s g (sysSet c i (withField (sysGet c i) 0 1 (fieldOf x 0 1)))
    else if i = 0x430 then
      setCore s g (sysSet c i (withField (sysGet c i &&& ~~~(x &&& 0xF0#64)) 0 1 (fieldOf x 0 1)))
    else if 0x440 ≤ i ∧ i < 0x448 then
      let c := sysSet c i (maskedWrite i (sysGet c i) x)
      setCore s g (if i % 2 = 0 ∧ x.getLsbD 63 = true then
        sysSet c (i + 1) (withField (sysGet c (i + 1)) 32 32 0) else c)
    else if i = 0x451 then
      if x.getLsbD 0 then s
      else setCore s g (sysSet c i (withField (sysGet c i) 0 2 (fieldOf x 1 1 * 2)))
    else if i = 0x462 then
      setCore s g (sysSet c i (withField (maskedWrite i (sysGet c i) x) 62 1 (fieldOf x 62 1)))
    else if i = 0x468 then post s none s.now 31 none (.perform g (.syswr i x))
    else setCore s g (sysSet c i (maskedWrite i (sysGet c i) x))

/-- The space of a global address (R137). -/
def spaceOf (a : Nat) : Nat := a / 2 ^ 45 % 8

/-- Is the address one that a control core's SYSRD and SYSWR may name (R339)? -/
def controlAddr (s : State) (g : Nat) (a : Nat) : Bool :=
  decide (a < 2 ^ 48) && decide (a % 8 = 0) && decide (a / 2 ^ 39 % 64 = g / 512) &&
  (match spaceOf a with
   | 0 => decide (a / 2 ^ 30 % 512 < 384) && decide (a % 2 ^ 30 < 2 ^ 21) && (pkgOf s (g / 512)).alive
   | 1 => true
   | 7 => decide (a / 2 ^ 30 % 512 < 392)
   | _ => false)

end Sys2Proof.Machine
end

