-- ==== Sys2Proof/Machine/Control.lean ====
section
/-! DEFINITION. Scalar loads and stores, control, rendezvous, traps and system registers (08, R227 to R247), as a core
runs them and as a control core does (12, R339). Their later effects, in phase 3 of the issue cycle, are `perform`ed. -/

namespace Sys2Proof.Machine

/-! ### Scalar loads and stores (R227, R228) -/

/-- The offset BASE + imm × n, exactly (R227). -/
def scalarOffset (s : State) (r : RegField) (i : Imm) (n : Nat) : Int := (sVal s r).toNat + i.toInt * n

/-- The offsets of an access of `n` bytes. -/
def spanOf (x : Int) (n : Nat) : List Nat := (List.range n).map (x.toNat + ·)

/-- OPERAND 1 of a control core's access to its private memory (R339). -/
def privFaults (s : State) (x : Int) (n : Nat) : List FaultRec :=
  if x < 0 ∨ 2 ^ 20 < x + (n : Int) ∨ x % (n : Int) ≠ 0 then [slotFault s 0x0A 1 (x % 2 ^ 48).toNat 0] else []

/-- LDS (R227). -/
def execLds (z : BitVec 2) (d r : RegField) (i : Imm) (s : State) : Host.Outcome State Fault Refusal :=
  let g := s.cur.g
  let n := 2 ^ z.toNat
  let x := scalarOffset s r i n
  let ins : Instr := .lds z d r i
  if isControl g then
    checked s (operandFaults s ins ++ privFaults s x n) (fun s =>
      scalarResult s d 3 4 (BitVec.ofNat 64 (leNat (memBytes s (privAddr g x.toNat) n))))
  else
    let fs := offsetFaults s [x] n n
    let more := if fs = [] then
      readPortFaults s g (linesOf (spanOf x n)) (cnow s g) false ++ loadFaults s g (spanOf x n) else fs
    checked s (operandFaults s ins ++ more) (fun s =>
      let s := countLoad (countOperands s ins) g (spanOf x n)
      let s := reserveRead s g (linesOf (spanOf x n)) (cnow s g)
      scalarResult s d 3 4 (BitVec.ofNat 64 (leNat (sliceBytes s g x.toNat n))))

/-- The bytes of a scalar store. -/
def storeBytes (x : Int) (n : Nat) (v : Word) : List (Nat × Byte) :=
  (List.range n).map (fun k => (x.toNat + k, byteOf v.toNat k))

/-- STS (R228). -/
def execSts (z : BitVec 2) (d r : RegField) (i : Imm) (s : State) : Host.Outcome State Fault Refusal :=
  let g := s.cur.g
  let n := 2 ^ z.toNat
  let x := scalarOffset s r i n
  let ins : Instr := .sts z d r i
  if isControl g then
    checked s (operandFaults s ins ++ privFaults s x n) (fun s =>
      memPut s (privAddr g x.toNat) (leBytes n (sVal s d).toNat))
  else
    let fs := offsetFaults s [x] n n
    let more := if fs = [] then
      writePortFaults s g (spanOf x n) (cnow s g) ++ budgetFaults s (spanOf x n) else fs
    checked s (operandFaults s ins ++ more) (fun s =>
      let ws := storeBytes x n (sVal s d)
      let s := countLines (countOperands s ins) (spanOf x n)
      perform (reserveWrite s g (linesOf (spanOf x n)) (cnow s g)) (.store ws true))

/-! ### Branches (R232 to R234, R59, R61) -/

/-- The control slot's choice of the bundle after the final one. -/
def setNext (s : State) (x : Next) : State :=
  modCore s s.cur.g (fun c => { c with pass := { c.pass with next := some x } })

/-- The offset after the bundle being issued. -/
def bundleEnd (s : State) : Nat := s.cur.off + 4 * s.cur.n

/-- ILLEGAL 4: the bundle ends the code window and its successor in code order would be taken (R188). -/
def endFaults (s : State) : List FaultRec :=
  if 0xFFFC < bundleEnd s then [{ slotFault s 0x02 4 0 0 with slot := 7 }] else []

/-- BR. -/
def execBr (i : Imm) (s : State) : Host.Outcome State Fault Refusal :=
  checked s (operandFaults s (.br i)) (fun s => setNext s (.goto i.toInt.toNat))

/-- BRC.nz and BRC.z. -/
def execBrc (z : Bool) (a : RegField) (i : Imm) (s : State) : Host.Outcome State Fault Refusal :=
  let taken := decide (sVal s a ≠ 0) != z
  checked s (operandFaults s (.brc z a i) ++ (if taken then [] else endFaults s)) (fun s =>
    setNext (countOperands s (.brc z a i)) (if taken then .goto i.toInt.toNat else .seqNext))

/-- A result that lands when the next mooring bundle issues (R220). -/
def landAtMoor (s : State) (l : Landing) : State :=
  modCore s s.cur.g (fun c => { c with pass := { c.pass with atMoor := c.pass.atMoor ++ [l] } })

/-- CALL (R233): the link lands when the target's mooring bundle issues; on a control core after one cycle. -/
def execCall (d : RegField) (i : Imm) (s : State) : Host.Outcome State Fault Refusal :=
  checked s (operandFaults s (.call d i) ++ endFaults s) (fun s =>
    let link := BitVec.ofNat 64 (bundleEnd s % 2 ^ 16)
    let s := setNext s (.goto i.toInt.toNat)
    if isControl s.cur.g then scalarResult s d 0 1 link
    else if d.toNat < 32 then landAtMoor s (.sreg d.toNat link) else s)

/-- RET (R234). -/
def execRet (a : RegField) (s : State) : Host.Outcome State Fault Refusal :=
  let v := (sVal s a).toNat
  checked s (operandFaults s (.ret a) ++
      (if 2 ^ 16 ≤ v ∨ v % 4 ≠ 0 then [slotFault s 0x0A 1 (v % 2 ^ 48) 0] else [])) (fun s =>
    setNext (countOperands s (.ret a)) (.goto v))

/-- REPEAT's bound (R231). -/
def repeatBound (a : Word) (i : Imm) : Nat := (max 1 (min (2 ^ 32 - 1) (a.toInt + i.toInt))).toNat

/-- REPEAT (R61, R231). -/
def execRepeatLoop (n : BitVec 2) (a : RegField) (i : Imm) (s : State) : Host.Outcome State Fault Refusal :=
  let lc := (lcReg (coreOf s s.cur.g) n.toNat).toNat
  let again := decide (lc + 1 < repeatBound (sVal s a) i)
  checked s (operandFaults s (.repeatLoop n a i) ++ (if again then [] else endFaults s)) (fun s =>
    let s := countOperands s (.repeatLoop n a i)
    let off := (coreOf s s.cur.g).pass.off
    if again then setNext (landAtMoor s (.lcr n.toNat (BitVec.ofNat 32 (lc + 1)))) (.goto off)
    else setNext (landAtMoor s (.lcr n.toNat 0)) .seqNext)

/-! ### Passes: mooring bundles and slips (R51 to R60, R235, R376) -/

/-- The count of a pass at cycle `t` (R54, R376). -/
def passCount (p : Pass) (t : Nat) : Nat := t - p.m - p.held

/-- A slip's record (R356, R357). -/
def slipFault (s : State) (g sub : Nat) (p : Pass) (t : Nat) : FaultRec :=
  { cls := 0x05, sub := sub, slot := 7, bundle := (coreOf s g).pc, cmd := 0xFFFF, extent := 0, piece := 0, addr := 0
    detail := BitVec.ofNat 64 (passCount p t % 2 ^ 28 + p.c % 2 ^ 28 * 2 ^ 28) }

def sigFault (s : State) (g : Nat) (p : Pass) : FaultRec :=
  { cls := 0x06, sub := 0, slot := 7, bundle := (coreOf s g).pc, cmd := 0xFFFF, extent := 0, piece := 0, addr := 0
    detail := BitVec.ofNat 64 ((crcFinal p.crc).toNat + p.sig.toNat * 2 ^ 32) }

/-- The slips of a pass that ends with count `passCount p t` (R376). -/
def endSlips (s : State) (g : Nat) (p : Pass) (t : Nat) : List FaultRec :=
  (if passCount p t ≠ p.c then [slipFault s g 1 p t] else []) ++
  (if crcFinal p.crc ≠ p.sig then [sigFault s g p] else [])

/-- Is the word the first of a mooring bundle? -/
def isMoorWord (w : BitVec 32) : Bool := decide (w.toNat / 2 ^ 22 % 2 ^ 9 = 0x2F)

/-- Does the word at the program counter show a mooring bundle? An invalid or a poisoned word shows none. -/
def moorShown (c : Core) : Bool :=
  tabGet (fun _ => false) c.codeValid (c.pc / 4) && decide (tabGet (fun _ => 0) c.codeBad (c.pc / 8) ≠ 1000) &&
    isMoorWord (tabGet zeroAt c.code (c.pc / 4))

/-- The words of the bundle at offset `o` of the code window, up to the first whose E is 1, at most `n`; or class, subclass
and word of what stops the fetch: a poisoned word, an invalid one, or the framing (R188, R244, R398). -/
def fetchBundle (c : Core) : Nat → Nat → Except (Nat × Nat × Nat) (List SlotWord)
  | 0, _ => .error (0x02, 4, 0)
  | n + 1, o =>
    if 0x10000 ≤ o then .error (0x02, 4, 0)
    else if tabGet (fun _ => 0) c.codeBad (o / 8) = 1000 then .error (0x0B, 4, errorWord 6 (o / 8))
    else if tabGet (fun _ => false) c.codeValid (o / 4) = false then .error (0x03, 0, 0)
    else
      let w := tabGet (zeroAt (w := 32)) c.code (o / 4)
      if SlotWord.e w then .ok [w]
      else
        match fetchBundle c n (o + 4) with
        | .ok ws => .ok (w :: ws)
        | .error e => .error e

/-- Is the bundle due one that may end the pass (R376)? Not one whose first word is no mooring slot, and no ill-formed bundle,
which is no mooring bundle. DESIGN CHOICE (log entry 56): nothing shows whether a bundle whose first word is invalid or poisoned is
a mooring bundle, and its own fault is the one recorded. -/
def mayMoor (c : Core) : Bool :=
  match fetchBundle c 8 c.pc with
  | .ok ws => moorShown c && (match decodeBundle ws with
    | .ok _ => true
    | .error _ => false)
  | .error e => if e.1 = 0x02 then false else if e.1 = 0x0B then true else
      moorShown c || decide (tabGet (fun _ => false) c.codeValid (c.pc / 4) = false)

/-- The slips of the pass that the mooring bundle due now ends, whether or not its further words are ones to issue (R355,
R376). -/
def shownSlips (s : State) (g : Nat) : List FaultRec :=
  let c := coreOf s g
  if c.pass.id.serial ≠ 0 ∧ c.pass.next ≠ some .haltUnit ∧ moorShown c = true then endSlips s g c.pass (cnow s g) else []

/-- The commit flits of an ended pass depart at cycle `dep` (R57, R172, R424). -/
def sendCommits (s : State) (g : Nat) (p : Pass) (dep : Nat) : State :=
  p.homes.foldl (fun s h =>
    launchFlit s { newFlit s g h.home p.id dep (dep + h.lout) h.lback h.path (.commit p.id h.nrec) with
      ref := some ⟨g, p.id, h.opno, h.cmd, 0, h.home, true⟩ }) s

/-- The shadow copy of a mooring bundle (R57, R359), which meets the bad bits of the words it copies (R397, R398). -/
def shadowCopy (s : State) (g : Nat) : State :=
  let c := coreOf s g
  let copy := { c.live with bad := c.live.bad.filter (fun e => e.2 = 1000) }
  let s := setCore s g (if inhibited c then { c with shadow2 := copy } else { c with shadow := copy })
  c.live.bad.foldl (fun s e =>
    postError s g (decide (e.2 = 1000)).toNat (e.1 / 2 ^ 24) (errorWord (e.1 / 2 ^ 24) (e.1 % 2 ^ 24)) 1) s

/-- A mooring bundle begins a pass (R57): what waits for it lands, the ended pass commits, REDO returns to 0 when a pass
of the entry has completed (R374), and the shadow is taken. DESIGN CHOICE (log entry 56): a link or coordinate that waits for
the bundle (R220) lands after the other landings of its cycle. -/
def beginPass (s : State) (g : Nat) (seg c budget : Nat) (sig : BitVec 32) (safe : Bool) : State :=
  let t := cnow s g
  let p := (coreOf s g).pass
  let s := modCore s g (fun c => p.atMoor.foldl landCore c)
  let s := if p.id.serial = 0 then s else sendCommits s g p t
  let s := modCore s g (fun c => if p.id.serial ≠ 0 ∧ inhibited c = false then setRedo c 0 else c)
  let core := coreOf s g
  let q : Pass := { Pass.none with
    id := ⟨g, core.vid, seg, redoOf core, s.seq + 1⟩, off := s.cur.off, m := t, c := c, sig := sig, crc := crcInit
    budget := budget, safe := safe
    hcpySkip := if p.id.serial = 0 then p.hcpySkip else 0
    shares := if p.id.serial = 0 then p.shares else []
    mmagSkip := if p.id.serial = 0 then p.mmagSkip else []
    added := if p.id.serial = 0 then p.added else [] }
  let s := modCore s g (fun c => { c with pass := q })
  let s := q.shares.foldl (fun s x =>
    let stream := (x.2.gang.map (·.2.2)).getD 0
    postAt s g (t + x.1) 22 (some ⟨g, q.id.serial, 15, 3, q.off, 0xFFFF, t⟩) (.instr (.memberShareStart g stream))) s
  postAt (shadowCopy s g) g (t + c) 21 none (.instr (.cycslip g))

/-- MOOR (R51, R52, R57, R235): the pass that ends is checked first (R355, R376). -/
def execMoor (o : BitVec 19) (c sigl : BitVec 28) (sigh : BitVec 4) (budget : BitVec 9) (safe : Bool) (s : State) :
    Host.Outcome State Fault Refusal :=
  let g := s.cur.g
  let p := (coreOf s g).pass
  let ended := decide (p.id.serial ≠ 0) && decide (p.next ≠ some .haltUnit)
  checked s (if ended then endSlips s g p (cnow s g) else []) (fun s =>
    beginPass s g o.toNat c.toNat budget.toNat (sigh ++ sigl) safe)

/-! ### Rendezvous (R236 to R240) -/

/-- The members of a group of the core's image, in core order (R62). -/
def groupMembers (s : State) (g n : Nat) : Option (List Nat) :=
  (coreImage s g).bind (fun i => (i.groups.find? (fun x => x.num = n)).map (·.members))

/-- The partition whose clock and records an instance with these members uses: its keeper's. -/
def rdvPart (s : State) (g : Nat) (members : List Nat) : Nat :=
  ((partOfCore s (members.headD g)).orElse (fun _ => partOfCore s g)).getD 0

/-- The open instance of a group, if any member has arrived. A group belongs to its image: another image's group of the same
number has other members (R62). -/
def openRdv (s : State) (p group : Nat) (ms : List Nat) : Option Rdv :=
  s.rdvs.find? (fun r => r.part = p && r.group = group && (r.kind = 4 || r.members = ms))

/-- Faults of an RDV (R236, R354, R368, R379): an undeclared group; in a handler; the keeper's barrier offset; the
keeper finds that members disagree. -/
def rdvFaults (s : State) (i : Instr) (kind group scope : Nat) (a : Word) : List FaultRec :=
  let g := s.cur.g
  let c := coreOf s g
  match groupMembers s g group with
  | none => [slotFault s 0x02 2 0 0]
  | some ms =>
    let keeper := decide (ms.headD g = g)
    (if keeper then operandFaults s i else []) ++
    (if inhibited c then [slotFault s 0x0A 7 0 0] else []) ++
    (if keeper && kind = 1 && (decide (2 ^ 21 ≤ a.toNat) || decide (a.toNat % 4 ≠ 0)) then
      [slotFault s 0x0A 1 (a.toNat % 2 ^ 48) 0] else []) ++
    (match openRdv s (rdvPart s g ms) group ms with
     | some r => if keeper && r.arrivals.any (fun x => x.2.2 ≠ kind * 8 + scope) then [slotFault s 0x0A 5 0 0] else []
     | none => [])

/-- An RDV of kinds 0 to 3: the arrival takes effect with the rest of its bundle. The keeper alone reads its operands. -/
def rdvOp (i : Instr) (kind group scope : Nat) (a b : Word) (s : State) : Host.Outcome State Fault Refusal :=
  let keeper := ((groupMembers s s.cur.g group).map (·.headD s.cur.g)) = some s.cur.g
  checked s (rdvFaults s i kind group scope a) (fun s =>
    perform (if keeper then countOperands s i else s) (.arrive kind group scope s.cur.off a b))

def execRdvPlain (sc : BitVec 3) (g : RegField) (s : State) : Host.Outcome State Fault Refusal :=
  rdvOp (.rdvPlain sc g) 0 g.toNat sc.toNat 0 0 s

def execRdvBar (sc : BitVec 3) (g a b : RegField) (s : State) : Host.Outcome State Fault Refusal :=
  rdvOp (.rdvBar sc g a b) 1 g.toNat sc.toNat (sVal s a) (sVal s b) s

def execRdvWm (sc : BitVec 3) (g a b : RegField) (s : State) : Host.Outcome State Fault Refusal :=
  rdvOp (.rdvWm sc g a b) 2 g.toNat sc.toNat (sVal s a) (sVal s b) s

def execRdvCmt (sc : BitVec 3) (g a b : RegField) (s : State) : Host.Outcome State Fault Refusal :=
  rdvOp (.rdvCmt sc g a b) 3 g.toNat sc.toNat (sVal s a) (sVal s b) s

/-- RDV.lp (R74): the members are the good cores of the partition. -/
def execRdvLp (sc : BitVec 3) (s : State) : Host.Outcome State Fault Refusal :=
  checked s (if inhibited (coreOf s s.cur.g) then [slotFault s 0x0A 7 0 0] else []) (fun s =>
    perform s (.arrive 4 64 sc.toNat s.cur.off 0 0))

/-- An arrival (R64): the instance opens with the first; the keeper's brings the condition (R237, R238); members that
disagree fault the keeper (R354). -/
def arriveRdv (s : State) (g kind group scope off : Nat) (a b : Word) : State :=
  let t := cnow s g
  let ms := if kind = 4 then (match partOfCore s g with
      | some p => partCores s p
      | none => [])
    else (groupMembers s g group).getD [g]
  let p := rdvPart s g ms
  let keeper := decide (ms.headD g = g)
  let tag := kind * 8 + scope
  let r := (openRdv s p group ms).getD
    ⟨s.seq, p, kind, group, scope, ms, [], 0, 0, if kind = 0 then some 0 else none, 0, false⟩
  let s := if (openRdv s p group ms).isSome then s else { s with rdvs := s.rdvs ++ [r], seq := s.seq + 1 }
  let r := { r with arrivals := r.arrivals.filter (fun x => x.1 ≠ g) ++ [(g, t, tag)] }
  let r := if keeper then
      let r := { r with a := a, b := b, keeperOff := off, kind := kind, scope := scope }
      let q := match kind with
        | 0 => some 0
        | 1 => if b.toNat % 2 ^ 32 ≤ sliceWord s g a.toNat then some t else none
        | 3 => commitQ s r
        | _ => none
      { r with q := q }
    else r
  let s := modCore (setRdv s r) g (fun c => { c with run := .held r.id t })
  let k := rdvKeeper r
  match r.arrivals.find? (fun x => x.1 = k) with
  | some x =>
    if r.arrivals.any (fun y => y.2.2 ≠ x.2.2) then
      takeFault s k { cls := 0x0A, sub := 5, slot := 0, bundle := r.keeperOff, cmd := 0xFFFF, extent := 0, piece := 0
                      addr := 0, detail := 0 }
    else rdvTry s r.id
  | none => rdvTry s r.id

/-! ### HALT (R46, R47, R71, R235, R376, R450) -/

/-- Results or reduction lines outstanding at HALT: OPERAND 4. -/
def haltFaults (s : State) : List FaultRec :=
  let g := s.cur.g
  let c := coreOf s g
  let t := cnow s g
  let p := c.pass
  (if inhibited c then [slotFault s 0x0A 7 0 0] else []) ++
  (if decide (c.live.red ≠ []) || c.lands.any (fun l => l.2.2 && decide (t < l.2.1)) then
    [slotFault s 0x0A 4 0 0] else []) ++
  (let fs := endSlips s g p (t + corePace s g)
   if p.id.serial = 0 then [] else fs)

/-- An effect of the slot at place `ph` of the issue cycle, discarded by a rollback of its pass. -/
def performAt (s : State) (ph : Nat) (x : Perf) : State :=
  postAt s s.cur.g (cnow s s.cur.g) ph (some (srcNow s s.cur.g 0 0xFFFF)) (.perform s.cur.g x)

/-- HALT: the unit counts as done before any register of the cycle is read, and so does the launch, when nothing lands later
(R71). -/
def execHalt (s : State) : Host.Outcome State Fault Refusal :=
  checked s (haltFaults s) (fun s =>
    performAt (performAt (performAt (setNext s .haltUnit) 26 .doneRise) 27 .berthEnd) 35 .haltClear)

/-- One word of a cleared array, as an injector sees the clear (R405). -/
def clearWord (c : Core) (arr word : Nat) : Core :=
  let r := liveWrite c arr word 0
  let c := r.1
  let v := r.2
  if v = 0 then c
  else if arr = 1 then { c with live := { c.live with acc := tabSet zeroAt c.live.acc word (BitVec.ofNat 64 v) } }
  else if arr = 2 then
    let t := tabSet zeroAt c.live.marg (2 * word) (BitVec.ofNat 32 v)
    { c with live := { c.live with marg := tabSet zeroAt t (2 * word + 1) (BitVec.ofNat 32 (v / 2 ^ 32)) } }
  else if arr = 3 then
    let x := ofLanes (fun i => if i = word % 64 then v else lane (vReg c (word / 64)) i)
    { c with live := { c.live with v := tabSet zeroAt c.live.v (word / 64) x } }
  else { c with live := { c.live with s := tabSet zeroAt c.live.s word (BitVec.ofNat 64 v) } }

/-- Does HALT clear the word of the array (R47)? -/
def haltClears (arr word : Nat) : Bool :=
  (arr = 1 && decide (word < 32768)) || (arr = 2 && decide (word < 1024)) || (arr = 3 && decide (word < 3072)) ||
    (arr = 4 && decide (word < 32))

/-- The state HALT leaves for the next unit (R47, R128, R146, R319). -/
def clearUnit (c : Core) : Core :=
  let bad := c.live.bad.filter (fun e => e.1 / 2 ^ 24 = 2 && decide (1024 ≤ e.1 % 2 ^ 24))
  let dir := (c.live.dir.filter (fun e => decide (8 ≤ e.1))).foldl (fun t e =>
    tabSet dirDefault t e.1 (withField e.2 0 1 0)) []
  let c := { c with live := { Live.empty with
    marg := c.live.marg.filter (fun e => decide (2048 ≤ e.1)), dir := dir, bad := bad } }
  if anyArmed c then
    (dedup ((List.range 4).map (fun n => let a := sysGet c (0x440 + 2 * n); badKey (fieldOf a 0 4) (fieldOf a 4 21)))).foldl
      (fun c k => if haltClears (k / 2 ^ 24) (k % 2 ^ 24) then clearWord c (k / 2 ^ 24) (k % 2 ^ 24) else c) c
  else c

/-- The cycle of the last landing still to come of any operation of the core, at least `t` (R74). -/
def lastLanding (c : Core) (t : Nat) : Nat := c.lands.foldl (fun m l => max m l.2.1) t

/-- The operations issued before cycle `t` are no longer those of the unit that runs (R420). -/
def newUnit (s : State) (g t : Nat) : State := modCore s g (fun c => { c with unitFrom := 16 * t })

/-- The next unit of a core's berth list begins: at the image's entry, or at the safe point where it stopped (R442), its extents
staged. -/
def beginUnit (s : State) (g v : Nat) : State :=
  let c := coreOf s g
  match c.resume.find? (fun u => u.1.vid = v) with
  | none => setCore s g { c with vid := v, pc := c.entryOff }
  | some (u, o) =>
    let s := setCore s g { c with
      vid := v, pc := o, resume := c.resume.filter (fun x => x.1.vid ≠ v), live := { c.live with s := u.s, lc := u.lc } }
    u.extents.foldl (fun s e => writeSliceAs false s g ((List.range e.2.length).map (fun i => (e.1 + i, e.2.getD i 0)))
      (ctxTag s g) true none (cnow s g)) s

/-- Phase 3 of HALT's cycle: the clear, and the next unit or the end of the berth list (R46, R47, R74, R172). -/
def haltUnit (s : State) (g : Nat) : State :=
  let t := cnow s g
  let s := newUnit (modCore s g (fun c => setRedo (clearUnit c) 0)) g (t + 1)
  let c := coreOf s g
  match c.berth with
  | v :: rest =>
    let s := beginUnit (modCore s g (fun c => { c with berth := rest })) g v
    postAt s g (paceUp (corePace s g) (t + 1)) 22 none (.issue g)
  | [] =>
    let s := sendCommits s g c.pass (t + 1)
    let l := lastLanding c t
    let s := modCore s g (fun c => { c with pass := Pass.none, run := .ending })
    let s := if t < l then postAt s g l 26 none (.perform g .berthEnd) else s
    postAt s g (l + 1) 30 none (.instr (.coreIdle g))

/-! ### Traps and handlers (R242, R243, R369, R370) -/

/-- TRAP (R242). -/
def execTrap (z : Bool) (a : RegField) (i : Imm) (s : State) : Host.Outcome State Fault Refusal :=
  let taken := decide (sVal s a ≠ 0) != z
  checked s (operandFaults s (.trap z a i) ++
    (if taken then [slotFault s 0x01 0 0 (BitVec.ofInt 64 (i.toInt % 2 ^ 16))] else [])) (fun s =>
      countOperands s (.trap z a i))

/-- RETT and RESYNC: OPERAND 7 outside a handler (R368); else they leave it. -/
def leaveOp (resync : Bool) (s : State) : Host.Outcome State Fault Refusal :=
  checked s (if inhibited (coreOf s s.cur.g) then [] else [slotFault s 0x0A 7 0 0]) (fun s =>
    performAt (setNext s (.handlerEnd resync)) 35 (.leave resync))

def execRett (s : State) : Host.Outcome State Fault Refusal := leaveOp false s
def execResync (s : State) : Host.Outcome State Fault Refusal := leaveOp true s

/-- The core leaves its handler at cycle `c` (R369, R370): the faulted pass's state returns, INH clears, and the faulted
segment's mooring bundle is due. -/
def leaveHandler (s : State) (g : Nat) (resync : Bool) : State :=
  let c := cnow s g
  let core := coreOf s g
  match core.roll with
  | none => s
  | some rl =>
    let lo := max (c + 1) (rl.d + bigHorizon s g)
    let r := if resync then lo + (rl.pass.m + 4096 - lo % 4096) % 4096 else paceUp (corePace s g) lo
    let s := modCore s g (fun k => { setInh k false with live := k.shadow, run := .reenter resync c })
    postAt s g r 21 none (.instr (.segmentReentry g))

/-! ### System registers (R245), CANCEL (R241), WINV (R244) -/

/-- The register index of SYSRD and SYSWR. -/
def sysIndex (s : State) (a : RegField) (i : Imm) : Nat := (sVal s a + immVal i).toNat % 2 ^ 27

/-- UNCORR 5: SYSRD of a poisoned directory entry (R398). -/
def sysFaults (s : State) (i : Nat) : List FaultRec :=
  if 0x200 ≤ i ∧ i < 0x240 ∧ tabGet (fun _ => 0) (coreOf s s.cur.g).live.bad (badKey 7 (i - 0x200)) = 1000 then
    [slotFault s 0x0B 5 (i - 0x200) 7] else []

/-- A SYSRD of register `i` of core `h` that reads a directory entry with one bad bit is a corrected read (R397). -/
def countDir (s : State) (h i : Nat) : State :=
  if 0x200 ≤ i ∧ i < 0x240 ∧ oneBad (coreOf s h) 7 (i - 0x200) = true then postError s h 0 7 (i - 0x200) 1 else s

/-- Eight bytes of an address that a control core's SYSRD reads (R339). -/
def controlRead (s : State) (d : RegField) (x : Nat) : State :=
  let g := s.cur.g
  match spaceOf x with
  | 7 => let h := g / 512 * 512 + x / 2 ^ 30 % 512
         scalarResult (countDir s h (x / 8 % 2 ^ 27)) d 0 1 (systemRead s h (x / 8 % 2 ^ 27))
  | 1 => scalarResult s d 0 1 (BitVec.ofNat 64 (leNat (memBytes s x 8)))
  | _ => modCore s (x / 2 ^ 30) (fun c => { c with svc := c.svc ++ [.read (x % 2 ^ 30) g d.toNat] })

/-- Eight bytes that a control core's SYSWR writes (R339). -/
def controlWrite (s : State) (x : Nat) (v : Word) : State :=
  let g := s.cur.g
  match spaceOf x with
  | 7 => systemWrite s (g / 512 * 512 + x / 2 ^ 30 % 512) (x / 8 % 2 ^ 27) v
  | 1 => memPut s x (leBytes 8 v.toNat)
  | _ => modCore s (x / 2 ^ 30) (fun c => { c with svc := c.svc ++
      [.write (x % 2 ^ 30) (leBytes 8 v.toNat) (ctxTag s (x / 2 ^ 30)) false] })

/-- OPERAND 1 of a control core's address (R339). -/
def controlFaults (s : State) (x : Nat) : List FaultRec :=
  if controlAddr s s.cur.g x then [] else [slotFault s 0x0A 1 (x % 2 ^ 48) 0]

/-- SYSRD. A completion register is read after every change of the cycle (R71). -/
def execSysrd (d a : RegField) (i : Imm) (s : State) : Host.Outcome State Fault Refusal :=
  let g := s.cur.g
  let ins : Instr := .sysrd d a i
  if isControl g then
    let x := (sVal s a + immVal i).toNat
    checked s (operandFaults s ins ++ controlFaults s x) (fun s => controlRead (countOperands s ins) d x)
  else
    let n := sysIndex s a i
    checked s (operandFaults s ins ++ sysFaults s n) (fun s =>
      let s := countOperands s ins
      if 0x100 ≤ n ∧ n < 0x104 ∧ landingClash s g (landCyc s 0 1) (.sreg d.toNat 0) = false then
        if d.toNat < 32 then
          let cyc := landCyc s 0 1
          let s := noteLand (reserve s g 5 0 0 cyc) g (coreOf s g).pass.id.serial cyc true
          performAt s 28 (.lateRead n d.toNat cyc)
        else s
      else scalarResult (countDir s g n) d 0 1 (sysRead s g n))

/-- SYSWR: register `i` takes the value in phase 3; a repair request acts after the stores of its cycle (R456). -/
def execSyswr (d a : RegField) (i : Imm) (s : State) : Host.Outcome State Fault Refusal :=
  let g := s.cur.g
  let ins : Instr := .syswr d a i
  if isControl g then
    let x := (sVal s a + immVal i).toNat
    checked s (operandFaults s ins ++ controlFaults s x) (fun s => controlWrite (countOperands s ins) x (sVal s d))
  else
    let n := sysIndex s a i
    checked s (operandFaults s ins) (fun s =>
      performAt (countOperands s ins) (if n = 0x468 then 31 else 30) (.syswr n (sVal s d)))

/-- CANCEL (R241). -/
def execCancel (lvl : BitVec 2) (a : RegField) (i : Imm) (s : State) : Host.Outcome State Fault Refusal :=
  let ins : Instr := .cancel lvl a i
  checked s (operandFaults s ins ++ (if inhibited (coreOf s s.cur.g) then [slotFault s 0x0A 7 0 0] else [])) (fun s =>
    perform (countOperands s ins) (.cancel lvl.toNat ((sVal s a + immVal i).toNat % 2 ^ 16)))

/-- A cancel issued now becomes visible at its cycle v in every partition of the job (R72). -/
def cancelFrom (s : State) (g lvl id : Nat) : State :=
  match partOfCore s g with
  | none => s
  | some p =>
    let v := cnow s g + fenceCost s g (if (partOf s p).pod then 6 else 5)
    (p :: podPeers s p).foldl (fun s q =>
      post s (some q) v 2 none (.instr (.cancelVisible q (BitVec.ofNat 2 lvl) (BitVec.ofNat 16 id)))) s

/-- WINV (R244): marks of the words in o … o + n - 1 are cleared in phase 3. -/
def execWinv (a b : RegField) (m : Md) (s : State) : Host.Outcome State Fault Refusal :=
  let ins : Instr := .winv a b m
  checked s (operandFaults s ins) (fun s =>
    let s := countOperands s ins
    if guardMd s m then
      perform s (.winv ((sVal s a).toNat / 4 % 2 ^ 14 * 4) ((sVal s b).toNat / 4 % 2 ^ 15 * 4))
    else s)

/-- The marks of the words at `o` to `o + n - 1` are cleared. -/
def clearMarks (c : Core) (o n : Nat) : Core :=
  { c with codeValid := c.codeValid.filter (fun e => !(decide (o ≤ 4 * e.1) && decide (4 * e.1 < o + n))) }

/-- IDLE (R190): the core's next bundle issues at the first cycle at or after c + N + 1 that its pace allows. -/
def execIdle (n : BitVec 24) (s : State) : Host.Outcome State Fault Refusal :=
  checked s [] (fun s =>
    let g := s.cur.g
    postAt s g (paceUp (corePace s g) (cnow s g + n.toNat + 1)) 22 none (.issue g))

end Sys2Proof.Machine
end

