-- ==== Sys2Proof/Machine/Lanes.lean ====
section
/-! DEFINITION. What the vector instructions compute from their operands, lane by lane (09, R249 to R266), and the frame
all of them share: faults, latch capture and landing (R250 to R254). -/

namespace Sys2Proof.Machine

/-! ### Formats and layouts (R202, R249, R250) -/

/-- The lane format of VAR; `n` selects the unsigned integer formats. -/
def laneFmt (n : Bool) (f : BitVec 3) : Fmt :=
  match f.toNat with
  | 0 => .f32 | 1 => .bf16 | 2 => .f16
  | 3 => if n then .n32 else .i32
  | 4 => if n then .n16 else .i16
  | _ => if n then .n8 else .i8

/-- The stretch class and nominal latency of element arithmetic in a format (R83, R252). -/
def arithCls (f : BitVec 3) : Nat := match f.toNat with
  | 0 => 6 | 1 => 5 | 2 => 5 | _ => 4
def arithLat (f : BitVec 3) : Nat := match f.toNat with
  | 0 => 4 | 1 => 3 | 2 => 3 | _ => 2

/-- Lane `i` read in a format (R249). -/
def laneIn (f : Fmt) (x : VReg) (i : Nat) : Nat := lane x i % 2 ^ fmtWidth f

/-- Element `k` of width `w` in the packed layout (R250). -/
def elem (w : Nat) (x : VReg) (k : Nat) : Nat := x.toNat / 2 ^ (w * k) % 2 ^ w
/-- A register from its packed elements. -/
def ofElems (w : Nat) (f : Nat → Nat) : VReg :=
  BitVec.ofNat 2048 ((List.range (2048 / w)).foldl (fun a k => a + f k % 2 ^ w * 2 ^ (w * k)) 0)

/-- A lane-wise function of one, two and three registers, in a format. -/
def map1 (f : Fmt) (op : Nat → Nat) (a : VReg) : VReg := ofLanes (fun i => op (laneIn f a i))
def map2 (f : Fmt) (op : Nat → Nat → Nat) (a b : VReg) : VReg := ofLanes (fun i => op (laneIn f a i) (laneIn f b i))
def map3 (f : Fmt) (op : Nat → Nat → Nat → Nat) (d a b : VReg) : VReg :=
  ofLanes (fun i => op (laneIn f d i) (laneIn f a i) (laneIn f b i))

/-! ### Element arithmetic (R255, R256) -/

/-- An integer operation modulo 2^w, or a floating one. -/
def arith2 (f : Fmt) (flt : Fmt → Nat → Nat → Nat) (int : Int → Int → Int) (x y : Nat) : Nat :=
  if fmtIsInt f then wrapInt (fmtWidth f) (int (intVal f x) (intVal f y)) else flt f x y
def laneAdd (f : Fmt) : Nat → Nat → Nat := arith2 f faddC (· + ·)
def laneSub (f : Fmt) : Nat → Nat → Nat := arith2 f fsubC (· - ·)
def laneMul (f : Fmt) : Nat → Nat → Nat := arith2 f fmulC (· * ·)
def laneMin (f : Fmt) : Nat → Nat → Nat := arith2 f fminC min
def laneMax (f : Fmt) : Nat → Nat → Nat := arith2 f fmaxC max
def laneFma (f : Fmt) (neg : Bool) (d x y : Nat) : Nat :=
  if fmtIsInt f then
    let p := intVal f x * intVal f y
    wrapInt (fmtWidth f) (intVal f d + (if neg then -p else p))
  else ffmaC f x y neg d
def laneAbs (f : Fmt) (x : Nat) : Nat :=
  if fmtIsInt f then wrapInt (fmtWidth f) (intVal f x).natAbs
  else if isNaN (valOf f x) then defaultNaN f else x % 2 ^ (fmtWidth f - 1)
def laneNeg (f : Fmt) (x : Nat) : Nat :=
  if fmtIsInt f then wrapInt (fmtWidth f) (-(intVal f x))
  else if isNaN (valOf f x) then defaultNaN f
  else if x < 2 ^ (fmtWidth f - 1) then x + 2 ^ (fmtWidth f - 1) else x - 2 ^ (fmtWidth f - 1)
def laneSat (f : Fmt) (op : Int → Int → Int) (x y : Nat) : Nat :=
  wrapInt (fmtWidth f) (sat (op (intVal f x) (intVal f y)) (intMin f) (intMax f))
def laneMulh (f : Fmt) (x y : Nat) : Nat := wrapInt (fmtWidth f) (intVal f x * intVal f y / 2 ^ fmtWidth f)
def laneShl (f : Fmt) (x y : Nat) : Nat := x * 2 ^ (y % fmtWidth f) % 2 ^ fmtWidth f
def laneShr (f : Fmt) (x y : Nat) : Nat := x / 2 ^ (y % fmtWidth f)
def laneSar (f : Fmt) (x y : Nat) : Nat := wrapInt (fmtWidth f) (intVal f x / 2 ^ (y % fmtWidth f))
/-- A function of exact values rounded once (R136, R260). -/
def laneFn (f : Fmt) (op : Val → Val) (x : Nat) : Nat := roundNE (op (valOf f x)) f
def laneDiv (f : Fmt) (x y : Nat) : Nat := roundNE (divV (valOf f x) (valOf f y)) f

/-! ### Compare, convert (R257, R259) -/

/-- The mask of a comparison. -/
def cmpMask (f : Fmt) (cond : BitVec 3) (a b : VReg) : Word :=
  BitVec.ofNat 64 ((List.range 64).foldl (fun m i =>
    m + (compareVals cond.toNat (valOf f (laneIn f a i)) (valOf f (laneIn f b i))).toNat * 2 ^ i) 0)

/-- VCVT's lanes. -/
def cvtLanes (src dst : Fmt) (rm : Nat) (rnd : BitVec 1024) (a : VReg) : VReg :=
  ofLanes (fun i => convert src dst (laneIn src a i) rm (if rm = 2 then laneBits rnd i else 0))

/-! ### Reductions and scans (R134, R135, R261) -/

/-- The operation of OPR in a format, and its identity. -/
def redOp (f : Fmt) (op : Nat) (x y : Nat) : Nat :=
  let n : Fmt := match f with
    | .i32 => .n32 | .i16 => .n16 | .i8 => .n8 | g => g
  match op with
  | 0 => laneAdd f x y
  | 1 => laneMin f x y
  | 2 => laneMax f x y
  | 3 => x &&& y
  | 4 => x ||| y
  | 5 => x ^^^ y
  | 6 => laneMin n x y
  | _ => laneMax n x y
def redIdentity (f : Fmt) (op : Nat) : Nat :=
  let w := fmtWidth f
  match op with
  | 0 => if fmtIsInt f then 0 else 2 ^ (w - 1)
  | 1 => if fmtIsInt f then 2 ^ (w - 1) - 1 else infCode f false
  | 2 => if fmtIsInt f then 2 ^ (w - 1) else infCode f true
  | 3 => 2 ^ w - 1
  | 6 => 2 ^ w - 1
  | _ => 0

/-- One step of the tree: lanes `i` with `sel i` take Op(y[i - d], y[i]). -/
def treeStep (op : Nat → Nat → Nat) (d : Nat) (sel : Nat → Bool) (y : List Nat) : List Nat :=
  (List.range y.length).map (fun i => if sel i then op (y.getD (i - d) 0) (y.getD i 0) else y.getD i 0)
def upSweep (op : Nat → Nat → Nat) (y : List Nat) : List Nat :=
  [1, 2, 4, 8, 16, 32].foldl (fun y d => treeStep op d (fun i => (i + 1) % (2 * d) = 0) y) y
def downSweep (op : Nat → Nat → Nat) (y : List Nat) : List Nat :=
  [16, 8, 4, 2, 1].foldl (fun y d => treeStep op d (fun i => decide (2 * d ≤ i) && (i + 1) % (2 * d) = d) y) y

/-- The masked input lanes. -/
def redInput (f : Fmt) (op : Nat) (mask : Word) (a : VReg) : List Nat :=
  (List.range 64).map (fun i => if mask.getLsbD i then laneIn f a i else redIdentity f op)
def redLanes (f : Fmt) (op : Nat) (mask : Word) (a : VReg) : VReg :=
  let y := (upSweep (redOp f op) (redInput f op mask a)).getD 63 0
  ofLanes (fun _ => y)
def scanLanes (f : Fmt) (op : Nat) (mask : Word) (a : VReg) : VReg :=
  let y := downSweep (redOp f op) (upSweep (redOp f op) (redInput f op mask a))
  ofLanes (fun i => y.getD i 0)

/-! ### Lane movement, packing, dot products (R262 to R265) -/

def permLanes (a b : VReg) : VReg := ofLanes (fun i => lane a (lane b i % 64))
/-- The 128-lane sequence of two registers. -/
def seq128 (a b : VReg) (i : Nat) : Nat := if i < 64 then lane a i else lane b (i - 64)
def shufLanes (pat : Nat) (a b : VReg) : VReg :=
  ofLanes (fun i =>
    match pat with
    | 0 => if i % 2 = 0 then lane a (i / 2) else lane b (i / 2)
    | 1 => if i % 2 = 0 then lane a (32 + i / 2) else lane b (32 + i / 2)
    | 2 => seq128 a b (2 * i)
    | 3 => seq128 a b (2 * i + 1)
    | _ => lane a (63 - i))
def extLanes (k : Nat) (a b : VReg) : VReg := ofLanes (fun i => seq128 a b (i + k))
def packLanes (w : Nat) (a b : VReg) : VReg :=
  let n := 1024 / w
  ofElems w (fun k => (if k < n then elem (2 * w) a k else elem (2 * w) b (k - n)) % 2 ^ w)
def unpackLanes (w mode : Nat) (a : VReg) : VReg :=
  let n := 1024 / w
  ofElems (2 * w) (fun k =>
    let e := elem w a (k + mode % 2 * n)
    if 2 ≤ mode then wrapInt (2 * w) (signed w e) else e)
def dotLanes (f : Fmt) (d a b : VReg) : VReg :=
  ofLanes (fun i =>
    match f with
    | .bf16 | .f16 =>
      let p (k : Nat) : Val := mulV (valOf f (elem 16 a (2 * i + k))) (valOf f (elem 16 b (2 * i + k)))
      roundNE (addV (addV (valOf .f32 (lane d i)) (p 0)) (p 1)) .f32
    | _ =>
      let w := fmtWidth f
      let n := 32 / w
      wrapInt 32 ((List.range n).foldl (fun s k =>
        s + signed w (elem w a (n * i + k)) * signed w (elem w b (n * i + k))) (signed 32 (lane d i))))

/-- Index of the lowest one bit, or 64 (R266). -/
def firstOne (x : Word) : Nat := ((List.range 64).find? (fun i => x.getLsbD i)).getD 64
def countOnes (x : Word) : Nat := (List.range 64).foldl (fun n i => n + (x.getLsbD i).toNat) 0

/-! ### The frame of a V slot -/

/-- Faults every V slot may raise: UNCORR 1, a dead pipe, BANK 1 (R90, R398, R460). -/
def vecFaults (s : State) (i : Instr) : List FaultRec := operandFaults s i ++ deadFaults s ++ vreadFaults s i

/-- The reads of a V slot, and its latch capture when H is set (R91, R251). -/
def vecReads (s : State) (i : Instr) (h : Bool) (a : RegField) (m : Md) : State :=
  let s := noteVreads (countOperands s i) i
  if h && guardMd s m then perform s (.capture (latchOf s) (vVal s a)) else s

/-- A result that lands at `cyc`, or with a false guard its port alone (R197). -/
def landGuarded (s : State) (m : Md) (cyc cls : Nat) (l : Landing) : State :=
  if guardMd s m then landResult s cyc cls l
  else
    match landPort l with
    | some (p, b) => reserve s s.cur.g p b 0 cyc
    | none => s

/-- A V-class result (R254). -/
def vecOp (i : Instr) (h : Bool) (a : RegField) (m : Md) (cls nominal : Nat) (l : Landing) (s : State) :
    Host.Outcome State Fault Refusal :=
  let cyc := landCyc s cls nominal
  checked s (vecFaults s i ++ landFaults s s.cur.g cyc l) (fun s =>
    landGuarded (vecReads s i h a m) m cyc cls l)

/-- A result in a vector register, in the lanes the mask enables. -/
def vecLand (s : State) (d : RegField) (m : Md) (x : VReg) : Landing := .vreg d.toNat (laneMask s m) x

/-- A V slot with a scalar result; destination zero discards it. -/
def vecScalar (i : Instr) (h : Bool) (a d : RegField) (m : Md) (cls nominal : Nat) (x : Word) (s : State) :
    Host.Outcome State Fault Refusal :=
  if d.toNat < 32 then vecOp i h a m cls nominal (.sreg d.toNat x) s
  else checked s (vecFaults s i) (fun s => vecReads s i h a m)

/-- The head word of the Chamois queue, and the queue without it (R126). -/
def chamoisHead (s : State) : BitVec 1024 := (coreOf s s.cur.g).live.rnd.queue.headD 0
def popChamois (s : State) : State :=
  modCore s s.cur.g (fun c => { c with live := { c.live with
    rnd := { c.live.rnd with queue := c.live.rnd.queue.tail } } })
/-- OPERAND 2: the queue holds no word (R126, R354). -/
def popFaults (s : State) : List FaultRec :=
  if (coreOf s s.cur.g).live.rnd.queue = [] then [slotFault s 0x0A 2 0 0] else []

end Sys2Proof.Machine
end

