-- ==== Sys2Proof/Machine/VMem.lean ====
section
/-! DEFINITION. Vector loads and stores (09, R267 to R271). -/

namespace Sys2Proof.Machine

/-- The elements of an access: lane and offset. -/
abbrev Elems := List (Nat × Int)

/-- The offsets of an access's bytes, `n` bytes an element. -/
def elemOffs (es : Elems) (n : Nat) : List Nat := es.flatMap (fun e => spanOf e.2 n)

/-- The lanes a slot's mask enables. -/
def activeLanes (s : State) (m : Md) : List Nat := (List.range 64).filter (fun i => (laneMask s m).getLsbD i)

/-- Strided and indexed elements (R268): value(A) + i × value(B), B signed, or value(A) + lane i of B. -/
def strided (s : State) (a b : RegField) (m : Md) : Elems :=
  (activeLanes s m).map (fun i => (i, ((sVal s a).toNat : Int) + i * (sVal s b).toInt))
def indexed (s : State) (a b : RegField) (m : Md) : Elems :=
  (activeLanes s m).map (fun i => (i, ((sVal s a).toNat : Int) + lane (vVal s b) i))
/-- 64 consecutive elements of `n` bytes (R267). -/
def consecutive (x : Int) (n : Nat) : Elems := (List.range 64).map (fun i => (i, x + i * n))

/-- Bytes of an element of VAR's width, and of SIZE's (R249, R267). -/
def varBytes (f : BitVec 3) : Nat := fmtWidth (laneFmt false f) / 8
def sizeBytes (z : BitVec 2) : Nat := 2 ^ z.toNat

/-- Faults of a load of elements, when its guard is true: OPERAND 1, then ports and UNCORR (R354, R379). -/
def loadElemFaults (s : State) (m : Md) (es : Elems) (n : Nat) (ofs : List FaultRec) : List FaultRec :=
  if guardMd s m = false then []
  else if ofs ≠ [] then ofs
  else
    let offs := elemOffs es n
    readPortFaults s s.cur.g (linesOf offs) (cnow s s.cur.g) false ++ loadFaults s s.cur.g offs

/-- Faults of a store of elements. -/
def storeElemFaults (s : State) (m : Md) (es : Elems) (n : Nat) (ofs : List FaultRec) : List FaultRec :=
  if guardMd s m = false then []
  else if ofs ≠ [] then ofs
  else
    let offs := elemOffs es n
    writePortFaults s s.cur.g offs (cnow s s.cur.g) ++ budgetFaults s offs

/-- OPERAND 1 for any unmasked element (R268). -/
def elemFaults (s : State) (es : Elems) (n : Nat) : List FaultRec := offsetFaults s (es.map (·.2)) n n

/-- The register a load delivers: each element zero-extended in its lane. -/
def loadedLanes (s : State) (es : Elems) (n : Nat) : VReg :=
  ofLanes (fun i => match es.find? (fun e => e.1 = i) with
    | some e => leNat (sliceBytes s s.cur.g e.2.toNat n)
    | none => 0)

/-- A vector load: reads in phase 2, lands after class 13. -/
def vecLoad (ins : Instr) (d : RegField) (m : Md) (es : Elems) (n : Nat) (ofs : List FaultRec) (s : State) :
    Host.Outcome State Fault Refusal :=
  let g := s.cur.g
  let cyc := landCyc s 13 5
  let l := vecLand s d m (loadedLanes s es n)
  checked s (vecFaults s ins ++ landFaults s g cyc l ++ loadElemFaults s m es n ofs) (fun s =>
    let s := noteVreads (countOperands s ins) ins
    let offs := elemOffs es n
    let s := if guardMd s m then
      reserveRead (countLoad s g offs) g (linesOf offs) (cnow s g) else s
    landGuarded s m cyc 13 l)

/-- The bytes a store writes, in ascending lane order. -/
def storedBytes (x : VReg) (es : Elems) (n : Nat) : List (Nat × Byte) :=
  es.flatMap (fun e => (List.range n).map (fun k => (e.2.toNat + k, byteOf (lane x e.1) k)))

/-- A vector store: writes in phase 3 (R270). -/
def vecStore (ins : Instr) (d : RegField) (m : Md) (es : Elems) (n : Nat) (ofs : List FaultRec) (s : State) :
    Host.Outcome State Fault Refusal :=
  let g := s.cur.g
  checked s (vecFaults s ins ++ storeElemFaults s m es n ofs) (fun s =>
    let s := noteVreads (countOperands s ins) ins
    if guardMd s m = false ∨ es = [] then s
    else
      let offs := elemOffs es n
      let s := countLines s offs
      perform (reserveWrite s g (linesOf offs) (cnow s g)) (.store (storedBytes (vVal s d) es n) true))

/-- VLD. -/
def execVld (z : BitVec 2) (d r : RegField) (i : Imm) (s : State) : Host.Outcome State Fault Refusal :=
  let n := sizeBytes z
  let x := scalarOffset s r i (64 * n)
  vecLoad (.vld z d r i) d none (consecutive x n) n (offsetFaults s [x] 64 (64 * n)) s

/-- VLDS. -/
def execVlds (f : BitVec 3) (d a b : RegField) (m : Md) (s : State) : Host.Outcome State Fault Refusal :=
  let es := strided s a b m
  vecLoad (.vlds f d a b m) d m es (varBytes f) (elemFaults s es (varBytes f)) s

/-- VLDG. -/
def execVldg (f : BitVec 3) (d a b : RegField) (m : Md) (s : State) : Host.Outcome State Fault Refusal :=
  let es := indexed s a b m
  vecLoad (.vldg f d a b m) d m es (varBytes f) (elemFaults s es (varBytes f)) s

/-- VST. -/
def execVst (z : BitVec 2) (d r : RegField) (i : Imm) (s : State) : Host.Outcome State Fault Refusal :=
  let n := sizeBytes z
  let x := scalarOffset s r i (64 * n)
  vecStore (.vst z d r i) d none (consecutive x n) n (offsetFaults s [x] 64 (64 * n)) s

/-- VSTS. -/
def execVsts (f : BitVec 3) (d a b : RegField) (m : Md) (s : State) : Host.Outcome State Fault Refusal :=
  let es := strided s a b m
  vecStore (.vsts f d a b m) d m es (varBytes f) (elemFaults s es (varBytes f)) s

/-- VSTX. -/
def execVstx (f : BitVec 3) (d a b : RegField) (m : Md) (s : State) : Host.Outcome State Fault Refusal :=
  let es := indexed s a b m
  vecStore (.vstx f d a b m) d m es (varBytes f) (elemFaults s es (varBytes f)) s

/-! ### VSTM (R154, R271) -/

/-- The directory entry whose element array holds every element, with elements of `n` bytes. DESIGN CHOICE (log entry 56): of several
such entries, the lowest is the tile whose margins a VSTM updates (R154 and R271 speak of one). -/
def vstmEntry (s : State) (es : Elems) (n : Nat) : Option Nat :=
  let c := coreOf s s.cur.g
  ((List.range 56).map (· + 8)).find? (fun e =>
    let w := dirEntry c e
    dValid w && decide (fmtWidth (tileFmt (dFmt w)) = 8 * n) &&
      es.all (fun x => decide ((dBase w : Int) ≤ x.2) && decide (x.2 + (n : Int) ≤ (dBase w : Int) + tileBytes (dFmt w))))

/-- OPERAND 8: the elements lie outside one tile, or name one element twice. -/
def vstmFaults (s : State) (m : Md) (es : Elems) (n : Nat) : List FaultRec :=
  if guardMd s m = false ∨ es = [] then []
  else if elemFaults s es n ≠ [] then elemFaults s es n
  else if (vstmEntry s es n).isNone ∨ (es.map (·.2)).eraseDups.length ≠ es.length then [slotFault s 0x0A 8 0 0]
  else []

/-- BANK 7 and UNCORR of the bank ALUs' reads of the old values (R322, R398). -/
def oldReadFaults (s : State) (m : Md) (es : Elems) (n : Nat) : List FaultRec :=
  if guardMd s m then
    readPortFaults s s.cur.g (linesOf (elemOffs es n)) (cnow s s.cur.g) true ++ loadFaults s s.cur.g (elemOffs es n)
  else []

/-- The elements inside the filled region: row, column, old code, new code (R150, R154). -/
def vstmWrites (s : State) (w : Word) (x : VReg) (es : Elems) (n : Nat) : List (Nat × Nat × Nat × Nat) :=
  (es.map (fun e =>
    let k := (e.2.toNat - dBase w) / n
    (k / 64, k % 64, leNat (sliceBytes s s.cur.g e.2.toNat n), lane x e.1 % 2 ^ (8 * n)))).filter (fun q =>
      decide (q.1 < dRows w) && decide (q.2.1 < dCols w))

/-- VSTM. -/
def execVstm (f : BitVec 3) (d a b : RegField) (m : Md) (s : State) : Host.Outcome State Fault Refusal :=
  let g := s.cur.g
  let n := varBytes f
  let es := strided s a b m
  let ins : Instr := .vstm f d a b m
  let own := vstmFaults s m es n
  let ports := if own = [] then oldReadFaults s m es n ++ storeElemFaults s m es n [] else []
  checked s (vecFaults s ins ++ own ++ ports) (fun s =>
    let s := noteVreads (countOperands s ins) ins
    if guardMd s m = false ∨ es = [] then s
    else
      match vstmEntry s es n with
      | none => s
      | some e =>
        let offs := elemOffs es n
        let lines := linesOf offs
        let ws := vstmWrites s (dirEntry (coreOf s g) e) (vVal s d) es n
        let s := countLoad s g offs
        let s := reserveRead s g lines (cnow s g)
        let s := lines.foldl (fun s l => reserve s g 3 (bankOf (64 * l)) l (cnow s g)) s
        let s := countLines s offs
        let s := perform (reserveWrite s g lines (cnow s g)) (.store (storedBytes (vVal s d) es n) false)
        land s g (cnow s g + 2) (some (srcNow s g 0 0xFFFF)) (.vstm e ws))

end Sys2Proof.Machine
end

