-- ==== Sys2Proof/Machine/Margins.lean ====
section
/-! DEFINITION. Margins: how they are formed, stored and compared, and how crossed residues locate and restore an element
(05, R146 to R152; 16, R381 to R393). A margin is held as its code: 32 bits for f32 and int32, 64 for f64 and int64. -/

namespace Sys2Proof.Machine

/-- Row margins and column margins. -/
abbrev Margins := List Nat × List Nat

/-- The margin format of a tile format code (R148): 0 f32, 1 int32, 2 f64, 3 int64. -/
def marginKind (fmt : Nat) : Nat := if fmt ≤ 6 then 0 else if fmt ≤ 12 then 1 else if fmt = 13 then 2 else 3

/-- Is the margin format a float format? -/
def marginFloat (mk : Nat) : Bool := mk % 2 = 0

/-- The integer a value stands for; 0 for one that is no integer. -/
def intOfVal : Val → Int
  | .fin neg a d e =>
    let q : Int := ((scaleQ a d e).1 / (scaleQ a d e).2 : Nat)
    if neg then -q else q
  | _ => 0

/-- The magnitude of a value. -/
def absV : Val → Val
  | .fin _ a d e => .fin false a d e
  | .inf _ => .inf false
  | .nan => .nan

/-- The zero value. -/
def zeroV : Val := .fin false 0 1 0

/-- The value of a margin code. -/
def marginVal (mk x : Nat) : Val :=
  match mk with
  | 0 => valOf .f32 x
  | 1 => valOfInt (signed 32 x)
  | 2 => valOf .f64 x
  | _ => valOfInt (signed 64 x)

/-- One margin: the sum of its elements (R151). -/
def formSum (mk : Nat) (vs : List Val) : Nat :=
  match mk with
  | 0 => convertF (valOf .f64 (chunkSum vs)) .f32 0 0
  | 1 => wrapInt 32 (vs.foldl (fun a v => a + intOfVal v) 0)
  | 2 => chunkSum vs
  | _ => wrapInt 64 (vs.foldl (fun a v => a + intOfVal v) 0)

/-- The 64 numbers of a row or column. -/
def lane64 : List Nat := List.range 64

/-- All margins of a tile, from its element values (R151). -/
def formMargins (mk : Nat) (e : Nat → Nat → Val) : Margins :=
  (lane64.map (fun i => formSum mk (lane64.map (fun j => e i j))),
   lane64.map (fun j => formSum mk (lane64.map (fun i => e i j))))

/-- The 256 words of a margin slot (R152). -/
def marginWords (mk : Nat) (m : Margins) : List (BitVec 32) :=
  let l := m.1 ++ m.2
  if mk ≤ 1 then l.map (BitVec.ofNat 32) ++ List.replicate 128 0#32
  else l.flatMap (fun x => [BitVec.ofNat 32 x, BitVec.ofNat 32 (x / 2 ^ 32)])

/-- The margins that 256 words hold. -/
def marginsOf (mk : Nat) (ws : List (BitVec 32)) : Margins :=
  let w (i : Nat) : Nat := (ws.getD i 0).toNat
  if mk ≤ 1 then (lane64.map w, lane64.map (fun i => w (64 + i)))
  else (lane64.map (fun i => w (2 * i) + w (2 * i + 1) * 2 ^ 32),
        lane64.map (fun i => w (128 + 2 * i) + w (128 + 2 * i + 1) * 2 ^ 32))

/-- The words of entry `e`'s margin slot. -/
def slotWords (c : Core) (e : Nat) : List (BitVec 32) := (List.range 256).map (margWord c e)

/-- The stored margins of entry `e`, read in a margin format. -/
def storedMargins (c : Core) (e mk : Nat) : Margins := marginsOf mk (slotWords c e)

/-- Margins land in entry `e`, with MST = 1 (R152). -/
def landMargins (c : Core) (e mk : Nat) (m : Margins) : Core := setMst (setMargins c e (marginWords mk m)) e true

/-! ### Agreement (R382 to R384) -/

/-- Does `a ≤ b` hold of two finite values? -/
def leFin (a b : Val) : Bool := !ltV b a

/-- Do a formed and a reference margin agree (R382)? The tolerance is a value; a NaN or an infinity accepts any two
finite margins. -/
def agree (mk : Nat) (tau : Val) (x y : Nat) : Bool :=
  if marginFloat mk then
    match marginVal mk x, marginVal mk y with
    | .nan, .nan => true
    | .inf a, .inf b => a = b
    | .fin n a d e, .fin m b c f =>
      (match tau with
       | .fin .. => leFin (absV (addV (.fin n a d e) (negV (.fin m b c f)))) tau
       | _ => true)
    | _, _ => false
  else x = y

/-- |x − y| as R387 ranks candidates: 0 for a pair that agrees as NaN or as infinity. -/
def distance (mk x y : Nat) : Val :=
  match marginVal mk x, marginVal mk y with
  | .fin n a d e, .fin m b c f => absV (addV (.fin n a d e) (negV (.fin m b c f)))
  | _, _ => zeroV

/-- ε(F) and λ(F) of R384. -/
def tolEps (f : Fmt) : Val :=
  match f with
  | .f32 => .fin false 1 1 (-22) | .bf16 => .fin false 1 1 (-6) | .f16 => .fin false 1 1 (-9)
  | .e5m2 => .fin false 1 1 (-1) | .e4m3 => .fin false 1 1 (-2) | .dm8 => .fin false 1 1 (-1)
  | _ => .fin false 1 1 0
def tolLambda (f : Fmt) : Val :=
  match f with
  | .f32 => .fin false 1 1 (-149) | .bf16 => .fin false 1 1 (-133) | .f16 => .fin false 1 1 (-24)
  | .e5m2 => .fin false 1 1 (-16) | .e4m3 => .fin false 1 1 (-9) | .dm8 => .fin false 1 1000000 0
  | _ => .fin false 1 1 (-1)

/-- The tolerance of a row or column of a scratchpad tile with absolute sum `alpha` (R384). -/
def scratchTol (f : Fmt) (alpha : Val) : Val :=
  addV (mulV (addV (tolEps f) (.fin false 1 1 (-18))) alpha) (mulV (.fin false 64 1 0) (tolLambda f))

/-- The tolerances of a scratchpad tile, rows then columns. -/
def scratchTols (fmt : Nat) (e : Nat → Nat → Val) : List Val × List Val :=
  let a := formMargins (marginKind fmt) (fun i j => absV (e i j))
  (a.1.map (fun x => scratchTol (tileFmt fmt) (marginVal (marginKind fmt) x)),
   a.2.map (fun x => scratchTol (tileFmt fmt) (marginVal (marginKind fmt) x)))

/-- The exact tolerance. -/
def exactTols : List Val × List Val := (List.replicate 64 zeroV, List.replicate 64 zeroV)

/-! ### Locating and restoring an element (R386 to R388) -/

/-- What a check found: rows and columns that disagree, the located element with its restored code and the bit of R387,
and the margins that land. -/
structure CheckRes where
  rows : List Nat
  cols : List Nat
  fixed : Option (Nat × Nat × Nat × Nat)
  margins : Margins
  deriving DecidableEq, Repr

/-- A tile as a check reads it: format, element codes, the value of a code, and whether an element is filled (R150). -/
structure Grid where
  fmt : Nat
  codes : List (List Nat)
  rows : Nat
  cols : Nat
  deriving DecidableEq, Repr

/-- Width of an element. -/
def elemWidth (fmt : Nat) : Nat := fmtWidth (tileFmt fmt)

/-- Value of a code of tile format `fmt`: an element as it enters the array (R129), or a cell. -/
def codeVal (fmt x : Nat) : Val :=
  if fmt = 14 then valOfInt (signed 64 x) else arrayVal (tileFmt fmt) x

def Grid.code (t : Grid) (i j : Nat) : Nat := (t.codes.getD i []).getD j 0
def Grid.val (t : Grid) (i j : Nat) : Val := if i < t.rows ∧ j < t.cols then codeVal t.fmt (t.code i j) else zeroV
/-- The values of a row and of a column, with `x` in place of element `k` of it; an unfilled one reads zero all the same. -/
def Grid.valWith (t : Grid) (i j x : Nat) : Val := if i < t.rows ∧ j < t.cols then codeVal t.fmt x else zeroV
def Grid.rowWith (t : Grid) (i k x : Nat) : List Val := lane64.map (fun j => if j = k then t.valWith i k x else t.val i j)
def Grid.colWith (t : Grid) (j k x : Nat) : List Val := lane64.map (fun i => if i = k then t.valWith k j x else t.val i j)
def Grid.margins (t : Grid) : Margins := formMargins (marginKind t.fmt) t.val

/-- The restored code of a float element, and its bit (R387). -/
def restoreFloat (t : Grid) (ref : Margins) (tol : List Val × List Val) (i n : Nat) : Option (Nat × Nat) :=
  let mk := marginKind t.fmt
  let c := t.code i n
  let cands := (List.range (elemWidth t.fmt)).filterMap (fun b =>
    let x := c ^^^ 2 ^ b
    let r := formSum mk (t.rowWith i n x)
    let k := formSum mk (t.colWith n i x)
    let rr := ref.1.getD i 0
    let kr := ref.2.getD n 0
    if agree mk (tol.1.getD i zeroV) r rr && agree mk (tol.2.getD n zeroV) k kr then
      some (x, b, addV (distance mk r rr) (distance mk k kr))
    else none)
  match cands with
  | [] => none
  | q :: qs =>
    let best := qs.foldl (fun a b => if ltV b.2.2 a.2.2 then b else a) q
    some (best.1, best.2.1)

/-- The restored code of an integer element (R388). -/
def restoreInt (t : Grid) (formed ref : Margins) (i n : Nat) : Option Nat :=
  let w := if t.fmt = 14 then 64 else 32
  let d := ((formed.1.getD i 0 : Int) - ref.1.getD i 0) % 2 ^ w
  let e := ((formed.2.getD n 0 : Int) - ref.2.getD n 0) % 2 ^ w
  if d ≠ e then none
  else if t.fmt = 14 then some (wrapInt 64 ((t.code i n : Int) - d))
  else
    let f := tileFmt t.fmt
    let v := intVal f (t.code i n) - signed 32 d.toNat
    if intMin f ≤ v ∧ v ≤ intMax f then some (wrapInt (fmtWidth f) v) else none

/-- A check of a tile against reference margins (R382, R386 to R389). -/
def runCheck (t : Grid) (formed ref : Margins) (tol : List Val × List Val) : CheckRes :=
  let mk := marginKind t.fmt
  let rb := lane64.filter (fun i => !agree mk (tol.1.getD i zeroV) (formed.1.getD i 0) (ref.1.getD i 0))
  let cb := lane64.filter (fun j => !agree mk (tol.2.getD j zeroV) (formed.2.getD j 0) (ref.2.getD j 0))
  match rb, cb with
  | [i], [n] =>
    let fix := if marginFloat mk then restoreFloat t ref tol i n else (restoreInt t formed ref i n).map (fun x => (x, 0))
    match fix with
    | some (x, b) =>
      let m : Margins := (formed.1.set i (formSum mk (t.rowWith i n x)), formed.2.set n (formSum mk (t.colWith n i x)))
      ⟨rb, cb, some (i, n, x, b), m⟩
    | none => ⟨rb, cb, none, formed⟩
  | _, _ => ⟨rb, cb, none, formed⟩

/-- Did the check pass with nothing to correct? -/
def CheckRes.clean (r : CheckRes) : Bool := r.rows.isEmpty && r.cols.isEmpty

/-- DETAIL of a MARGIN fault (R393). -/
def marginDetail (e what : Nat) (r : CheckRes) : Word :=
  BitVec.ofNat 64 (e + what * 2 ^ 6 + r.rows.length * 2 ^ 8 + r.cols.length * 2 ^ 15 +
    r.rows.headD 0 * 2 ^ 22 + r.cols.headD 0 * 2 ^ 28)

/-- A correction is logged and counted (R287, R389, R392). -/
def logCorrection (c : Core) (tide e i n bit kind src : Nat) : Core :=
  let k := fieldOf (sysGet c 0x418) 0 32
  let w := BitVec.ofNat 64 (e + i * 2 ^ 6 + n * 2 ^ 12 + bit * 2 ^ 18 + kind * 2 ^ 24 + src * 2 ^ 26 + tide % 2 ^ 32 * 2 ^ 32)
  sysSet (sysSet c (0x410 + k % 8) w) 0x418 (withField (sysGet c 0x418) 0 32 (k + 1))

/-- A cell is corrected in place: no injector counts or alters it (R389, R405). -/
def fixCell (c : Core) (t i n x : Nat) : Core :=
  let k := t * 4096 + i * 64 + n
  { c with live := { c.live with acc := tabSet zeroAt c.live.acc k (BitVec.ofNat 64 x)
                                 bad := tabDel c.live.bad (badKey 1 k) } }

/-- The byte offset in a tile's element array of element (i, j), and its bit there (R118, R149). -/
def elemPlace (fmt i j : Nat) : Nat × Nat :=
  let b := (64 * i + j) * elemWidth fmt
  (b / 8, b % 8)

/-- `w` bits of a number replaced from bit `lo`. -/
def putBits (x lo w v : Nat) : Nat := x - x / 2 ^ lo % 2 ^ w * 2 ^ lo + v % 2 ^ w * 2 ^ lo

/-- A scratchpad element is corrected through the repair path, and in the undo log (R389); it is a part of its word, whose other
bytes are read (R397). -/
def fixElem (s : State) (g base fmt i j x : Nat) : State :=
  let pl := elemPlace fmt i j
  let o := base + pl.1
  let n := max 1 (elemWidth fmt / 8)
  let old := leNat (sliceBytes s g o n)
  let s := memPut s (sliceAddr g o) (leBytes n (putBits old pl.2 (elemWidth fmt) x))
  let b := badAt s (sliceAddr g o)
  let s := if b = 1000 then s else setBad s (sliceAddr g o) 0
  let s := if b ≠ 0 ∧ b ≠ 1000 ∧ n < 8 then postError s g 0 0 (o / 8) 1 else s
  modCore s g (fun c => { c with pass := { c.pass with undo := c.pass.undo.map (fun u =>
    if u.off = o / 64 * 64 then
      { u with bytes := BitVec.ofNat 512 (putBits u.bytes.toNat (8 * (o % 64) + pl.2) (elemWidth fmt) x) }
    else u) } })

end Sys2Proof.Machine
end

