-- ==== Sys2Proof/Machine/Engine.lean ====
section
/-! DEFINITION. The matrix engine: what an operation in flight reads, sums and predicts (10, R275 to R292; 16, R383), and
the faults and holds of its issue (15, R378). -/

namespace Sys2Proof.Machine

/-! ### Operands (R275, R278, R284) -/

/-- Of operand format `f`: tile format code, number of sub-tiles, bytes of a sub-tile, whether the result is an integer. -/
def mmTile (f : Nat) : Nat := match f with
  | 0 => 1 | 1 => 2 | 2 => 4 | 3 => 3 | 4 => 5 | 5 => 7 | 6 => 8 | _ => 6
def mmSubs (f : Nat) : Nat := if f ≤ 1 then 1 else if f = 7 then 4 else 2
def mmStride (f : Nat) : Nat := 8192 / mmSubs f
def mmInt (f : Nat) : Bool := f = 5 || f = 6
def resultFmt (f : Nat) : Nat := if mmInt f then 14 else 13

/-- Element (x, y) of a tile of format `fmt` that starts `base` bytes into the lines (R118, R149). -/
def lineElem (fmt : Nat) (lines : Tab (BitVec 512)) (base x y : Nat) : Nat :=
  let w := elemWidth fmt
  let b := base * 8 + (64 * x + y) * w
  (tabGet zeroAt lines (b / 512)).toNat / 2 ^ (b % 512) % 2 ^ w

/-- The filled rows and columns of sub-tile `j` of operand `o` (R278). -/
def declRegion (m : MOp) (o j : Nat) : Nat × Nat :=
  match m.decls.find? (fun d => (d.1 = o || (o = 1 && d.1 = 2)) && d.2.1 = j) with
  | some d => (dRows d.2.2.2.1, dCols d.2.2.2.1)
  | none => (64, 64)

/-- A tile as read from lines, with its region. -/
def lineGrid (fmt : Nat) (lines : Tab (BitVec 512)) (base rows cols : Nat) : Grid :=
  ⟨fmt, lane64.map (fun x => lane64.map (fun y => lineElem fmt lines base x y)), rows, cols⟩

/-- Sub-tile `j` of operand `o` (R278). -/
def subTile (m : MOp) (o j : Nat) : Grid :=
  let r := declRegion m o j
  lineGrid (mmTile m.fmt) (if o = 0 then m.aLines else m.bLines) (mmStride m.fmt * j) r.1 r.2

/-- A value with a block scale (R284). -/
def scaleVal (v : Val) (code : Nat) : Val :=
  match scaleExp code with
  | some e => shiftV v e
  | none => .nan

/-- Byte `i` of scale row `r` as the operation read it. -/
def scaleByte (m : MOp) (r i : Nat) : Nat := (tabGet zeroAt m.scales r).toNat / 2 ^ (8 * i) % 256

/-- K of the operation (R275). -/
def kOf (m : MOp) : Nat := 64 * mmSubs m.fmt

/-- The rows A'(i, ·), and the columns B'(·, n) of grid column `col` (R275, R278, R284). -/
def aRows (m : MOp) : List (List Val) :=
  let ts := (List.range (mmSubs m.fmt)).map (subTile m 0)
  lane64.map (fun i => (List.range (kOf m)).map (fun k =>
    let t := ts.getD (k / 64) ⟨0, [], 0, 0⟩
    let v := if m.mat then t.val (k % 64) i else t.val i (k % 64)
    if m.sc then scaleVal v (scaleByte m (k / 32) i) else v))
def bCols (m : MOp) (col : Nat) : List (List Val) :=
  let ts := (List.range (mmSubs m.fmt)).map (fun j => subTile m 1 (col * mmSubs m.fmt + j))
  lane64.map (fun n => (List.range (kOf m)).map (fun k =>
    let t := ts.getD (k / 64) ⟨0, [], 0, 0⟩
    let v := if m.t then t.val n (k % 64) else t.val (k % 64) n
    if m.sc then scaleVal v (scaleByte m (8 + k / 32) n) else v))

/-! ### Sums and predictions (R282, R285, R286, R383) -/

/-- A cell, margin or companion after one operation (R130, R132, R282): 64-bit codes. -/
def accumulate (int : Bool) (acc : Nat) (ps : List Val) : Nat :=
  if int then wrapInt 64 (signed 64 acc + ps.foldl (fun a v => a + intOfVal v) 0)
  else accChunks acc (chunksOf (ps.length / 64) 64 ps)

/-- Products along the reduction dimension. -/
def products (a b : List Val) : List Val := a.zipWith mulV b

/-- u(k), w(k) and their companions: a sum of 64 values, in f32 for float operands, exact for integers. -/
def sideSum (int : Bool) (vs : List Val) : Val :=
  if int then valOfInt (vs.foldl (fun a v => a + intOfVal v) 0)
  else valOf .f32 (convertF (valOf .f64 (chunkSum vs)) .f32 0 0)

/-- The sums over the 64 rows (or columns) at each k. -/
def sideSums (int : Bool) (k : Nat) (l : List (List Val)) : List Val :=
  (List.range k).map (fun j => sideSum int (l.map (fun r => r.getD j zeroV)))

/-- The sum of the operation (R282), from its starting cells. -/
def sumCells (m : MOp) (a b : List (List Val)) : Tab Word :=
  (List.range 4096).filterMap (fun i =>
    let start := if m.z then 0 else (tabGet zeroAt m.cells i).toNat
    let x := accumulate (mmInt m.fmt) start (products (a.getD (i / 64) []) (b.getD (i % 64) []))
    if x = 0 then none else some (i, BitVec.ofNat 64 x))

/-- The extra row and column (R286): margins `start` carried through the operation with sums `u` and `w`. -/
def predict (int : Bool) (start : Margins) (a b : List (List Val)) (u w : List Val) : Margins :=
  (lane64.map (fun i => accumulate int (start.1.getD i 0) (products (a.getD i []) w)),
   lane64.map (fun n => accumulate int (start.2.getD n 0) (products u (b.getD n []))))

/-- Magnitudes. -/
def absRows (l : List (List Val)) : List (List Val) := l.map (fun r => r.map absV)

/-- The magnitude of a binary64 code. -/
def absF64 (x : Nat) : Nat := x % 2 ^ 63
def absMargins (m : Margins) : Margins := (m.1.map absF64, m.2.map absF64)
def zeroMargins : Margins := (List.replicate 64 0, List.replicate 64 0)

/-- The cells of a tile that its entry `w` says are filled: the engine reads the others as zero (R150). -/
def filledCells (w : Word) (t : Tab Word) : Tab Word :=
  t.filter (fun e => decide (e.1 / 64 < dRows w) && decide (e.1 % 64 < dCols w))

/-- Margins of a set of cells read as result kind `fmt` (R151). -/
def cellMargins (fmt : Nat) (cells : Tab Word) : Margins :=
  formMargins (marginKind fmt) (fun i j => codeVal fmt (tabGet zeroAt cells (i * 64 + j)).toNat)

/-- The tolerances of a float result (R383). -/
def resultTols (mu : Margins) : List Val × List Val :=
  (mu.1.map (fun x => shiftV (valOf .f64 x) (-20)), mu.2.map (fun x => shiftV (valOf .f64 x) (-20)))

/-! ### The engine in time (R84, R277, R279) -/

def opLr (m : MOp) : Nat := m.c + 78 * m.p + m.st
def opLc (m : MOp) : Nat := m.c + 86 * m.p + m.st
def opEnd (m : MOp) : Nat := m.c + 64 * m.p

/-- Operations that write the cells of an accumulator. -/
def writesCells (m : MOp) : Bool := m.guard && decide (m.kind ≤ 2)

/-- The operation whose running sum a multiply into `tile` issued now continues (R84). -/
def chainOf (c : Core) (tile t : Nat) : Option MOp :=
  c.mops.find? (fun m => m.guard && m.kind = 0 && m.tile = tile && opEnd m = t)

/-- DETAIL of ACCBUSY (R357). -/
def busyDetail (c : Core) (tile : Nat) (engine : Bool) (m : MOp) : Word :=
  BitVec.ofNat 64 (tile % 8 + engine.toNat * 8 + m.src.bundle % 65536 * 16 +
    (m.src.issued + 2 ^ 28 - c.pass.m % 2 ^ 28) % 2 ^ 28 * 2 ^ 20)

/-- ACCBUSY 1: the engine is occupied. -/
def engineFaults (s : State) (g t : Nat) : List FaultRec :=
  let c := coreOf s g
  match c.mops.find? (fun m => m.kind ≠ 7 && decide (m.c ≤ t) && decide (t < opEnd m)) with
  | some m => [slotFault s 0x08 1 0 (busyDetail c m.tile true m)]
  | none => []

/-- ACCBUSY 2: the tile is read or written before the readable cycle of an operation writing it; a multiply that adds
into the running sum of its predecessor is excepted. -/
def tileFaults (s : State) (g tile t : Nat) (adds : Bool) : List FaultRec :=
  let c := coreOf s g
  match c.mops.find? (fun m => writesCells m && m.tile = tile && decide (t < opLr m) &&
      !(adds && m.kind = 0 && opEnd m = t)) with
  | some m => [slotFault s 0x08 2 0 (busyDetail c tile false m)]
  | none => []

/-- ACCBUSY 3: MCHK, MOUT or MMARG of a tile before the check-complete cycle of an operation writing it (R298). -/
def marginFaults (s : State) (g tile t : Nat) : List FaultRec :=
  let c := coreOf s g
  match c.mops.find? (fun m => writesCells m && m.tile = tile && decide (t < (if m.chk then opLc m else opLr m))) with
  | some m => [slotFault s 0x08 3 0 (busyDetail c tile false m)]
  | none => []

/-- BANK 6: the occupancy meets the service window (R96). -/
def occupancyFaults (s : State) (g t p bank : Nat) : List FaultRec :=
  let c := coreOf s g
  if 0xFC0 < t % 4096 + 64 * p ∧ (c.recovery && !c.recoverySync) = false then
    [slotFault s 0x09 6 0 (BitVec.ofNat 64 bank)] else []

/-- BANK 6 and 5: holding the read ports of bank groups from `t` (R94, R378). -/
def holdFaults (s : State) (g t p : Nat) (groups : List Nat) : List FaultRec :=
  let e := t + 64 * p - 1
  let taken := (coreTaken s g).filter (fun r => groups.contains (r.bank / 4) &&
    ((r.port = 0 && decide (t ≤ r.cyc) && decide (r.cyc ≤ e)) ||
     (r.port = 2 && decide (r.cyc ≤ e) && decide (t ≤ r.line))))
  occupancyFaults s g t p (4 * groups.headD 0) ++
    (taken.take 1).map (fun r => slotFault s 0x09 5 0 (BitVec.ofNat 64 r.bank))

/-- The holds of an operation. -/
def reserveHold (s : State) (g t p : Nat) (groups : List Nat) : State :=
  (groups.flatMap (fun q => (List.range 4).map (4 * q + ·))).foldl (fun s b => reserve s g 2 b (t + 64 * p - 1) t) s

/-- Is a block of `n` bytes at `o` laid out as a tile is (R141, R149, R276)? -/
def tilePlaced (o n : Nat) : Bool :=
  decide (o % 256 = 0) && decide (o + n ≤ 2 ^ 21) && decide (o / 2 ^ 19 = (o + n - 1) / 2 ^ 19)
def layoutFaults (s : State) (o n : Nat) : List FaultRec :=
  if tilePlaced o n then [] else [slotFault s 0x0A 9 (o % 2 ^ 48) 0]

/-- OPERAND 9 with no address. -/
def descFaults (s : State) (ok : Bool) (addr : Nat) : List FaultRec :=
  if ok then [] else [slotFault s 0x0A 9 (addr % 2 ^ 48) 0]

/-- An L, Q or M slot: its faults and its effect take its ordinal in the pass (R356); a fault it finds in another slot of the
bundle keeps its own. -/
def engineOp (fs : List FaultRec) (act : Nat → State → State) (s : State) : Host.Outcome State Fault Refusal :=
  let k := nextCmd s
  checked (takeCmd s) (fs.map (fun r => if r.slot = s.cur.slot then { r with cmd := k % 2 ^ 16 } else r)) (act k)

/-- Bad words of an accumulator tile, and of a margin slot (R396): array, word, code. -/
def cellBads (c : Core) (tile : Nat) : List (Nat × Nat) :=
  (c.live.bad.filter (fun e => e.1 / 2 ^ 24 = 1 && e.1 % 2 ^ 24 / 4096 = tile)).map (fun e => (e.1 % 2 ^ 24, e.2))
def slotBads (c : Core) (e : Nat) : List (Nat × Nat) :=
  (c.live.bad.filter (fun x => x.1 / 2 ^ 24 = 2 && x.1 % 2 ^ 24 / 128 = e)).map (fun x => (x.1 % 2 ^ 24, x.2))

/-- UNCORR 3 at issue: cells or stored margins the operation starts from (R398). -/
def startFaults (s : State) (arr : Nat) (bads : List (Nat × Nat)) : List FaultRec :=
  (bads.filter (fun b => b.2 = 1000)).map (fun b => slotFault s 0x0B 3 b.1 (BitVec.ofNat 64 arr))

/-- The corrected reads among them are counted. -/
def countBads (s : State) (g arr : Nat) (bads : List (Nat × Nat)) : State :=
  (bads.filter (fun b => b.2 ≠ 1000)).foldl (fun s b => postError s g 0 arr b.1 1) s

/-- The fault record of an operation of the engine (R393, R449). -/
def opFault (m : MOp) (cls sub addr : Nat) (detail : Word) : FaultRec :=
  { cls := cls, sub := sub, slot := 3, bundle := m.src.bundle, cmd := m.src.cmd, extent := 0, piece := 0
    addr := addr, detail := detail }

/-- The operation `id` of core `g`, and its update. -/
def mopOf (s : State) (g id : Nat) : Option MOp := (coreOf s g).mops.find? (fun m => m.id = id)
def modMop (s : State) (g id : Nat) (f : MOp → MOp) : State :=
  modCore s g (fun c => { c with mops := c.mops.map (fun m => if m.id = id then f m else m) })

/-- An operation joins the engine; those long over leave. -/
def addMop (s : State) (g : Nat) (m : MOp) : State :=
  let t := cnow s g
  let live (x : MOp) : Bool := decide (t ≤ (if x.kind = 7 then opLc x + 256 else opLc x))
  let s := modCore s g (fun c => { c with mops := c.mops.filter live ++ [m] })
  { s with seq := s.seq + 1 }

/-- The reads of `n` lines of operand `o` (R277). -/
def postReads (s : State) (g : Nat) (own : Option Src) (m : MOp) (o n per : Nat) : State :=
  (List.range n).foldl (fun s l =>
    postAt s g (m.c + 64 * (l % per) / per * m.p) 17 own (.engineRead g m.id o l)) s

/-- The landings at Lr and Lc of an operation with a true guard. -/
def postLandings (s : State) (g : Nat) (m : MOp) (lr lc : Bool) : State :=
  let own := some m.src
  let s := if lr then
    noteLand (postAt s g (opLr m) 13 own (.instr (.matrixReadable g m.id))) g m.src.serial (opLr m) true else s
  if lc then noteLand (postAt s g (opLc m) 14 own (.instr (.marginCheck g m.id))) g m.src.serial (opLc m) true else s

/-- An operation with nothing read yet, issued now by the slot. -/
def newMop (s : State) (g kind cmd : Nat) (guard : Bool) : MOp :=
  { id := s.seq, kind := kind, src := srcNow s g 15 cmd, gang := none, guard := guard, c := cnow s g
    p := unitPace s g 3, st := stretchOf s g 15, fmt := 0, tile := 0, rm := 0, mat := false, t := false, z := false
    chk := false, sc := false, cols := 1, chained := none, aOff := 0, bOff := 0, entry := 0, nrow := 64, ncol := 64
    decls := [], aLines := [], bLines := [], scales := [], cells := [], margs := zeroMargins, mu := zeroMargins
    sum := [], wIn := [], wHave := [], bar := none, members := [], dirty := [], seen := [], late := false
    redone := false }

/-- The cells of a tile, by row × 64 + column. -/
def tileCells (c : Core) (t : Nat) : Tab Word :=
  (c.live.acc.filter (fun e => e.1 / 4096 = t)).map (fun e => (e.1 % 4096, e.2))

/-- The cells of a tile are all written (R405, R450). -/
def putTile (c : Core) (t : Nat) (x : Tab Word) : Core :=
  if anyArmed c then
    (List.range 4096).foldl (fun c i => setCell c t (i / 64) (i % 64) (tabGet zeroAt x i)) c
  else
    let below := c.live.acc.filter (fun e => decide (e.1 / 4096 < t))
    let above := c.live.acc.filter (fun e => decide (t < e.1 / 4096))
    let bad := c.live.bad.filter (fun e => !(e.1 / 2 ^ 24 = 1 && e.1 % 2 ^ 24 / 4096 = t))
    { c with live := { c.live with
                       acc := below ++ x.map (fun e => (t * 4096 + e.1, e.2)) ++ above, bad := bad } }

/-- Rows of tile `tile` read now are noted by the operations between their Lr and Lc (R391); 64 stands for all. -/
def noteSeen (s : State) (g tile row : Nat) : State :=
  let t := cnow s g
  modCore s g (fun c => { c with mops := c.mops.map (fun m =>
    if writesCells m && m.tile = tile && decide (opLr m ≤ t) && decide (t < opLc m) then
      { m with seen := m.seen ++ [row] } else m) })

end Sys2Proof.Machine
end

