-- ==== Sys2Proof/Machine/Matrix.lean ====
section
/-! DEFINITION. The matrix instructions at issue: multiplies, ganged multiplies, and the instructions that clear, load,
store, register and check tiles (10, R275 to R298), and the accumulator rows of VMRD and VMWR (09, R272). -/

namespace Sys2Proof.Machine

/-! ### Multiplies (R275 to R287) -/

/-- The lowest entry that declares a sub-tile at `off` in tile format `tf` (R278). -/
def declEntry (c : Core) (off tf : Nat) : Option Nat :=
  ((List.range 56).map (· + 8)).find? (fun e =>
    let w := dirEntry c e
    dValid w && dBase w = off && dFmt w = tf)

/-- The declarations of `n` sub-tiles of operand `o` at `off`, as they stand (R285). -/
def declsOf (c : Core) (o off f n : Nat) : List (Nat × Nat × Nat × Word × List (BitVec 32)) :=
  (List.range n).filterMap (fun j => (declEntry c (off + mmStride f * j) (mmTile f)).map (fun e =>
    (o, j, e, dirEntry c e, if dMst (dirEntry c e) then slotWords c e else [])))

/-- Does a multiply of format `f` that continues no running sum start from the stored margins of entry `w` (R286)? -/
def startsStored (w : Word) (f : Nat) : Bool := dMst w && dFmt w = resultFmt f

/-- The margins a multiply's prediction starts from, when it continues no running sum (R286). DESIGN CHOICE (log entry 36): the stored ones
are those at its issue, also while an earlier operation on the tile still has its check to land. -/
def startMargins (c : Core) (tile f : Nat) (z : Bool) (cells : Tab Word) : Margins :=
  let w := dirEntry c tile
  if z then zeroMargins
  else if startsStored w f then storedMargins c tile (marginKind (resultFmt f))
  else cellMargins (resultFmt f) cells

/-- Faults of a multiply, when its guard is true: its tile and its operands (R276, R378, R398). `nb` bytes of B. -/
def multiplyFaults (s : State) (f tile : Nat) (z chk : Bool) (ao bo nb : Nat) : List FaultRec :=
  let g := s.cur.g
  let c := coreOf s g
  let t := cnow s g
  let fresh := z || (chainOf c tile t).isSome
  let w := dirEntry c tile
  tileFaults s g tile t (!z) ++ layoutFaults s ao 8192 ++ layoutFaults s bo nb ++
    descFaults s (ao / 2 ^ 19 ≠ bo / 2 ^ 19) bo ++
    (if fresh then [] else startFaults s 1 (cellBads c tile)) ++
    (if !fresh && chk && startsStored w f then startFaults s 2 (slotBads c tile) else [])

/-- The operation of a multiply, as it stands at issue. -/
def multiplyOp (s : State) (cmd f tile : Nat) (mat t z chk sc guard : Bool) (ao bo cols : Nat) : MOp :=
  let g := s.cur.g
  let c := coreOf s g
  let n := mmSubs f
  let ch := if z then none else chainOf c tile (cnow s g)
  let cells := if z ∨ ch.isSome then [] else filledCells (dirEntry c tile) (tileCells c tile)
  let margs := if chk ∧ ch.isNone then startMargins c tile f z cells else zeroMargins
  { newMop s g 0 cmd guard with
    fmt := f, tile := tile, mat := mat, t := t, z := z, chk := chk, sc := sc, cols := cols
    chained := ch.map (·.id), aOff := ao, bOff := bo
    decls := declsOf c 0 ao f n ++ declsOf c 1 bo f (n * cols)
    scales := if sc && guard then c.scale else [], cells := cells, margs := margs, mu := absMargins margs }

/-- The reads of corrected words that a multiply or a share of core `g` makes as it starts are counted: the cells and the stored
margins it starts from, and those it will compare with (R397). The rows it reads are noted (R391). -/
def countStart (s : State) (g : Nat) (m : MOp) : State :=
  let c := coreOf s g
  let s := if m.z || m.chained.isSome then s else
    let s := noteSeen (countBads s g 1 (cellBads c m.tile)) g m.tile 64
    if m.chk && startsStored (dirEntry c m.tile) m.fmt then countBads s g 2 (slotBads c m.tile) else s
  if m.chk then m.decls.foldl (fun s d => if d.1 ≠ 2 ∧ dMst d.2.2.2.1 = true then countBads s g 2 (slotBads c d.2.2.1) else s) s else s

/-- UNCORR 3 of the operand margins that the check at core `g` will compare with, taken as it starts (R285, R398). -/
def declFaults (s : State) (g : Nat) (m : MOp) : List FaultRec :=
  if m.chk then m.decls.flatMap (fun d =>
    if d.1 ≠ 2 ∧ dMst d.2.2.2.1 = true then startFaults s 2 (slotBads (coreOf s g) d.2.2.1) else []) else []

/-- MMA and MMAT. -/
def multiply (ins : Instr) (mat : Bool) (f tl : BitVec 3) (t z c : Bool) (a b : RegField) (sc : Bool) (m : Md)
    (s : State) : Host.Outcome State Fault Refusal :=
  let g := s.cur.g
  let now := cnow s g
  let ao := (sVal s a).toNat
  let bo := (sVal s b).toNat
  let guard := guardMd s m
  let p := unitPace s g 3
  let groups := [ao / 2 ^ 19, bo / 2 ^ 19]
  let placed := tilePlaced ao 8192 && tilePlaced bo 8192 && decide (ao / 2 ^ 19 ≠ bo / 2 ^ 19)
  let op (s : State) (k : Nat) := multiplyOp s k f.toNat tl.toNat mat t z c sc guard ao bo 1
  let fs := operandFaults s ins ++ deadFaults s ++ engineFaults s g now ++
    (if guard then multiplyFaults s f.toNat tl.toNat z c ao bo 8192 ++ declFaults s g (op s 0) else []) ++
    (if placed then holdFaults s g now p groups else [])
  engineOp fs (fun k s =>
    let s := countOperands s ins
    let m := op s k
    let s := if placed then reserveHold s g now p groups else s
    if guard then
      let s := addMop (countStart s g m) g m
      let own := some m.src
      let s := postReads (postReads s g own m 0 128 128) g own m 1 128 128
      postLandings s g m true c
    else addMop s g m) s

def execMma (f tl : BitVec 3) (t z c : Bool) (a b : RegField) (sc : Bool) (m : Md) (s : State) :
    Host.Outcome State Fault Refusal := multiply (.mma f tl t z c a b sc m) false f tl t z c a b sc m s

def execMmat (f tl : BitVec 3) (t z c : Bool) (a b : RegField) (sc : Bool) (m : Md) (s : State) :
    Host.Outcome State Fault Refusal := multiply (.mmat f tl t z c a b sc m) true f tl t z c a b sc m s

/-! ### Ganged multiplies (R288 to R292, R365, R447 to R449) -/

/-- Fields of MMAG's modifier (R288): gang, grid columns, barrier word. -/
def gangNo (x : BitVec 20) : Nat := x.toNat / 2 ^ 15 % 16
def gangCols (x : BitVec 20) : Nat := 2 ^ (x.toNat / 2 ^ 13 % 4)
def gangBar (x : BitVec 20) : Option Nat := if x.getLsbD 19 then some (x.toNat % 2 ^ 13 * 256) else none

/-- The gang `n` of the core's image, when the core leads it (R49, R447). -/
def gangOf (s : State) (g n : Nat) : Option Gang :=
  (coreGangs s g)[n]? |>.bind (fun x => if (x.members.headD (g + 1, 0)).1 = g then some x else none)

/-- The members of a gang with their numbers and skews (R289). -/
def numbered (x : Gang) : List (Nat × Nat × Nat) :=
  (List.range x.members.length).map (fun i => let m := x.members.getD i (0, 0); (m.1, i, m.2))

/-- The gang's common pace (R290): the largest of its engines' effective paces. -/
def gangPace (s : State) (x : Gang) : Nat := x.members.foldl (fun p m => max p (unitPace s m.1 3)) 1

/-- Faults of naming a gang. Whatever the guard: one that the image does not declare, and a member with a dead engine (R288,
R460). When it is true: a result over 256 × 256, and a handler (R289, R368). -/
def gangFaults (s : State) (x : Option Gang) (cols : Nat) (guard : Bool) : List FaultRec :=
  (match x with
   | none => [slotFault s 0x0A 9 0 0]
   | some x =>
     (if guard && (decide (4 < (x.members.length + cols - 1) / cols) || decide (4 < cols)) then [slotFault s 0x0A 9 0 0] else []) ++
     (if x.members.any (fun m => unitDead s m.1 3) then [slotFault s 0x0A 10 0 0] else [])) ++
  (if guard && inhibited (coreOf s s.cur.g) then [slotFault s 0x0A 7 0 0] else [])

/-- The SB rows an operation of format `f` uses. -/
def sbRows (f : Nat) : Nat := 2 * mmSubs f

/-- A leg of the mesh of one die layer: the link between neighbouring positions, and its direction (R28, R406). -/
def meshHop (s : State) (n l a b : Nat) : Hop :=
  let lo := min a b
  let link := if a / 8 = b / 8 then lo / 8 * 7 + lo % 8 else 42 + lo
  { unit := n * 4096 + 2304 + l * 82 + link, dir := decide (b < a), lat := intra s n l a b }

/-- The path of a gang's stream between positions of a layer: along the column first, then along the row. -/
def meshPath (s : State) (n l a b : Nat) : List Hop :=
  let rows := (List.range (absDiff (a / 8) (b / 8))).map (fun i =>
    let r (k : Nat) := if a / 8 ≤ b / 8 then a / 8 + k else a / 8 - k
    meshHop s n l (r i * 8 + a % 8) (r (i + 1) * 8 + a % 8))
  let cols := (List.range (absDiff (a % 8) (b % 8))).map (fun i =>
    let q (k : Nat) := if a % 8 ≤ b % 8 then a % 8 + k else a % 8 - k
    meshHop s n l (b / 8 * 8 + q i) (b / 8 * 8 + q (i + 1)))
  rows ++ cols

/-- Latency within a layer between two of its cores (R31). -/
def intraCores (s : State) (a b : Nat) : Nat := intra s (a / 512) (layerOf a) (a % 512 % 48) (b % 512 % 48)

/-- A flit of a gang's stream to a member: a line of the gang buffer (R448); 136 and up hold w. -/
def streamFlit (s : State) (g t : Nat) (m : MOp) (h line : Nat) (x : BitVec 512) (poison : Bool) : State :=
  let x : Load := .stream h m.id (64 * line) (leBytes 64 x.toNat)
  let path := meshPath s (g / 512) (layerOf g) (g % 512 % 48) (h % 512 % 48)
  launchFlit s { newFlit s g h ⟨g, 0, 0, 0, 0⟩ t (t + intraCores s g h) (intraCores s h g) path x with
    ref := some ⟨g, (coreOf s g).pass.id, 16 * m.c + 15, m.src.cmd, line, h, false⟩, st := if poison then 3 else 0 }

/-- The leader starts the gang: the stream, its SB rows, and the members' shares (R290). -/
def startGang (s : State) (g : Nat) (m : MOp) : State :=
  let s := addMop s g { m with kind := 7, src := { m.src with serial := 0 } }
  let others := m.members.filter (fun x => x.2.1 ≠ 0)
  let s := if m.sc then
    others.foldl (fun s x => (List.range (sbRows m.fmt)).foldl (fun s r =>
      streamFlit s g m.c m x.1 (128 + r) (tabGet zeroAt m.scales (8 + r)) false) s) s else s
  let s := postReads s g none m 2 (128 * m.cols) 128
  others.foldl (fun s x => postAt s x.1 (m.c + x.2.2) 22 none (.instr (.memberShareStart x.1 m.id))) s

/-- MMAG and MMAGZ. A redone pass runs its own share of an MMAG again and streams nothing (R365). -/
def execMmag (f tl : BitVec 3) (t z c : Bool) (a b : RegField) (sc : Bool) (md : Modifier) (s : State) :
    Host.Outcome State Fault Refusal :=
  let g := s.cur.g
  let now := cnow s g
  let ins : Instr := .mmag f tl t z c a b sc md
  let ao := (sVal s a).toNat
  let bo := (sVal s b).toNat
  let guard := guardOf s md
  let cols := gangCols md.xf
  let gang := gangOf s g (gangNo md.xf)
  let nb := 8192 * cols
  let p := ((gang.map (gangPace s)).getD 1)
  let groups := [ao / 2 ^ 19, bo / 2 ^ 19]
  let placed := tilePlaced ao 8192 && tilePlaced bo nb && decide (ao / 2 ^ 19 ≠ bo / 2 ^ 19)
  let op (s : State) (k : Nat) : MOp :=
    let m := multiplyOp s k f.toNat tl.toNat false t z c sc guard ao bo cols
    { m with p := p, gang := some (g, 0, m.id), bar := gangBar md.xf, members := ((gang.map numbered).getD []) }
  let fs := operandFaults s ins ++ deadFaults s ++ engineFaults s g now ++ gangFaults s gang cols guard ++
    (if guard then multiplyFaults s f.toNat tl.toNat z c ao bo nb ++ declFaults s g (op s 0) else []) ++
    (if placed then holdFaults s g now p groups else [])
  engineOp fs (fun k s =>
    let s := countOperands s ins
    let m := op s k
    let s := if placed then reserveHold s g now p groups else s
    if guard then
      let q := (coreOf s g).pass
      let stream := q.mmagSkip.headD m.id
      let s := countStart s g m
      let s := if q.mmagSkip = [] then startGang s g m else s
      let m := { m with id := s.seq, gang := some (g, 0, stream) }
      let s := modCore s g (fun c => { c with pass := { c.pass with
        mmags := c.pass.mmags ++ [stream], mmagSkip := c.pass.mmagSkip.tail } })
      let s := addMop s g m
      let own := some m.src
      let s := postReads (postReads s g own m 0 128 128) g own m 1 (128 * cols) 128
      postLandings s g m true c
    else addMop s g m) s

/-! ### Clearing, loading, storing, registering, checking (R293 to R298) -/

/-- An M slot of one tile without reads of scratchpad: its operation's fields are `set`. -/
def tileOp (fs : List FaultRec) (ins : Instr) (guard : Bool) (kind : Nat) (set : State → MOp → MOp) (reads : List (Nat × Nat))
    (group : Option Nat) (lr lc : Bool) (more : State → MOp → State) (s : State) : Host.Outcome State Fault Refusal :=
  let g := s.cur.g
  let groups := group.toList
  engineOp (operandFaults s ins ++ deadFaults s ++ engineFaults s g (cnow s g) ++ fs) (fun k s =>
    let s := countOperands s ins
    let m := set s (newMop s g kind k guard)
    let s := reserveHold s g m.c m.p groups
    let s := addMop s g m
    if guard then
      let s := reads.foldl (fun s r => postReads s g (some m.src) m r.1 r.2 r.2) s
      more (postLandings s g m lr lc) m
    else s) s

/-- MCLR (R294). -/
def execMclr (i : Bool) (tl : BitVec 3) (m : Md) (s : State) : Host.Outcome State Fault Refusal :=
  let guard := guardMd s m
  let fs := if guard then tileFaults s s.cur.g tl.toNat (cnow s s.cur.g) false else []
  tileOp fs (.mclr i tl m) guard 1 (fun _ o => { o with fmt := if i then 14 else 13, tile := tl.toNat }) [] none true false
    (fun s _ => s) s

/-- Lines of a tile of a format. -/
def tileLines (fmt : Nat) : Nat := tileBytes fmt / 64

/-- The fields of a descriptor (R293). -/
def descEntry (x : Word) : Nat := fieldOf x 0 6
def descFmt (x : Word) : Nat := fieldOf x 6 4
def descRows (x : Word) : Nat := fieldOf x 10 7
def descCols (x : Word) : Nat := fieldOf x 17 7

/-- MLOAD (R295). -/
def execMload (tl : BitVec 3) (t c : Bool) (a : RegField) (m : Md) (s : State) : Host.Outcome State Fault Refusal :=
  let g := s.cur.g
  let guard := guardMd s m
  let e := fieldOf (sVal s a) 0 6
  let w := dirEntry (coreOf s g) e
  let ok := decide (8 ≤ e) && dValid w
  let now := cnow s g
  let fs := (if guard then tileFaults s g tl.toNat now false ++ descFaults s ok 0 else []) ++
    (if ok then holdFaults s g now (unitPace s g 3) [dBase w / 2 ^ 19] else [])
  tileOp fs (.mload tl t c a m) guard 2
    (fun _ o => { o with fmt := dFmt w, tile := tl.toNat, t := t, chk := c, aOff := dBase w, entry := e
                         nrow := dRows w, ncol := dCols w })
    [(0, tileLines (dFmt w))] (if ok then some (dBase w / 2 ^ 19) else none) true true (fun s _ => s) s

/-- The row writes of a MOUT: cycle of row `x`, and its offset (R296). -/
def moutCyc (m : MOp) (x : Nat) : Nat := opLr m - (63 - x) * m.p
def rowBytes (fmt : Nat) : Nat := 8 * elemWidth fmt
def moutOff (m : MOp) (x : Nat) : Nat := m.aOff + x * rowBytes m.fmt

/-- The lines of a destination row. -/
def moutLines (m : MOp) (x : Nat) : List Nat := linesOf ((List.range (rowBytes m.fmt)).map (moutOff m x + ·))

/-- MOUT (R296). DESIGN CHOICE (log entry 56): the destination takes the rows and columns that the tile's entry has at issue, and the
margins that it has at Lr. -/
def execMout (rm : BitVec 2) (tl : BitVec 3) (t c : Bool) (a b : RegField) (m : Md) (s : State) :
    Host.Outcome State Fault Refusal :=
  let g := s.cur.g
  let guard := guardMd s m
  let now := cnow s g
  let d0 := (sVal s a).toNat
  let d := sVal s b
  let ok := decide (8 ≤ descEntry d) && decide (descFmt d ≤ 12)
  let w := dirEntry (coreOf s g) tl.toNat
  let set (_ : State) (o : MOp) : MOp :=
    { o with fmt := descFmt d, tile := tl.toNat, rm := rm.toNat, t := t, chk := c, aOff := d0, entry := descEntry d
             nrow := dRows w, ncol := dCols w }
  let o := set s (newMop s g 3 0 guard)
  let late := (List.range 64).any (fun x => inWindow (moutCyc o x)) && !((coreOf s g).recovery && !(coreOf s g).recoverySync)
  let fs := occupancyFaults s g now (unitPace s g 3) 0 ++
    (if guard then marginFaults s g tl.toNat now ++ descFaults s ok d0 ++
      (if ok then layoutFaults s d0 (tileBytes (descFmt d)) else []) ++
      (if late then [slotFault s 0x09 6 0 (BitVec.ofNat 64 (bankOf (d0 % 2 ^ 21)))] else []) else [])
  tileOp fs (.mout rm tl t c a b m) guard 3 set [] none true c (fun s o =>
    let own := some o.src
    let s := if t then postAt s g now 17 own (.moutRead g o.id 0)
      else (List.range 64).foldl (fun s x => postAt s g (now + x * o.p) 17 own (.moutRead g o.id x)) s
    (List.range 64).foldl (fun s x =>
      postAt (reserveWrite s g (moutLines o x) (moutCyc o x)) g (moutCyc o x) 13 own (.moutRow g o.id x)) s) s

/-- MMARG (R297). -/
def execMmarg (a b : RegField) (m : Md) (s : State) : Host.Outcome State Fault Refusal :=
  let g := s.cur.g
  let guard := guardMd s m
  let now := cnow s g
  let base := (sVal s a).toNat
  let d := sVal s b
  let e := descEntry d
  let size := decide (1 ≤ descRows d) && decide (descRows d ≤ 64) && decide (1 ≤ descCols d) && decide (descCols d ≤ 64)
  let ok := size && (decide (e < 8) || decide (descFmt d ≤ 12))
  let placed := ok && decide (8 ≤ e) && tilePlaced base (tileBytes (descFmt d))
  let p := unitPace s g 3
  let fs := (if placed then holdFaults s g now p [base / 2 ^ 19] else occupancyFaults s g now p 0) ++
    (if guard then
      descFaults s ok base ++ (if e < 8 then marginFaults s g e now
        else if ok then layoutFaults s base (tileBytes (descFmt d)) else []) else [])
  tileOp fs (.mmarg a b m) guard 4
    (fun _ o => { o with fmt := descFmt d, tile := e, aOff := base, entry := e, nrow := descRows d, ncol := descCols d })
    (if e < 8 then [] else [(0, tileLines (descFmt d))]) (if placed then some (base / 2 ^ 19) else none) false true
    (fun s _ => s) s

/-- MCHK tk (R298). -/
def execMchk (tl : BitVec 3) (a : RegField) (m : Md) (s : State) : Host.Outcome State Fault Refusal :=
  let g := s.cur.g
  let guard := guardMd s m
  let now := cnow s g
  let fs := occupancyFaults s g now (unitPace s g 3) 0 ++ (if guard then marginFaults s g tl.toNat now else [])
  tileOp fs (.mchk tl a m) guard 5 (fun _ o => { o with tile := tl.toNat, entry := tl.toNat, chk := true }) [] none
    false true (fun s _ => s) s

/-- MCHK.sp (R298). -/
def execMchkSp (a : RegField) (m : Md) (s : State) : Host.Outcome State Fault Refusal :=
  let g := s.cur.g
  let guard := guardMd s m
  let e := fieldOf (sVal s a) 0 6
  let w := dirEntry (coreOf s g) e
  let ok := decide (8 ≤ e) && dValid w
  let now := cnow s g
  let fs := (if guard then descFaults s ok 0 else []) ++
    (if ok then holdFaults s g now (unitPace s g 3) [dBase w / 2 ^ 19] else [])
  tileOp fs (.mchkSp a m) guard 6
    (fun _ o => { o with fmt := dFmt w, tile := 8, aOff := dBase w, entry := e, nrow := dRows w, ncol := dCols w, chk := true })
    [(0, tileLines (dFmt w))] (if ok then some (dBase w / 2 ^ 19) else none) false true (fun s _ => s) s

/-! ### Accumulator rows (R272, R273) -/

/-- What VMRD moves of a cell. -/
def vmrdCell (fmt mode : Nat) (x : Word) : Nat :=
  if mode = 0 then x.toNat % 2 ^ 32
  else if mode = 1 then x.toNat / 2 ^ 32
  else if fmt = 14 then wrapInt 32 (sat x.toInt (-(2 ^ 31)) (2 ^ 31 - 1))
  else convertF (valOf .f64 x.toNat) .f32 0 0

/-- The row a VMRD or VMWR names. -/
def accRow (s : State) (a : RegField) : Nat := (sVal s a).toNat % 64

/-- Bad cells of a row in the lanes enabled (R398). -/
def rowBads (c : Core) (tile row : Nat) (mask : Word) : List (Nat × Nat) :=
  (cellBads c tile).filter (fun b => b.1 / 64 % 64 = row && mask.getLsbD (b.1 % 64))

/-- VMRD. -/
def execVmrd (t : BitVec 3) (d a : RegField) (mode : BitVec 2) (m : Md) (s : State) : Host.Outcome State Fault Refusal :=
  let g := s.cur.g
  let c := coreOf s g
  let ins : Instr := .vmrd t d a mode m
  let row := accRow s a
  let bads := rowBads c t.toNat row (laneMask s m)
  let x := ofLanes (fun i => vmrdCell (dFmt (dirEntry c t.toNat)) mode.toNat (accCell c t.toNat row i))
  let cyc := landCyc s 8 3
  let l := vecLand s d m x
  checked s (vecFaults s ins ++ startFaults s 1 bads ++ landFaults s g cyc l) (fun s =>
    let s := noteSeen (countBads (vecReads s ins false a m) g 1 bads) g t.toNat row
    landGuarded s m cyc 8 l)

/-- ACCBUSY 2 of a VMWR that would land in a tile between an operation's issue and its Lc. -/
def vmwrFaults (s : State) (g tile land : Nat) : List FaultRec :=
  let c := coreOf s g
  match c.mops.find? (fun m => writesCells m && m.tile = tile && decide (m.c ≤ land) && decide (land ≤ opLc m)) with
  | some m => [slotFault s 0x08 2 0 (busyDetail c tile false m)]
  | none => []

/-- VMWR. -/
def execVmwr (t : BitVec 3) (d a : RegField) (mode : BitVec 2) (m : Md) (s : State) : Host.Outcome State Fault Refusal :=
  let g := s.cur.g
  let ins : Instr := .vmwr t d a mode m
  let cyc := landCyc s 8 3
  let l : Landing := .accRow t.toNat (accRow s a) mode.toNat (laneMask s m) (vVal s d)
  checked s (vecFaults s ins ++ (if guardMd s m then vmwrFaults s g t.toNat cyc else [])) (fun s =>
    landGuarded (vecReads s ins false a m) m cyc 8 l)

end Sys2Proof.Machine
end

