-- ==== Sys2Proof/Machine/MatrixEvents.lean ====
section
/-! DEFINITION. The matrix engine after issue: its reads, its landings at Lr, its checks at Lc, and the shares of a ganged
multiply (10, R277 to R298; 16, R381 to R394; 19, R447 to R449). -/

namespace Sys2Proof.Machine

/-! ### Reads (R277, R290, R296, R398, R448) -/

/-- Element B'(k, n) of grid column `col` of an operation. -/
def bAt (m : MOp) (col k n : Nat) : Val :=
  let j := col * mmSubs m.fmt + k / 64
  let x := if m.t then n else k % 64
  let y := if m.t then k % 64 else n
  let r := declRegion m 1 j
  let v := if x < r.1 ∧ y < r.2 then codeVal (mmTile m.fmt) (lineElem (mmTile m.fmt) m.bLines (mmStride m.fmt * j) x y) else zeroV
  if m.sc then scaleVal v (scaleByte m (8 + k / 32) n) else v

/-- w(k) of a grid column as its f32 code (R285, R448), which is exact for integers. -/
def wCode (m : MOp) (col k : Nat) : Nat := convertF (sideSum (mmInt m.fmt) (lane64.map (bAt m col k))) .f32 0 0

/-- The last B line, within a grid column's 128, that holds row `k` (R448). -/
def lastLineOf (m : MOp) (k : Nat) : Nat :=
  let j := k / 64
  if m.t then mmStride m.fmt * (j + 1) / 64 - 1
  else (mmStride m.fmt * j + ((k % 64 * 64 + 64) * elemWidth (mmTile m.fmt) - 1) / 8) / 64

/-- The members of a gang's stream in a grid column. -/
def columnMembers (m : MOp) (col : Nat) : List (Nat × Nat × Nat) := m.members.filter (fun x => x.2.1 ≠ 0 && x.2.1 % m.cols = col)

/-- The leader sends the w flits of a grid column whose last B line is one of `ls` (R448). -/
def streamSums (s : State) (g : Nat) (m : MOp) (col : Nat) (ls : List Nat) : State :=
  ((List.range (kOf m / 16)).filter (fun q => ls.contains (lastLineOf m (16 * q + 15)))).foldl (fun s q =>
    let x := (List.range 16).foldl (fun a i => a + wCode m col (16 * q + i) * 2 ^ (32 * i)) 0
    (columnMembers m col).foldl (fun s y => streamFlit s g (cnow s g) m y.1 (136 + q) (BitVec.ofNat 512 x) false) s) s

/-- The leader sends a line of B to the members of its grid column, and after the last line of a cycle the w flits that the
cycle's lines complete. -/
def streamLine (s : State) (g : Nat) (m : MOp) (l : Nat) (poison : Bool) : State :=
  let s := (columnMembers m (l / 128)).foldl (fun s x =>
    streamFlit s g (cnow s g) m x.1 (l % 128) (tabGet zeroAt m.bLines l) poison) s
  if m.chk && l / 128 + 1 = m.cols && l % 2 = 1 then
    (List.range m.cols).foldl (fun s col => streamSums s g m col [l % 128 - 1, l % 128]) s
  else s

/-- The engine reads a line of operand `o`: A or a tile (0), B (1), or B for the members of a gang (2), which is the leader's own
read of B while its share runs and counts once (R397). -/
def engineReadAt (s : State) (g op o l : Nat) : State :=
  match mopOf s g op with
  | none => s
  | some m =>
    let c := coreOf s g
    let member := match m.gang with
      | some (_, k, _) => decide (k ≠ 0)
      | none => false
    let stream := (m.gang.map (·.2.2)).getD 0
    if o = 1 ∧ member = true then
      if tabGet (fun _ => 0) c.gangTag l = stream + 1 then
        if c.gangBad.contains l then findFault s g 17 (opFault m 0x0B 2 l 9)
        else modMop s g op (fun m => { m with bLines := tabSet zeroAt m.bLines l (tabGet zeroAt c.gangBuf l) })
      else modMop s g op (fun m => { m with late := true })
    else
      let off := (if o = 0 then m.aOff else m.bOff) + 64 * l
      let x := BitVec.ofNat 512 (leNat (sliceBytes s g off 64))
      let offs := (List.range 64).map (off + ·)
      if o = 2 then
        let m := { m with bLines := tabSet zeroAt m.bLines l x }
        let own := c.mops.any (fun x => x.kind = 0 && x.gang = some (g, 0, m.id))
        let s := if own then s else countCopy s g offs
        streamLine (modMop s g op (fun _ => m)) g m l (readWords s g offs).2.isSome
      else
        match poisonRead s g offs with
        | some r =>
          let s := countWords s g 0 ((badWords s g offs).filter (fun b => r.2.2 ≠ 0 || b.1 ≠ r.2.1))
          findFault (countWords s g 11 ((badTags s g offs).filter (fun b => r.2.2 ≠ 11 || b.1 ≠ r.2.1))) g 17
            (opFault m 0x0B r.1 r.2.1 (BitVec.ofNat 64 r.2.2))
        | none =>
          modMop (countLoad s g offs) g op (fun m =>
            if o = 0 then { m with aLines := tabSet zeroAt m.aLines l x }
            else { m with bLines := tabSet zeroAt m.bLines l x })

/-- UNCORR 3 of cells an operation reads, at its event; else it goes on. The bad words read are counted. -/
def withCells (s : State) (g : Nat) (m : MOp) (arr : Nat) (bads : List (Nat × Nat)) (act : State → State) : State :=
  match bads.find? (fun b => b.2 = 1000) with
  | some b =>
    findFault (countWords s g arr ((bads.filter (fun e => e.1 ≠ b.1)).map (fun e => (e.1, decide (e.2 = 1000))))) g 17
      (opFault m 0x0B 3 b.1 (BitVec.ofNat 64 arr))
  | none => act (countBads s g arr bads)

/-- MOUT reads row `x` of its tile, or every row when it transposes (R296). -/
def moutReadAt (s : State) (g op x : Nat) : State :=
  match mopOf s g op with
  | none => s
  | some m =>
    let c := coreOf s g
    let bads := (cellBads c m.tile).filter (fun b => m.t || b.1 / 64 % 64 = x)
    let s := noteSeen s g m.tile (if m.t then 64 else x)
    withCells s g m 1 bads (fun s => modMop s g op (fun m =>
      let new := (filledCells (dirEntry c m.tile) (tileCells c m.tile)).filter (fun e => m.t || e.1 / 64 = x)
      { m with cells := m.cells.filter (fun e => !(m.t || e.1 / 64 = x)) ++ new }))

/-- A cell of kind `kind` converted to the destination's format (R122, R123, R296). -/
def moutCode (m : MOp) (kind : Nat) (x : Word) : Nat :=
  let f := tileFmt m.fmt
  if kind = 14 then
    if fmtIsInt f then convertIntToInt x.toInt f m.rm else convertF (valOfInt x.toInt) f m.rm 0
  else convert .f64 f x.toNat m.rm 0

/-- The cell that destination element (x, y) takes, as read. -/
def moutCell (m : MOp) (x y : Nat) : Word :=
  tabGet zeroAt m.cells (if m.t then y * 64 + x else x * 64 + y)

/-- Row `x` of a MOUT's destination lands (R296). -/
def moutRowAt (s : State) (g op x : Nat) : State :=
  match mopOf s g op with
  | none => s
  | some m =>
    let kind := dFmt (dirEntry (coreOf s g) m.tile)
    let w := elemWidth m.fmt
    let row := lane64.foldl (fun a y => a + moutCode m kind (moutCell m x y) % 2 ^ w * 2 ^ (w * y)) 0
    let bytes := leBytes (rowBytes m.fmt) row
    let ws := (List.range bytes.length).map (fun i => (moutOff m x + i, bytes.getD i 0))
    writeSlice s g ws (ctxTag s g) true (some m.entry) (cnow s g)

/-! ### Landings at Lr (R279, R283, R294 to R296) -/

/-- TIMING 15 of an operation whose landing is due at `t` (R357, R377, R449). -/
def opTiming (s : State) (g : Nat) (m : MOp) (t : Nat) : FaultRec :=
  let o := (coreOf s g).pass.m
  opFault m 0x04 15 0 (BitVec.ofNat 64 ((m.c - o) % 2 ^ 28 + (t - o) % 2 ^ 28 * 2 ^ 28))

/-- The directory entry of a multiply's tile (R283). -/
def multiplyEntry (c : Core) (m : MOp) : Word :=
  let n := List.range (mmSubs m.fmt)
  let rows := n.foldl (fun a j => max a (let r := declRegion m 0 j; if m.mat then r.2 else r.1)) 0
  let cols := n.foldl (fun a j => max a (let r := declRegion m 1 j; if m.t then r.1 else r.2)) 0
  let old := dirEntry c m.tile
  mkDir true (resultFmt m.fmt) (m.chk && dMst old) (if m.z then rows else max rows (dRows old))
    (if m.z then cols else max cols (dCols old)) 0

/-- The operations that continue the running sum of a tile with entry `w` take it, and the margins of it unless this one's check gives them
(R84, R286, R383). -/
def passSum (m : MOp) (w : Word) (sum : Tab Word) (x : MOp) : MOp :=
  if x.chained = some m.id then
    let sum := filledCells w sum
    let x := { x with cells := sum }
    if x.chk && !(m.chk && mmInt m.fmt == mmInt x.fmt) then
      let k := cellMargins (resultFmt x.fmt) sum
      { x with margs := k, mu := absMargins k }
    else x
  else x

/-- The margins and companions this operation's check gives to those that continue its sum. -/
def passMargins (m : MOp) (k mu : Margins) (x : MOp) : MOp :=
  if x.chained = some m.id && mmInt m.fmt == mmInt x.fmt then { x with margs := k, mu := mu } else x

/-- A member's completion adds, once for one MMAG (R292, R365). -/
def completionAdds (s : State) (g : Nat) (m : MOp) : State :=
  match m.bar, m.gang with
  | some off, some (_, _, st) =>
    if (coreOf s g).pass.added.contains st then s
    else
      let s := m.members.foldl (fun s x =>
        postSub s (clkOf s x.1) (cnow s g + intraCores s g x.1) 11 (g % 512) none
          (.instr (.gangCompletionAdd g x.1 off))) s
      modCore s g (fun c => { c with pass := { c.pass with added := c.pass.added ++ [st] } })
  | _, _ => s

/-- The value MLOAD gives a cell from an element code (R295). -/
def mloadCell (fmt x : Nat) : Word :=
  let f := tileFmt fmt
  if fmtIsInt f then BitVec.ofInt 64 (intVal f x) else BitVec.ofNat 64 (convertF (arrayVal f x) .f64 0 0)

/-- The tile an MLOAD, MMARG or MCHK.sp reads. -/
def readGrid (m : MOp) : Grid := lineGrid m.fmt m.aLines 0 m.nrow m.ncol

/-- MLOAD's cells. -/
def mloadCells (m : MOp) : Tab Word :=
  let t := readGrid m
  (List.range 4096).filterMap (fun i =>
    let x := if m.t then i % 64 else i / 64
    let y := if m.t then i / 64 else i % 64
    let v := if x < t.rows ∧ y < t.cols then mloadCell m.fmt (t.code x y) else 0
    if v = 0 then none else some (i, v))

/-- A margin of an accumulator converted to a destination's margin format (R157, R296). -/
def moutMargin (kind dst x : Nat) : Nat :=
  if marginKind dst = 0 then convertF (marginVal (marginKind kind) x) .f32 0 0
  else if kind = 14 then x % 2 ^ 32
  else
    match valOf .f64 x with
    | .nan => 0
    | .inf neg => wrapInt 32 (if neg then -(2 ^ 63) else 2 ^ 63 - 1)
    | .fin neg num den e =>
      let n : Int := roundMag num den e 0 0
      wrapInt 32 (sat (if neg then -n else n) (-(2 ^ 63)) (2 ^ 63 - 1))

/-- MOUT's tile as read, of kind `kind`. -/
def moutGrid (m : MOp) (kind : Nat) : Grid :=
  ⟨kind, lane64.map (fun i => lane64.map (fun n => (tabGet zeroAt m.cells (i * 64 + n)).toNat)), m.nrow, m.ncol⟩

/-- Was a margin slot's word poisoned? The reads of a slot meet its bad words (R398). -/
def withSlot (s : State) (g : Nat) (m : MOp) (e : Nat) (act : State → State) : State :=
  withCells s g m 2 (slotBads (coreOf s g) e) act

/-- MATRIX_READABLE: the cells and directory entry of an operation land at Lr (R279). -/
def execMatrixReadable (g op : Nat) (s : State) : Host.Outcome State Fault Refusal :=
  match mopOf s g op with
  | none => .next s
  | some m =>
    let t := cnow s g
    .next (match m.kind with
    | 0 =>
      let share := match m.gang with
        | some (_, k, _) => decide (k ≠ 0)
        | none => false
      let want := share && m.chk && !m.redone
      if m.late || (want && (List.range (kOf m / 16)).any (fun q => !m.wHave.contains q && !m.wHave.contains (q + 1000))) then
        findFault s g 17 (opTiming s g m t)
      else if want && m.wHave.any (fun q => decide (1000 ≤ q)) then
        findFault s g 17 (opFault m 0x0B 2 (136 + (m.wHave.find? (fun q => decide (1000 ≤ q))).getD 1000 - 1000) 9)
      else
        let sum := sumCells m (aRows m) (bCols m 0)
        let s := modCore s g (fun c =>
          let w := multiplyEntry c m
          let c := setDir (putTile c m.tile sum) m.tile w
          { c with mops := c.mops.map (fun x => if x.id = m.id then { x with sum := sum } else passSum m w sum x) })
        if m.chk then s else completionAdds s g m
    | 1 => modCore s g (fun c =>
        let c := setMargins (putTile c m.tile []) m.tile (List.replicate 256 0)
        setDir c m.tile (mkDir true m.fmt true 64 64 0))
    | 2 => modCore s g (fun c =>
        let kind := if marginFloat (marginKind m.fmt) then 13 else 14
        let mst := dMst (dirEntry c m.tile)
        setDir (putTile c m.tile (mloadCells m)) m.tile
          (mkDir true kind mst (if m.t then m.ncol else m.nrow) (if m.t then m.nrow else m.ncol) 0))
    | 3 =>
      let w := dirEntry (coreOf s g) m.tile
      let land (s : State) : State := modCore s g (fun c =>
        let k := if dMst w then storedMargins c m.tile (marginKind (dFmt w)) else (moutGrid m (dFmt w)).margins
        let f := List.map (moutMargin (dFmt w) m.fmt)
        let k : Margins := if m.t then (f k.2, f k.1) else (f k.1, f k.2)
        setDir (setMargins c m.entry (marginWords (marginKind m.fmt) k)) m.entry
          (mkDir true m.fmt true (if m.t then m.ncol else m.nrow) (if m.t then m.nrow else m.ncol) m.aOff))
      if dMst w then withSlot s g m m.tile land else land s
    | _ => s)

/-! ### Checks at Lc (R285 to R298, R381 to R394) -/

/-- MARGIN (R393): subclass `sub`, of what and which entry, with the address of a located or first element. -/
def marginFault (m : MOp) (sub e what addr : Nat) (r : CheckRes) : FaultRec :=
  opFault m 0x0C sub addr (marginDetail e what r)

/-- The scratchpad offset of the located element, or 0. -/
def locatedAt (base fmt : Nat) (r : CheckRes) : Nat :=
  match r.rows, r.cols with
  | [i], [j] => base + (elemPlace fmt i j).1
  | _, _ => 0

/-- MCHKCNT.COR rises by one without a comparison of its own (R287). -/
def bumpCor (c : Core) : Core :=
  sysSet c 0x121 (withField (sysGet c 0x121) 32 16 (fieldOf (sysGet c 0x121) 32 16 + 1))

/-- A correction of a scratchpad element of entry `e`, with its margins and its log entry (R389, R392). -/
def correctElem (s : State) (g e base fmt src : Nat) (r : CheckRes) : State :=
  match r.fixed with
  | none => s
  | some (i, n, x, b) =>
    let kind := if marginFloat (marginKind fmt) then 0 else 1
    let t := cnow s g
    modCore (fixElem s g base fmt i n x) g (fun c =>
      bumpCor (logCorrection (landMargins c e (marginKind fmt) r.margins) t e i n b kind src))

/-- A correction of a cell of tile `k`. -/
def correctCell (s : State) (g k fmt src : Nat) (r : CheckRes) : State :=
  match r.fixed with
  | none => s
  | some (i, n, x, b) =>
    let kind := if fmt = 13 then 0 else 1
    let t := cnow s g
    modCore s g (fun c =>
      bumpCor (logCorrection (landMargins (fixCell c k i n x) k (marginKind fmt) r.margins) t k i n b kind src))

/-- A corrected B element is written into the members' gang buffers (R394). -/
def fixGangBuffers (s : State) (m : MOp) (j : Nat) (r : CheckRes) : State :=
  match r.fixed, m.gang with
  | some (i, n, x, _), some (_, _, st) =>
    let fmt := mmTile m.fmt
    let pl := elemPlace fmt i n
    let o := j % mmSubs m.fmt * mmStride m.fmt + pl.1
    (m.members.filter (fun y => y.2.1 ≠ 0 && y.2.1 % m.cols = j / mmSubs m.fmt)).foldl (fun s y =>
      modCore s y.1 (fun c =>
        if tabGet (fun _ => 0) c.gangTag (o / 64) = st + 1 then
          let v := putBits (tabGet zeroAt c.gangBuf (o / 64)).toNat (8 * (o % 64) + pl.2) (elemWidth fmt) x
          { c with gangBuf := tabSet zeroAt c.gangBuf (o / 64) (BitVec.ofNat 512 v) }
        else c)) s
  | _, _ => s

/-- The check of one declared operand sub-tile (R285, R390): the state after it, and its fault. -/
def operandCheck (s : State) (g : Nat) (m : MOp) (d : Nat × Nat × Nat × Word × List (BitVec 32)) :
    State × List FaultRec :=
  let fmt := mmTile m.fmt
  let e := d.2.2.1
  let w := d.2.2.2.1
  let t := subTile m d.1 d.2.1
  let formed := t.margins
  let base := (if d.1 = 0 then m.aOff else m.bOff) + mmStride m.fmt * d.2.1
  let now := dirEntry (coreOf s g) e
  if d.1 = 2 then (s, [])
  else if dMst w = false then
    if dValid now ∧ dBase now = base ∧ dFmt now = fmt ∧ m.dirty.contains e = false then
      (modCore s g (fun c => landMargins c e (marginKind fmt) formed), [])
    else (s, [])
  else
    let r := runCheck t formed (marginsOf (marginKind fmt) d.2.2.2.2) (scratchTols fmt t.val)
    if r.clean then (s, [])
    else if r.fixed.isSome then
      let s := correctElem s g e base fmt (d.1 + 1) r
      (if d.1 = 1 then fixGangBuffers s m d.2.1 r else s, [marginFault m 4 e (d.1 + 1) (locatedAt base fmt r) r])
    else (s, [marginFault m 3 e (d.1 + 1) (locatedAt base fmt r) r])

/-- Every operand check, in order. -/
def operandChecks (s : State) (g : Nat) (m : MOp) : State × List FaultRec :=
  m.decls.foldl (fun q d => let r := operandCheck q.1 g m d; (r.1, q.2 ++ r.2)) (s, [])

/-- The cells of a tile as a grid. -/
def cellGrid (c : Core) (k fmt rows cols : Nat) : Grid :=
  ⟨fmt, lane64.map (fun i => lane64.map (fun n => (accCell c k i n).toNat)), rows, cols⟩

/-- The cells of a tile with the filled rows and columns of its entry (R150). -/
def tileGrid (c : Core) (k fmt : Nat) : Grid := cellGrid c k fmt (dRows (dirEntry c k)) (dCols (dirEntry c k))

/-- Subclass of a check that fails (R393). -/
def failSub (r : CheckRes) : Nat := if r.rows.length = 1 ∧ r.cols.length = 1 then 2 else 1

/-- Was the cell of row `i` read between Lr and Lc (R391)? -/
def seenRow (s : State) (g op i : Nat) : Bool :=
  match mopOf s g op with
  | some m => m.seen.any (fun x => x = 64 || x = i)
  | none => false

/-- The prediction of a multiply: margins, and companions (R286, R383). -/
def predictions (m : MOp) : Margins × Margins :=
  let int := mmInt m.fmt
  let a := aRows m
  let b := bCols m 0
  let k := kOf m
  let share := match m.gang with
    | some (_, n, _) => decide (n ≠ 0)
    | none => false
  let u := sideSums int k a
  let w := if share && !m.redone then (List.range k).map (fun j => valOf .f32 (tabGet (fun _ => 0) m.wIn j))
    else sideSums int k b
  let p := predict int m.margs a b u w
  if int then (p, zeroMargins)
  else
    let aa := absRows a
    let ab := absRows b
    (p, predict false m.mu aa ab (sideSums false k aa) (sideSums false k ab))

/-- Does the leader's check of B disagree (R394)? -/
def leaderBad (s : State) (leader st : Nat) : Option (Nat × CheckRes) :=
  match (coreOf s leader).mops.find? (fun m => m.kind = 7 && m.id = st) with
  | none => none
  | some m =>
    m.decls.findSome? (fun d =>
      if d.1 = 1 ∧ dMst d.2.2.2.1 = true then
        let fmt := mmTile m.fmt
        let t := subTile m 1 d.2.1
        let r := runCheck t t.margins (marginsOf (marginKind fmt) d.2.2.2.2) (scratchTols fmt t.val)
        if r.clean then none else some (d.2.2.1, r)
      else none)

/-- The check of a multiply or of a share (R285, R286, R390, R391, R394). -/
def checkMultiply (s : State) (g : Nat) (m : MOp) : State :=
  let fmt := resultFmt m.fmt
  let mk := marginKind fmt
  withCells s g m 1 (cellBads (coreOf s g) m.tile) (fun s =>
    let q := operandChecks s g m
    let s := q.1
    let pr := predictions m
    let t := tileGrid (coreOf s g) m.tile fmt
    let r := runCheck t t.margins pr.1 (resultTols pr.2)
    let s := modCore s g (fun c => countCheck c m.tile 0)
    let fails := !r.clean && r.fixed.isNone
    let s := if r.clean then modCore s g (fun c => landMargins c m.tile mk r.margins)
      else correctCell s g m.tile fmt 0 r
    let s := modCore s g (fun c => { c with mops := c.mops.map (passMargins m r.margins pr.2) })
    let own := if fails then [marginFault m (failSub r) m.tile 0 0 r]
      else match r.fixed with
        | some (i, _, _, _) => if seenRow s g m.id i then [marginFault m 6 m.tile 0 0 r] else []
        | none => []
    let lead := match m.gang with
      | some (l, n, st) => if n ≠ 0 ∧ m.redone = false then
          (match leaderBad s l st with
           | some (e, b) => [marginFault m 5 e 2 0 b]
           | none => []) else []
      | none => []
    match lead ++ q.2 ++ own with
    | [] => completionAdds s g m
    | f :: _ => findFault s g 17 f)

/-- Margins of an entry's tile are compared when MST is 1, or land when it is 0 (R298): `t` is the tile as read. -/
def checkTile (s : State) (g : Nat) (m : MOp) (e : Nat) (t : Grid) (tols : List Val × List Val)
    (correct : State → CheckRes → State) (fault : CheckRes → FaultRec) : State :=
  let mk := marginKind t.fmt
  let formed := t.margins
  if dMst (dirEntry (coreOf s g) e) then
    withSlot s g m e (fun s =>
      let r := runCheck t formed (storedMargins (coreOf s g) e mk) tols
      let s := modCore s g (fun c => countCheck c e 0)
      if r.clean then s
      else if r.fixed.isSome then correct s r
      else findFault s g 17 (fault r))
  else modCore s g (fun c => landMargins c e mk formed)

/-- Does entry `e` still describe the tile the operation read? DESIGN CHOICE (log entry 56): MLOAD.c and MCHK.sp compare with MST and the
margins that the entry has at Lc, whatever was written to the tile since its lines were read, and neither compare nor land anything
when the entry no longer names the tile (R298). -/
def sameTile (s : State) (g : Nat) (m : MOp) (e : Nat) : Bool :=
  let w := dirEntry (coreOf s g) e
  dValid w && dBase w = m.aOff && dFmt w = m.fmt

/-- MLOAD at Lc: its source's check, then the margins of its tile (R295, R390). -/
def checkMload (s : State) (g : Nat) (m : MOp) : State :=
  let t := readGrid m
  let kind := if marginFloat (marginKind m.fmt) then 13 else 14
  let fix (s : State) (r : CheckRes) : State :=
    let s := correctElem s g m.entry m.aOff m.fmt 4 r
    match r.fixed with
    | some (i, n, x, _) =>
      let a := if m.t then n else i
      let b := if m.t then i else n
      let s := modCore s g (fun c => fixCell c m.tile a b (mloadCell m.fmt x).toNat)
      if seenRow s g m.id a then findFault s g 17 (marginFault m 6 m.tile 0 0 ⟨[a], [b], none, zeroMargins⟩) else s
    | none => s
  let s := if m.chk && sameTile s g m m.entry then
    checkTile s g m m.entry t (scratchTols m.fmt t.val) fix (fun r => marginFault m 3 m.entry 1 (locatedAt m.aOff m.fmt r) r)
    else s
  if (coreOf s g).found ≠ [] ∨ (mopOf s g m.id).isNone = true then s
  else withCells s g m 1 (cellBads (coreOf s g) m.tile) (fun s => modCore s g (fun c =>
    landMargins c m.tile (marginKind kind) (tileGrid c m.tile kind).margins))

/-- MOUT at Lc (R296, R390). -/
def checkMout (s : State) (g : Nat) (m : MOp) : State :=
  let w := dirEntry (coreOf s g) m.tile
  let fix (s : State) (r : CheckRes) : State :=
    let s := correctCell s g m.tile (dFmt w) 5 r
    match r.fixed with
    | some (i, n, x, _) =>
      let a := if m.t then n else i
      let b := if m.t then i else n
      fixElem s g m.aOff m.fmt a b (moutCode m (dFmt w) (BitVec.ofNat 64 x))
    | none => s
  checkTile s g m m.tile (moutGrid m (dFmt w)) exactTols fix (fun r => marginFault m (failSub r) m.tile 0 0 r)

/-- MMARG at Lc (R297). -/
def landMmarg (s : State) (g : Nat) (m : MOp) : State :=
  if m.entry < 8 then
    withCells s g m 1 (cellBads (coreOf s g) m.entry) (fun s => modCore s g (fun c =>
      let w := dirEntry c m.entry
      let k := (cellGrid c m.entry (dFmt w) m.nrow m.ncol).margins
      setDir (setMargins c m.entry (marginWords (marginKind (dFmt w)) k)) m.entry
        (mkDir (dValid w) (dFmt w) true m.nrow m.ncol (dBase w))))
  else modCore s g (fun c =>
    setDir (setMargins c m.entry (marginWords (marginKind m.fmt) (readGrid m).margins)) m.entry
      (mkDir true m.fmt true m.nrow m.ncol m.aOff))

/-- MCHK tk at Lc (R298). -/
def checkCells (s : State) (g : Nat) (m : MOp) : State :=
  let w := dirEntry (coreOf s g) m.tile
  withCells s g m 1 (cellBads (coreOf s g) m.tile) (fun s =>
    checkTile s g m m.tile (tileGrid (coreOf s g) m.tile (dFmt w)) exactTols
      (fun s r => correctCell s g m.tile (dFmt w) 3 r) (fun r => marginFault m (failSub r) m.tile 0 0 r))

/-- MCHK.sp at Lc (R298). -/
def checkScratch (s : State) (g : Nat) (m : MOp) : State :=
  if sameTile s g m m.entry then
    checkTile s g m m.entry (readGrid m) (scratchTols m.fmt (readGrid m).val)
      (fun s r => correctElem s g m.entry m.aOff m.fmt 3 r)
      (fun r => marginFault m (failSub r) m.entry 3 (locatedAt m.aOff m.fmt r) r)
  else s

/-- MARGIN_CHECK: what an operation lands and compares at Lc (R279, R286). -/
def execMarginCheck (g op : Nat) (s : State) : Host.Outcome State Fault Refusal :=
  match mopOf s g op with
  | none => .next s
  | some m =>
    .next (match m.kind with
    | 0 => checkMultiply s g m
    | 2 => checkMload s g m
    | 3 => checkMout s g m
    | 4 => landMmarg s g m
    | 5 => checkCells s g m
    | 6 => checkScratch s g m
    | _ => s)

/-! ### Shares of a ganged multiply (R289 to R292, R365, R447 to R449) -/

/-- The stream of an MMAG, at its leader. -/
def streamOf (s : State) (st : Nat) : Option (Nat × MOp) :=
  s.cores.findSome? (fun e => (e.2.mops.find? (fun m => m.kind = 7 && m.id = st)).map (fun m => (e.1, m)))

/-- The share of member `g` of the gang with stream `m`, as it starts now (R289, R290). -/
def shareOp (s : State) (g leader k : Nat) (m : MOp) : MOp :=
  let c := coreOf s g
  let t := cnow s g
  let n := mmSubs m.fmt
  let col := k % m.cols
  let ch := if m.z then none else chainOf c m.tile t
  let cells := if m.z ∨ ch.isSome then [] else filledCells (dirEntry c m.tile) (tileCells c m.tile)
  let margs := if m.chk ∧ ch.isNone then startMargins c m.tile m.fmt m.z cells else zeroMargins
  let bDecls := (m.decls.filter (fun d => d.1 = 1 && d.2.1 / n = col)).map (fun d =>
    (2, d.2.1 % n, d.2.2.1, d.2.2.2.1, []))
  let got (l : Nat) : Bool := tabGet (fun _ => 0) c.gangTag l = m.id + 1
  let sb := (List.range (sbRows m.fmt)).filter (fun r => got (128 + r))
  let sa := c.scale.filter (fun e => decide (e.1 < 8))
  let qs := (List.range (kOf m / 16)).filter (fun q => got (136 + q))
  let w (q i : Nat) : Nat := (tabGet zeroAt c.gangBuf (136 + q)).toNat / 2 ^ (32 * i) % 2 ^ 32
  { m with
    id := s.seq, kind := 0, src := ⟨g, c.pass.id.serial, 15, 3, m.src.bundle, 0xFFFF, t⟩, gang := some (leader, k, m.id)
    c := t, st := stretchOf s g 15, chained := ch.map (·.id), decls := declsOf c 0 m.aOff m.fmt n ++ bDecls
    aLines := [], bLines := [], cells := cells, margs := margs, mu := absMargins margs, dirty := [], seen := []
    scales := if m.sc then sb.foldl (fun t r => tabSet zeroAt t (8 + r) (tabGet zeroAt c.gangBuf (128 + r))) sa else []
    wIn := (qs.flatMap (fun q => (List.range 16).map (fun i => (16 * q + i, w q i)))).foldl
      (fun t e => tabSet (fun _ => 0) t e.1 e.2) []
    wHave := qs.map (fun q => if c.gangBad.contains (136 + q) then q + 1000 else q)
    late := m.sc && decide (sb.length ≠ sbRows m.fmt) }

/-- Faults of a share's start, named as R449 gives. -/
def shareFaults (s : State) (g : Nat) (m : MOp) : List FaultRec :=
  let fresh := m.z || m.chained.isSome
  (engineFaults s g m.c ++ tileFaults s g m.tile m.c (!m.z) ++ holdFaults s g m.c m.p [m.aOff / 2 ^ 19] ++
    (if fresh then [] else startFaults s 1 (cellBads (coreOf s g) m.tile)) ++
    (if !fresh && m.chk && startsStored (dirEntry (coreOf s g) m.tile) m.fmt then
      startFaults s 2 (slotBads (coreOf s g) m.tile) else []) ++ declFaults s g m).map (fun r =>
      { r with slot := 3, bundle := m.src.bundle, cmd := 0xFFFF })

/-- A share begins on its member's engine. -/
def beginShare (s : State) (g : Nat) (m : MOp) : State :=
  match firstFault (shareFaults s g m) with
  | some f => takeFault s g f
  | none =>
    let own := some m.src
    let s := addMop (reserveHold (countStart s g m) g m.c m.p [m.aOff / 2 ^ 19]) g m
    let s := postReads (postReads s g own m 0 128 128) g own m 1 128 128
    postLandings s g m true m.chk

/-- MEMBER_SHARE_START: member `g` begins its share of the MMAG with stream `st` (R290); a member whose pass is being
rolled back runs it at the same offset of the redone pass (R365). -/
def execMemberShareStart (g st : Nat) (s : State) : Host.Outcome State Fault Refusal :=
  let c := coreOf s g
  let t := cnow s g
  match c.pass.shares.find? (fun x => (x.2.gang.map (·.2.2)) = some st), streamOf s st with
  | some (_, m), _ =>
    .next (beginShare s g { shareOp s g ((m.gang.map (·.1)).getD 0) ((m.gang.map (·.2.1)).getD 0)
      { m with id := st, decls := m.decls.map (fun d => (if d.1 = 2 then 1 else d.1, d.2.1, d.2.2.1, d.2.2.2.1, [])), cols := 1 } with
      cols := m.cols, redone := true, gang := m.gang })
  | none, some (leader, m) =>
    let k := ((m.members.find? (fun x => x.1 = g)).map (·.2.1)).getD 0
    let o := shareOp s g leader k m
    let note (p : Pass) : Pass := { p with shares := p.shares ++ [(t - p.m, o)] }
    let rolled := match c.run with
      | .rolling => true
      | .reenter _ _ => true
      | _ => inhibited c
    .next (match c.run with
      | .idle => s
      | .ending => s
      | .stopped => s
      | _ =>
        if rolled then modCore s g (fun c => { c with roll := c.roll.map (fun r => { r with pass := note r.pass }) })
        else beginShare (modCore s g (fun c => { c with pass := note c.pass })) g o)
  | none, none => .next s

/-- A flit of a gang's stream arrives at a member: a line of the gang buffer, or w for the share it belongs to (R448). -/
def streamLand (s : State) (g st off : Nat) (bytes : List Byte) (poison : Bool) : State :=
  let l := off / 64
  let x := BitVec.ofNat 512 (leNat bytes)
  modCore s g (fun c =>
    match c.mops.find? (fun m => (m.gang.map (·.2.2)) = some st && m.kind = 0) with
    | some m =>
      if 136 ≤ l then
        let q := l - 136
        let vs := (List.range 16).map (fun i => (16 * q + i, x.toNat / 2 ^ (32 * i) % 2 ^ 32))
        let m' := { m with wIn := vs.foldl (fun t e => tabSet (fun _ => 0) t e.1 e.2) m.wIn
                           wHave := m.wHave ++ [if poison then q + 1000 else q] }
        { c with mops := c.mops.map (fun y => if y.id = m.id then m' else y) }
      else { c with gangBuf := tabSet zeroAt c.gangBuf l x, gangTag := tabSet (fun _ => 0) c.gangTag l (st + 1)
                    gangBad := if poison then l :: c.gangBad else c.gangBad.filter (· ≠ l) }
    | none =>
      { c with gangBuf := tabSet zeroAt c.gangBuf l x, gangTag := tabSet (fun _ => 0) c.gangTag l (st + 1)
               gangBad := if poison then l :: c.gangBad else c.gangBad.filter (· ≠ l) })

end Sys2Proof.Machine
end

