-- ==== Sys2Proof/Machine/XUnit.lean ====
section
/-! DEFINITION. The X unit: scale rows, four-bit packing, and the Chamois queue (10, R300 to R305; 04, R124 to R128). -/

namespace Sys2Proof.Machine

/-- SCL (R301). -/
def execScl (n : BitVec 4) (r : RegField) (i : Imm) (s : State) : Host.Outcome State Fault Refusal :=
  let g := s.cur.g
  let x := scalarOffset s r i 64
  let ins : Instr := .scl n r i
  let fs := offsetFaults s [x] 64 64
  let offs := spanOf x 64
  let more := if fs = [] then
    readPortFaults s g (linesOf offs) (cnow s g) false ++ loadFaults s g offs else fs
  checked s (operandFaults s ins ++ deadFaults s ++ more) (fun s =>
    let s := countLoad (countOperands s ins) g offs
    let s := reserveRead s g (linesOf offs) (cnow s g)
    landResult s (landCyc s 14 2) 14 (.srow n.toNat (BitVec.ofNat 512 (leNat (sliceBytes s g x.toNat 64)))))

/-- The row of bytes that SCLV takes from a vector (R302). -/
def scaleBytes (x : VReg) : BitVec 512 :=
  BitVec.ofNat 512 ((List.range 64).foldl (fun a i => a + lane x i % 256 * 2 ^ (8 * i)) 0)

/-- SCLV (R302). -/
def execSclv (n : BitVec 4) (a : RegField) (m : Md) (s : State) : Host.Outcome State Fault Refusal :=
  let ins : Instr := .sclv n a m
  checked s (vecFaults s ins) (fun s =>
    landGuarded (noteVreads (countOperands s ins) ins) m (landCyc s 14 2) 14 (.srow n.toNat (scaleBytes (vVal s a))))

/-- The four bits XPACK keeps of a lane (R303). -/
def packNibble (mode x : Nat) : Nat :=
  if mode = 0 then x % 16 else if mode = 1 then wrapInt 4 (sat (signed 32 x) (-8) 7) else min x 15

/-- XPACK (R303): lanes 8g to 8g + 7 take the elements. -/
def execXpack (mode : BitVec 2) (d a : RegField) (g : BitVec 3) (m : Md) (s : State) :
    Host.Outcome State Fault Refusal :=
  let ins : Instr := .xpack mode d a g m
  let v := vVal s a
  let x := ofElems 4 (fun k =>
    if k / 64 = g.toNat then packNibble mode.toNat (lane v (k % 64)) else 0)
  let lanes : BitVec 64 := BitVec.ofNat 64 (0xFF * 2 ^ (8 * g.toNat))
  let l : Landing := .vreg d.toNat lanes x
  let cyc := landCyc s 8 3
  checked s (vecFaults s ins ++ landFaults s s.cur.g cyc l) (fun s =>
    landGuarded (noteVreads (countOperands s ins) ins) m cyc 8 l)

/-- XUNPACK (R303). -/
def execXunpack (mode : BitVec 2) (d a : RegField) (g : BitVec 3) (m : Md) (s : State) :
    Host.Outcome State Fault Refusal :=
  let ins : Instr := .xunpack mode d a g m
  let v := vVal s a
  let x := ofLanes (fun k =>
    let e := elem 4 v (64 * g.toNat + k)
    if mode.toNat = 0 then e else wrapInt 32 (signed 4 e))
  let l : Landing := .vreg d.toNat (BitVec.allOnes 64) x
  let cyc := landCyc s 8 3
  checked s (vecFaults s ins ++ landFaults s s.cur.g cyc l) (fun s =>
    landGuarded (noteVreads (countOperands s ins) ins) m cyc 8 l)

/-- The register RNDPOP delivers (R305). -/
def popLanes (packed : Bool) (w : BitVec 1024) : VReg :=
  if packed then BitVec.ofNat 2048 w.toNat else ofLanes (fun i => w.toNat / 2 ^ (16 * i) % 2 ^ 16)

/-- RNDPOP (R126, R305): the word is popped whatever the guard. -/
def execRndpop (packed : Bool) (d : RegField) (m : Md) (s : State) : Host.Outcome State Fault Refusal :=
  let ins : Instr := .rndpop packed d m
  checked s (operandFaults s ins ++ deadFaults s ++ popFaults s) (fun s =>
    let x := popLanes packed (chamoisHead s)
    landGuarded (popChamois (countOperands s ins)) m (landCyc s 4 2) 4 (.vreg d.toNat (BitVec.allOnes 64) x))

/-- RNDSEED (R125, R304): after every pop and append of its cycle. -/
def execRndseed (a : RegField) (m : Md) (s : State) : Host.Outcome State Fault Refusal :=
  let ins : Instr := .rndseed a m
  checked s (operandFaults s ins ++ deadFaults s) (fun s =>
    let s := countOperands s ins
    if guardMd s m then performAt s 34 (.seed (sVal s a)) else s)

/-- The generator takes a key: no word has been generated and the queue is empty (R125). -/
def seedChamois (s : State) (g : Nat) (key : Word) : State :=
  modCore s g (fun c => { c with live := { c.live with rnd := ⟨key, 0, [], true⟩ } })

/-- CHAMOIS_APPEND (R125, R126): in a live cycle, the next word joins a queue of fewer than eight. -/
def execChamoisAppend (g : Nat) (s : State) : Host.Outcome State Fault Refusal :=
  let live := ((partOfCore s g).map (fun p => (partOf s p).live)).getD false
  .next (modCore s g (fun c =>
    let r := c.live.rnd
    if live = true ∧ r.seeded = true ∧ r.queue.length < 8 then
      { c with live := { c.live with rnd := { r with n := r.n + 1, queue := r.queue ++ [chamoisWord r.key r.n] } } }
    else c))

end Sys2Proof.Machine
end

