-- ==== Sys2Proof/Machine/Transfer.lean ====
section
/-! DEFINITION. Transfers of the two lighters at issue: routes and shapes (11, R306 to R313), translation (05, R143 to
R145; 17, R408 to R413), and the timetable of the pieces (R312). -/

namespace Sys2Proof.Machine

/-! ### Routes (R306) -/

def rtValid (r : Word) : Bool := fieldOf r 0 1 = 1
def rtKind (r : Word) : Nat := fieldOf r 1 2
def rtPkg (r : Word) : Nat := fieldOf r 3 6
def rtNode (r : Word) : Nat := fieldOf r 9 9
def rtLout (r : Word) : Nat := fieldOf r 24 16
def rtLback (r : Word) : Nat := fieldOf r 40 16
def rtPath (r : Word) : Nat := fieldOf r 56 8

/-- Route register `i` of a core, and shape register `j` of entry `n` (R307). -/
def routeReg (s : State) (g i : Nat) : Word := sysGet (coreOf s g) (0x380 + i)
def shapeReg (s : State) (g n j : Nat) : Word := sysGet (coreOf s g) (0x300 + 8 * n + j)

/-- The hops of path `i` of the core's image (R306); 256 stands for a transfer that uses no link. -/
def pathOf (s : State) (g i : Nat) : List Hop :=
  match coreImage s g with
  | none => []
  | some m => ((m.paths.find? (fun x => x.1 = g / 512 && x.2.1 = i)).map (·.2.2)).getD []

/-- The same route the other way. -/
def reversePath (p : List Hop) : List Hop := p.reverse.map (fun h => { h with dir := !h.dir })

/-- The home of a global address: a core, or 2^20 + package × 8 + stack (R137 to R139). -/
def homeOf (ga : Nat) : Nat :=
  if spaceOf ga = 0 then ga / 2 ^ 30 else 2 ^ 20 + ga / 2 ^ 39 % 64 * 8 + ga / 2 ^ 36 % 8
def isStack (h : Nat) : Bool := decide (2 ^ 20 ≤ h)

/-- The home a route names. -/
def routeHome (r : Word) : Nat :=
  if rtKind r = 1 then 2 ^ 20 + rtPkg r * 8 + rtNode r else rtPkg r * 512 + rtNode r

/-- Delivery bound of a stack home (R34, R168), from the map of the stack's own package (R139). -/
def stackBound (s : State) (h c : Nat) : Nat := deliveryBound s ((h - 2 ^ 20) / 8) (h % 8) c

/-! ### Translation (R143, R145, R408, R409, R413) -/

/-- The valid entry of the copy of the core's die layer that covers a virtual address. -/
def coveringEntry (s : State) (g va : Nat) : Option (Nat × BitVec 128) :=
  (s.table.filter (fun e => e.1 / 4096 = layerKey g)).findSome? (fun e =>
    let w := e.2.toNat
    let k := 16 + 2 * (w / 2 % 8)
    if w % 2 = 1 ∧ va % 2 ^ 48 / 2 ^ k = w % 2 ^ 48 / 2 ^ k then some (e.1 % 4096, e.2) else none)

/-- The global address, through an entry. -/
def throughEntry (x : BitVec 128) (va : Nat) : Nat :=
  let w := x.toNat
  w / 2 ^ 80 % 2 ^ 32 * 2 ^ 16 + va % 2 ^ (16 + 2 * (w / 2 % 8))

/-- Translate; an address no entry covers translates to 0. -/
def translate (s : State) (g va : Nat) : Nat :=
  match coveringEntry s g va with
  | some (_, x) => throughEntry x va
  | none => 0

/-- Permission bits: 1 RD, 2 WR, 4 AT, 8 CODE. -/
def permits (x : BitVec 128) (need : Nat) : Bool := decide (x.toNat / 16 % 16 / need % 2 = 1)

/-- Subclasses 3 and 4 of XLATE for a slice or stack: the space, and whether the pod and the map provide the address. -/
def placeSub (s : State) (ga : Nat) : Option Nat :=
  let n := ga / 2 ^ 39 % 64
  if 2 ≤ spaceOf ga then some 3
  else if s.pkgs.all (fun e => e.1 ≠ n) then some 4
  else if spaceOf ga = 0 ∧ (384 ≤ ga / 2 ^ 30 % 512 ∨ ga / 2 ^ 21 % 512 ≠ 0 ∨ goodCore s (ga / 2 ^ 30) = false) then some 4
  else none

/-- Subclasses 3 to 5 for a transfer on route `r` whose first byte has home `first`. -/
def reachSub (s : State) (g : Nat) (r : Word) (lslot : Bool) (first ga : Nat) : Option Nat :=
  match placeSub s ga with
  | some x => some x
  | none =>
    let h := homeOf ga
    if isStack first ∧ isStack h ∧ h ≠ first then some 4
    else if lslot ∧ ga / 2 ^ 39 % 64 ≠ g / 512 then some 4
    else if h ≠ routeHome r ∨ 2 ≤ rtKind r ∨ (rtKind r = 1 ∧ 8 ≤ rtNode r) then some 5
    else none

/-- Subclass and DETAIL of an XLATE at one address. -/
def xlateAt (s : State) (g va need : Nat) (reach : Nat → Option Nat) : Option (Nat × Nat) :=
  match coveringEntry s g va with
  | none => some (1, need + 0xFFF * 16)
  | some (e, x) =>
    if permits x need then (reach (throughEntry x va)).map (fun n => (n, need + e * 16)) else some (2, need + e * 16)

/-- UNCORR 7: the copy holds an uncorrectable entry (R413). -/
def tableFaults (s : State) (g : Nat) : List FaultRec :=
  ((s.tableBad.filter (fun e => e.1 / 4096 = layerKey g && e.2 = 1000)).take 1).map (fun e =>
    slotFault s 0x0B 7 (e.1 % 4096) 12)

/-- Every lookup meets every entry: corrected ones are counted (R397), and the control core is to repair an uncorrectable
one in the next service window (R413). -/
def countLookup (s : State) (g : Nat) : State :=
  (s.tableBad.filter (fun e => e.1 / 4096 = layerKey g && e.2 ≠ 1000)).foldl (fun s e =>
    postError s g 0 12 (e.1 % 4096) 1) s

/-- The first cycle of the next service window. -/
def nextWindow (t : Nat) : Nat := if t % 4096 < 0xFC0 then t / 4096 * 4096 + 0xFC0 else (t / 4096 + 1) * 4096 + 0xFC0

/-- The repair of every uncorrectable entry of the layer is asked for, each once. -/
def askRepair (s : State) (g : Nat) : State :=
  (s.tableBad.filter (fun e => e.1 / 4096 = layerKey g && e.2 = 1000)).foldl (fun s e =>
    let i : Instr := .tableEntryRepair (layerKey g) (BitVec.ofNat 12 (e.1 % 4096))
    if s.agenda.any (fun d => d.ev = .instr i) then s
    else postAt s g (nextWindow (cnow s g)) 40 none (.instr i)) s

/-! ### Shapes and pieces (R307, R308) -/

/-- Pieces as enumerated: local byte, far byte, length. -/
abbrev Pieces := List (Int × Int × Nat)

/-- A run cut at the 64-byte lines of both sides. -/
def cutRun : Nat → Int → Int → Nat → Pieces
  | 0, _, _, _ => []
  | f + 1, lb, fb, n =>
    if n = 0 then []
    else
      let k := min n (min (64 - lb % 64) (64 - fb % 64)).toNat
      (lb, fb, k) :: cutRun f (lb + k) (fb + k) (n - k)

def shRun (s : State) (g n : Nat) : Nat := fieldOf (shapeReg s g n 0) 0 21
def shCount (s : State) (g n j : Nat) : Nat := fieldOf (shapeReg s g n j) 0 16
def shLstride (s : State) (g n j : Nat) : Int := signed 22 (fieldOf (shapeReg s g n j) 32 22)
def shFstride (s : State) (g n j : Nat) : Int := signed 48 (fieldOf (shapeReg s g n (j + 3)) 0 48)

/-- The pieces of shape entry `n`; CPY, CPYM, CODE, SEND and BCST use RUN alone. -/
def piecesOf (s : State) (g n : Nat) (full : Bool) (lo fa : Int) : Pieces :=
  let run := shRun s g n
  if full then
    let c (j : Nat) := List.range (shCount s g n j)
    let mask := fieldOf (shapeReg s g n 0) 32 32
    let clip := shapeReg s g n 7
    (c 3).flatMap (fun (i3 : Nat) => (c 2).flatMap (fun (i2 : Nat) => (c 1).flatMap (fun (i1 : Nat) =>
      if mask / 2 ^ (i1 % 32) % 2 = 0 then []
      else
        let off (f : Nat → Int) : Int := (i1 : Int) * f 1 + (i2 : Int) * f 2 + (i3 : Int) * f 3
        let fo := off (shFstride s g n)
        let len := if fieldOf clip 63 1 = 1 then (min (run : Int) ((fieldOf clip 0 48 : Nat) - fo)).toNat else run
        cutRun len (lo + off (shLstride s g n)) (fa + fo) len)))
  else cutRun run lo fa run

/-- A far byte as a 48-bit virtual address. -/
def vaOf (x : Int) : Nat := (x % 2 ^ 48).toNat

/-- Bytes from piece `k` to the end of the shape (R356, EXTENT). -/
def extentOf (ps : List Nat) (k : Nat) : Nat := (ps.drop k).foldl (· + ·) 0

/-- A fault of the slot that names a piece. -/
def pieceFault (s : State) (cls sub va k ext : Nat) (detail : Word) : FaultRec :=
  { slotFault s cls sub va detail with piece := k, extent := ext }

/-- OPERAND at issue, when none of the `total` bytes of the operation has moved: EXTENT names them all (R356). -/
def ofExtent (total : Nat) (fs : List FaultRec) : List FaultRec :=
  fs.map (fun r => if r.cls = 0x0A ∧ r.extent = 0 ∧ r.piece = 0 then { r with extent := total } else r)

/-- OPERAND 6: the route or the shape entry is not one to use. -/
def shapeFaults (s : State) (g n : Nat) (ps : Pieces) : List FaultRec :=
  if 0x100000 < shRun s g n ∨ 65536 < ps.length then [slotFault s 0x0A 6 0 0] else []
def routeFaults (s : State) (r : Word) : List FaultRec :=
  if rtValid r = false ∨ rtKind r = 3 then [slotFault s 0x0A 6 0 0] else []

/-- OPERAND 1: a local offset out of the slice, or a far address of more than 48 bits (R141). -/
def localFaults (s : State) (lo : Nat) (ps : Pieces) : List FaultRec :=
  if 2 ^ 21 ≤ lo then [slotFault s 0x0A 1 (lo % 2 ^ 48) 0]
  else
    match (List.range ps.length).find? (fun k => let p := ps.getD k (0, 0, 0)
        decide (p.1 < 0) || decide (2 ^ 21 < p.1 + (p.2.2 : Int))) with
    | some k => [pieceFault s 0x0A 1 (vaOf (ps.getD k (0, 0, 0)).1) k (extentOf (ps.map (·.2.2)) k) 0]
    | none => []
def farRange (s : State) (fa : Nat) : List FaultRec :=
  if 2 ^ 48 ≤ fa then [slotFault s 0x0A 1 (fa % 2 ^ 48) 0] else []

/-- XLATE of the far side of a transfer: the first piece that fails, or for a transfer of no bytes its address. -/
def farFaults (s : State) (g need : Nat) (r : Word) (lslot : Bool) (fa : Nat) (ps : Pieces) : List FaultRec :=
  let qs := if ps = [] then [((0 : Int), (fa : Int), 0)] else ps
  let first := homeOf (translate s g (vaOf ((qs.headD (0, fa, 0)).2.1)))
  let hit := (List.range qs.length).findSome? (fun k =>
    let va := vaOf (qs.getD k (0, 0, 0)).2.1
    (xlateAt s g va need (reachSub s g r lslot first)).map (fun e => (k, va, e)))
  match hit with
  | some (k, va, e) =>
    [pieceFault s 0x0D e.1 va k (extentOf (qs.map (·.2.2)) k) (BitVec.ofNat 64 e.2)]
  | none => []

/-! ### The lighters (R311) -/

/-- OPERAND 3: 64 operations of the slot's lighter have not landed; what lands in this very cycle has (R81). -/
def capacityFaults (s : State) (g : Nat) : List FaultRec :=
  let t := cnow s g
  let n := ((coreOf s g).ops.filter (fun o => o.1 = s.cur.slot && decide (t < o.2.1))).length +
    (if s.cur.slot = 4 then (s.xfers.filter (fun x => x.g = g && x.kind = 5)).length else 0)
  if 64 ≤ n then [slotFault s 0x0A 3 0 0] else []

/-- The operation is in flight until `land`. -/
def noteOp (s : State) (g land : Nat) : State :=
  let t := cnow s g
  modCore s g (fun c => { c with
    ops := c.ops.filter (fun o => decide (t ≤ o.2.1)) ++ [(s.cur.slot, land, c.pass.id.serial)] })

/-- The number of the operation issued now: sixteen times its cycle, and 8 in the L slot, 9 in the Q slot. A DRAIN of its bundle
has a number of its own: 16 times the cycle itself, which covers what earlier bundles issued (R174, R183), and those that the order
of an access places before and after it theirs (R176). -/
def opNumber (s : State) (g : Nat) : Nat := 16 * cnow s g + (if s.cur.slot = 5 then 9 else 8)

/-- DRAIN number `n` of scope `sc`, issued now by the operation `src`: its completion is decided F cycles on (R174, R420), and
its status lands in scalar register `reg`; 64: it has no status word. One that meets another landing there, or a full port, takes a
free value (R85, R89). -/
def drainFrom (s : State) (g n sc reg : Nat) (src : Src) : State :=
  let t := cnow s g + fenceCost s g sc
  let l : Landing := .sreg reg 0
  let free := decide (reg < 32) && landingClash s g t l
  let s := modCore (if free then freeFar s g t l else s) g (fun c => { c with
    draining := c.draining ++ [(n, sc, if free then reg + 128 else reg, false, src.serial)] })
  let s := if reg < 32 then noteLand (reserve s g 5 0 0 t) g src.serial t true else s
  postSub s (clkOf s g) t 9 1 (some src) (.perform g (.drainDecide n))

/-- The DRAINs that an access's order places beside it (R176): release before it, acquire after it. DESIGN CHOICE (log entry
56): with no status word they report nothing, so the next DRAIN of the program still reports what has failed. `sure`: the acquire does not depend on a comparison; else a failed one withdraws it, by its number. -/
def orderDrains (s : State) (g ord sc : Nat) (sure : Bool) (src : Src) : State :=
  let n := opNumber s g
  let s := if 2 ≤ ord then drainFrom s g (n - 7) sc 64 src else s
  if ord % 2 = 1 then drainFrom s g (n + (if sure then 2 else 4)) sc 64 src else s

/-- A write or RMW that a DRAIN is to cover (R174, R420). -/
def noteWrite (s : State) (g home path : Nat) : State :=
  let n := opNumber s g
  modCore s g (fun c => { c with writes := c.writes ++ [(n, home, path)] })

/-- A staged write makes `nrec` records at its home, which is to receive a commit flit (R172, R424). DESIGN CHOICE (log entry
56): to a home that operations of the pass reach by several routes, or by a broadcast, the commit takes the route and LOUT
of the first. -/
def noteStaged (s : State) (g home nrec lout lback cmd : Nat) (path : List Hop) : State :=
  let n := opNumber s g
  modCore s g (fun c =>
    let hs := c.pass.homes
    let hs := if hs.any (fun h => h.home = home) then
        hs.map (fun h => if h.home = home then { h with nrec := h.nrec + nrec } else h)
      else hs ++ [⟨home, nrec, n, cmd, lout, lback, path⟩]
    { c with pass := { c.pass with homes := hs } })

/-! ### The timetable (R312) -/

/-- LOUT and LBACK in use: an own-slice transfer uses no link. -/
def outOf (g home : Nat) (r : Word) : Nat := if home = g then 1 else rtLout r
def backOf (g home : Nat) (r : Word) : Nat := if home = g then 1 else rtLback r

/-- The landing Λ of `n` pieces from departure `d` at pace `p`. -/
def landingOf (s : State) (g home : Nat) (r : Word) (get : Bool) (d n p : Nat) : Nat :=
  let last := (n - 1) * p
  if isStack home then d + 2 * rtLout r + stackBound s home (sizeClass n)
  else d + outOf g home r + (if get then backOf g home r else 0) + last

/-- Cycle of the local side of piece `k`, and of its far side at a slice, or of a stack's read. -/
def localCyc (home lout lback land : Nat) (get : Bool) (d n p k : Nat) : Nat :=
  if get then (if isStack home then land - (n - 1) * p + k * p else d + lout + lback + k * p) else d + k * p
def farCyc (home lout land : Nat) (d n p k : Nat) : Nat :=
  if isStack home then land - (n - 1) * p + k * p - lout else d + lout + k * p

/-- A piece's use of a port of the core's slice that is taken: subclass and bank. In a recovery run a landing waits
instead (R371). -/
def portClash (s : State) (g off cyc : Nat) (rd : Bool) : Option (Nat × Nat) :=
  let fs := if rd then readPortFaults s g [off / 64] cyc false
    else (writePortFaults s g [off] cyc).filter (fun r => r.sub ≠ 8 && !(r.sub = 4 && (coreOf s g).recovery))
  fs.head?.map (fun r => (r.sub, r.detail.toNat))

/-- The port of a piece is taken. -/
def takePort (s : State) (g off cyc : Nat) (rd : Bool) : State :=
  if rd then reserve s g 0 (bankOf off) (off / 64) cyc else reserve s g 7 (bankOf off) (off / 64) cyc

/-- The uses of the core's own ports by piece `k`: offset, cycle, whether it reads. An own-slice transfer has two; the
footer of a CPYT, at offsets from 2^21, has none. -/
def portUses (g : Nat) (x : Xfer) (d k : Nat) : List (Nat × Nat × Bool) :=
  let p := x.pieces.getD k (0, 0, 0, 0)
  let home := homeOf p.2.2.1
  let n := x.pieces.length
  ((p.1, localCyc home x.lout x.lback x.land (!x.put) d n x.pace k, x.put) ::
    (if home = g then [(p.2.2.1 % 2 ^ 30, farCyc home x.lout x.land d n x.pace k, !x.put)] else [])).filter
      (fun u => decide (u.1 < 2 ^ 21))

/-- Takes the ports of pieces `ks`, up to the first conflict: the piece, its cycle, subclass and bank. -/
def takePorts (g : Nat) (x : Xfer) (d : Nat) : List Nat → State → State × Option (Nat × Nat × Nat × Nat)
  | [], s => (s, none)
  | k :: ks, s =>
    let us := portUses g x d k
    match us.findSome? (fun u => (portClash s g u.1 u.2.1 u.2.2).map (fun c => (k, u.2.1, c.1, c.2))) with
    | some c => (s, some c)
    | none => takePorts g x d ks (us.foldl (fun s u => takePort s g u.1 u.2.1 u.2.2) s)

/-- BANK at issue: the first piece's local side meets a taken port in the issue cycle itself. -/
def firstPortFaults (s : State) (g : Nat) (x : Xfer) (d : Nat) : List FaultRec :=
  match x.pieces, portUses g x d 0 with
  | p :: _, u :: _ =>
    if u.2.1 = cnow s g then
      match portClash s g u.1 u.2.1 u.2.2 with
      | some c => [pieceFault s 0x09 c.1 p.2.1 0 (extentOf (x.pieces.map (·.2.2.2)) 0) (BitVec.ofNat 64 c.2)]
      | none => []
    else []
  | _, _ => []

/-- The request of piece `k` of a get departs for a stack at `dep`, to be read there at `t`: once departed it is answered
whether the partition is frozen or not (R104). -/
def postAsk (s : State) (g : Nat) (own : Option Src) (op k dep t : Nat) : State :=
  postAt s g dep 25 own (.stackAsk op k (t - dep))

/-- The reads and writes of a transfer, at their cycles, up to a conflict of ports (R312, R379). -/
def postPieces (s : State) (g : Nat) (x : Xfer) (d : Nat) : State :=
  let n := x.pieces.length
  let own := some x.src
  let q := takePorts g x d (List.range n) s
  let m := match q.2 with
    | some c => c.1
    | none => n
  let s := match q.2 with
    | some c => postAt q.1 g c.2.1 20 own (.pieceBank x.id c.1 c.2.2.1 c.2.2.2)
    | none => q.1
  (List.range m).foldl (fun s k =>
    let home := homeOf (x.pieces.getD k (0, 0, 0, 0)).2.2.1
    let tl := localCyc home x.lout x.lback x.land (!x.put) d n x.pace k
    let tf := farCyc home x.lout x.land d n x.pace k
    if x.put then
      let s := postAt s g tl 20 own (.instr (.pieceTransfer x.id k true))
      if home = g then postAt s g tf 10 own (.instr (.pieceTransfer x.id k false)) else s
    else
      let s := if isStack home then postAsk s g own x.id k (d + k * x.pace) tf
        else postAt s g tf 20 own (.instr (.pieceTransfer x.id k true))
      postAt s g tl 10 own (.instr (.pieceTransfer x.id k false))) s

/-- Keeps a transfer; those long landed leave. -/
def addXfer (s : State) (x : Xfer) : State :=
  let t := cnow s x.g
  { s with xfers := s.xfers.filter (fun y => y.kind = 5 || y.g ≠ x.g || decide (t ≤ y.land + 2 ^ 20)) ++ [x], seq := s.seq + 1 }

def xferOf (s : State) (id : Nat) : Option Xfer := s.xfers.find? (fun x => x.id = id)
def modXfer (s : State) (id : Nat) (f : Xfer → Xfer) : State :=
  { s with xfers := s.xfers.map (fun x => if x.id = id then f x else x) }

/-- A transfer with its fields from the slot, before its pieces are known. -/
def newXfer (s : State) (g kind cmd : Nat) (put stg : Bool) (r : Word) : Xfer :=
  { id := s.seq, kind := kind, g := g, src := srcNow s g 0 cmd, inst := (coreOf s g).pass.id, put := put, stg := stg
    entry := 0, fmt := 0, mask := BitVec.allOnes 64, tag := ctxTag s g, chan := 0, hcid := 0, sectors := 0, dst := 0
    opno := opNumber s g, pace := unitPace s g s.cur.slot, land := 0, lout := rtLout r, lback := rtLback r
    path := pathOf s g (rtPath r), pieces := [], data := [], bad := [], lost := [], done := [], cancelled := false }

/-- The transfer of translated pieces on a route, from departure `d`. -/
def routed (s : State) (g : Nat) (x : Xfer) (r : Word) (fa d : Nat) (ps : Pieces) : Xfer :=
  let qs := ps.map (fun p => let va := vaOf p.2.1; (p.1.toNat, va, translate s g va, p.2.2))
  let home := homeOf (match qs with
    | q :: _ => q.2.2.1
    | [] => translate s g (fa % 2 ^ 48))
  { x with pieces := qs, lout := outOf g home r, lback := backOf g home r, dst := home
           land := landingOf s g home r (!x.put) d ps.length x.pace, path := if home = g then [] else x.path }

/-- Records that the transfer's writes make at another core: one a piece that writes a byte (R424). -/
def recordsOf (x : Xfer) : Nat :=
  (x.pieces.filter (fun p => decide (p.1 < 2 ^ 21) &&
    (List.range p.2.2.2).any (fun i => x.mask.getLsbD ((p.2.1 + i) % 64)))).length

/-- A transfer starts: its pieces, its landing, and what DRAIN and the commit will ask of it. `reg`: it lands in margins
and a directory entry. -/
def startXfer (s : State) (g : Nat) (x : Xfer) (d path : Nat) (reg : Bool) : State :=
  let s := noteOp (countLookup s g) g x.land
  let s := if x.put then
      let s := noteWrite s g x.dst (if x.dst = g then 256 else path)
      if isStack x.dst ∨ x.dst = g then s else noteStaged s g x.dst (recordsOf x) x.lout x.lback x.src.cmd x.path
    else s
  let s := noteLand (addXfer s x) g x.src.serial x.land reg
  let s := postPieces s g x d
  postSub s (clkOf s g) x.land 10 9 (some x.src) (.xferLand x.id)

end Sys2Proof.Machine
end

