-- ==== Sys2Proof/Machine/Lighter.lean ====
section
/-! DEFINITION. The L slot at issue: copies, code fills, host copies, the stage counter, and the bank ALUs' local atomics
(11, R310 to R322; 06, R178 to R181; 05, R158, R159). -/

namespace Sys2Proof.Machine

/-! ### Copies (R313 to R315) -/

/-- Faults of a transfer between the core's slice and a translated far side: OPERAND 3, 6 and 1, then XLATE, and BANK of
a first piece that moves at once (R379). DESIGN CHOICE (log entry 30): R308 allows 65,536 pieces and R312 gives a copy to or from a
stack of more than 16,384 no size class, whatever its bytes: it raises OPERAND 6. -/
def transferFaults (s : State) (g need : Nat) (r : Word) (lslot : Bool) (n lo fa : Nat) (ps : Pieces) (x : Xfer) (d : Nat) :
    List FaultRec :=
  let total := extentOf (ps.map (·.2.2)) 0
  let size := shapeFaults s g n ps ++
    (if isStack x.dst ∧ 16384 < ps.length then [slotFault s 0x0A 6 0 0] else [])
  let range := localFaults s lo ps
  let fs := capacityFaults s g ++ routeFaults s r ++ size ++ farRange s fa ++ range
  tableFaults s g ++
    (if fs = [] then farFaults s g need r lslot fa (if x.mask = 0 then [] else ps) else ofExtent total fs) ++
    (if size ++ range = [] then firstPortFaults s g x d else [])

/-- A bad table entry met by a lookup is to be repaired (R413). -/
def lookup (s : State) (guard : Bool) : State := if guard then askRepair s s.cur.g else s

/-- A copy of any kind: its transfer, from the state with its ordinal taken. -/
def copyOp (ins : Instr) (m : Md) (need n lo fa d : Nat) (r : Word) (ps : Pieces) (make : State → Nat → Xfer)
    (extra : List FaultRec) (reg : Bool) (s : State) : Host.Outcome State Fault Refusal :=
  let g := s.cur.g
  let guard := guardMd s m
  let fs := operandFaults s ins ++ deadFaults s ++
    (if guard then (if extra = [] then transferFaults s g need r (decide (s.cur.slot = 4)) n lo fa ps (make s 0) d
      else tableFaults s g ++ ofExtent (extentOf (ps.map (·.2.2)) 0) extra)
     else [])
  engineOp fs (fun k s =>
    let s := countOperands s ins
    if guard then startXfer s g (make s k) d (rtPath r) reg else s) (lookup s guard)

/-- CPY, CPYS and CPYM. DESIGN CHOICE (log entry 30): a get of no bytes is checked for the read of its far address that a get is; R181
speaks of writes, and of HCPY. -/
def plainCopy (ins : Instr) (kind : Nat) (put full : Bool) (mask : Word) (i : BitVec 4) (d a : RegField) (sh : BitVec 3)
    (m : Md) (extra : List FaultRec) (s : State) : Host.Outcome State Fault Refusal :=
  let g := s.cur.g
  let r := routeReg s g i.toNat
  let lo := (sVal s a).toNat
  let fa := (sVal s d).toNat
  let ps := piecesOf s g sh.toNat full lo fa
  let stg := decide (xfOf m / 2 ^ 19 % 2 = 1)
  let c := cnow s g
  copyOp ins m (if put then 2 else 1) sh.toNat lo fa c r ps (fun s k =>
    routed s g { newXfer s g kind k put stg r with mask := mask } r fa c ps) extra false s

def execCpy (put : Bool) (i : BitVec 4) (d a : RegField) (sh : BitVec 3) (m : Md) (s : State) :
    Host.Outcome State Fault Refusal := plainCopy (.cpy put i d a sh m) 0 put false (BitVec.allOnes 64) i d a sh m [] s

def execCpys (put : Bool) (i : BitVec 4) (d a : RegField) (sh : BitVec 3) (m : Md) (s : State) :
    Host.Outcome State Fault Refusal := plainCopy (.cpys put i d a sh m) 1 put true (BitVec.allOnes 64) i d a sh m [] s

/-- CPYM (R314): the far bytes that the mask register enables; its addresses and RUN are whole lines. -/
def execCpym (i : BitVec 4) (d a : RegField) (sh : BitVec 3) (m : Modifier) (s : State) :
    Host.Outcome State Fault Refusal :=
  let g := s.cur.g
  let lo := (sVal s a).toNat
  let fa := (sVal s d).toNat
  let extra := if lo % 64 ≠ 0 then [slotFault s 0x0A 1 (lo % 2 ^ 48) 0]
    else if fa % 64 ≠ 0 then [slotFault s 0x0A 1 (fa % 2 ^ 48) 0]
    else if shRun s g sh.toNat % 64 ≠ 0 then [slotFault s 0x0A 6 0 0] else []
  plainCopy (.cpym i d a sh m) 2 true false (mReg (coreOf s g) (m.xf.toNat % 8)) i d a sh (some m) extra s

/-! ### CPYT (R156, R157, R315) -/

/-- Pieces of the footer have local offsets from 2^21, which no slice has. -/
def footerOff (j : Nat) : Nat := 2 ^ 21 + 64 * j

/-- A tile's pieces: its lines, and the nine lines of its footer, at the record's end or at the far core's margin storage. -/
def tilePieces (fmt lo fa : Nat) : Pieces :=
  let n := tileBytes fmt / 64
  (List.range n).map (fun k => (((lo + 64 * k : Nat) : Int), ((fa + 64 * k : Nat) : Int), 64))
def footerPieces (fmt fa home : Nat) : List (Nat × Nat × Nat × Nat) :=
  let n := tileBytes fmt
  (List.range 9).map (fun j =>
    if isStack home then (footerOff j, fa + n + 64 * j, 0, 64) else (footerOff j, fa, home * 2 ^ 30 + footerOff j, 64))

/-- The transfer of a CPYT, with its footer. -/
def tileXfer (s : State) (g k : Nat) (put stg : Bool) (e fmt : Nat) (r : Word) (lo fa c : Nat) : Xfer :=
  let ps := tilePieces fmt lo fa
  let x := routed s g { newXfer s g 3 k put stg r with entry := e, fmt := fmt } r fa c ps
  let foot := (footerPieces fmt fa x.dst).map (fun p =>
    if isStack x.dst then (p.1, p.2.1, translate s g p.2.1, p.2.2.2) else p)
  { x with pieces := x.pieces ++ foot, land := landingOf s g x.dst r (!put) c (ps.length + 9) x.pace }

/-- CPYT. -/
def execCpyt (put : Bool) (i : BitVec 4) (d a : RegField) (m : Modifier) (s : State) :
    Host.Outcome State Fault Refusal :=
  let g := s.cur.g
  let r := routeReg s g i.toNat
  let lo := (sVal s a).toNat
  let fa := (sVal s d).toNat
  let e := m.xf.toNat % 64
  let fmt := m.xf.toNat / 64 % 16
  let stg := m.xf.getLsbD 19
  let c := cnow s g
  let stack := decide (rtKind r = 1)
  let tile := tilePieces fmt lo fa
  let ps := if stack then tile ++ ((List.range 9).map (fun j =>
    (((0 : Nat) : Int), ((fa + tileBytes fmt + 64 * j : Nat) : Int), 64)) : Pieces) else tile
  let extra := if lo % 256 ≠ 0 then [slotFault s 0x0A 1 (lo % 2 ^ 48) 0]
    else if fa % (if stack then 64 else 256) ≠ 0 then [slotFault s 0x0A 1 (fa % 2 ^ 48) 0] else []
  let ins : Instr := .cpyt put i d a m
  let guard := guardOf s m
  let x := tileXfer s g 0 put stg e fmt r lo fa c
  let range := localFaults s lo tile
  let fs := extra ++ capacityFaults s g ++ routeFaults s r ++ farRange s fa ++ range
  let all := operandFaults s ins ++ deadFaults s ++ (if guard then
    tableFaults s g ++ (if fs = [] then farFaults s g (if put then 2 else 1) r true fa ps
      else ofExtent (extentOf (x.pieces.map (·.2.2.2)) 0) fs) ++
      (if extra ++ range = [] then firstPortFaults s g x c else []) else [])
  engineOp all (fun k s =>
    let s := countOperands s ins
    if guard then startXfer s g (tileXfer s g k put stg e fmt r lo fa c) c (rtPath r) (!put) else s) (lookup s guard)

/-! ### CODE (R99, R316) -/

/-- Targets of a CODE: core, and cycles its landing follows the issuer's data (R99). -/
def codeTargets (s : State) (g v : Nat) (gang : Option Gang) : List (Nat × Nat) :=
  match v, gang with
  | 1, some x =>
    let far := x.members.foldl (fun a m => max a (intraCores s g m.1)) 0
    x.members.map (fun m => (m.1, far + m.2))
  | 2, _ =>
    let l := g / 512 * 512 + layerOf g * 48
    (((List.range 48).map (l + ·)).filter (goodCore s)).map (fun c => (c, scopeDiameter s g 2))
  | _, _ => [(g, 0)]

/-- CODE: lines of main memory are read LOUT before they are due, and land in every target's code window. -/
def execCode (v : BitVec 2) (i : BitVec 4) (d a : RegField) (sh : BitVec 3) (m : Md) (s : State) :
    Host.Outcome State Fault Refusal :=
  let g := s.cur.g
  let ins : Instr := .code v i d a sh m
  let guard := guardMd s m
  let r := routeReg s g i.toNat
  let o := (sVal s a).toNat
  let fa := (sVal s d).toNat
  let run := shRun s g sh.toNat
  let c := cnow s g
  let gang := gangOf s g (xfOf m % 16)
  let ps : Pieces := (List.range (run / 64)).map (fun k => (((0 : Nat) : Int), ((fa + 64 * k : Nat) : Int), 64))
  let make (s : State) (k : Nat) : Xfer :=
    routed s g { newXfer s g 4 k false (decide (xfOf m / 2 ^ 19 % 2 = 1)) r with entry := o } r fa c ps
  let fs := capacityFaults s g ++ routeFaults s r ++
    (if run % 64 ≠ 0 ∨ run < 64 ∨ 65536 < run ∨ (v.toNat = 1 ∧ gang.isNone) then [slotFault s 0x0A 6 0 0] else []) ++
    (if o % 64 ≠ 0 ∨ 2 ^ 16 < o + run then [slotFault s 0x0A 1 (o % 2 ^ 48) 0]
      else if fa % 64 ≠ 0 ∨ 2 ^ 48 ≤ fa then [slotFault s 0x0A 1 (fa % 2 ^ 48) 0] else [])
  let far := farFaults s g 8 r true fa ps
  let away := if isStack (make s 0).dst then [] else
    [pieceFault s 0x0D 5 (vaOf fa) 0 run (BitVec.ofNat 64
      (8 + ((coveringEntry s g fa).map (fun (e : Nat × BitVec 128) => e.1)).getD 0xFFF * 16))]
  let all := operandFaults s ins ++ deadFaults s ++ (if guard then
    tableFaults s g ++ (if fs ≠ [] then ofExtent run fs else if far ≠ [] then far else away) else [])
  engineOp all (fun k s =>
    let s := countOperands s ins
    if guard then
      let x := make s k
      let ts := codeTargets s g v.toNat gang
      let last := ts.foldl (fun m t => max m (x.land + t.2)) x.land
      let s := noteLand (addXfer (noteOp (countLookup s g) g last) x) g x.src.serial last false
      let own := some x.src
      let n := ps.length
      let s := (List.range n).foldl (fun s k =>
        let t := x.land - (n - 1) * x.pace + k * x.pace
        let s := postAsk s g own x.id k (c + k * x.pace) (t - x.lout)
        ts.foldl (fun s y => postSub s (clkOf s g) (t + y.2) 10 8 own (.instr (.codeFillLanding y.1 x.id k))) s) s
      let mine := ((ts.find? (fun t => t.1 = g)).map (·.2)).getD 0
      postSub s (clkOf s g) (x.land + mine) 10 9 own (.xferLand x.id)
    else s) (lookup s guard)

/-! ### HCPY (R178 to R181, R317) -/

/-- Bytes of the host window of a partition, and the host bus address of its first (R335). -/
def windowSize (s : State) (p : Nat) : Nat := fieldOf (tabGet zeroAt (partOf s p).hostMap 1) 12 28 * 4096
def windowBase (s : State) (p : Nat) : Nat := (tabGet zeroAt (partOf s p).hostMap 0).toNat / 4096 * 4096

/-- Subclasses 3 and 4 of XLATE for the host window. -/
def windowSub (s : State) (g ga : Nat) : Option Nat :=
  if spaceOf ga ≠ 2 then some 3
  else if ga / 2 ^ 39 % 64 ≠ g / 512 then some 4
  else
    match partOfCore s g with
    | some p => if ga % 2 ^ 39 < windowSize s p then none else some 4
    | none => some 4

/-- XLATE of the host side of an HCPY; one of no bytes counts as a write of its address (R181, R409). -/
def windowFaults (s : State) (g need fa : Nat) (ps : Pieces) : List FaultRec :=
  let qs := if ps = [] then [((0 : Int), (fa : Int), 0)] else ps
  let hit := (List.range qs.length).findSome? (fun k =>
    let va := vaOf (qs.getD k (0, 0, 0)).2.1
    (xlateAt s g va need (windowSub s g)).map (fun e => (k, va, e)))
  match hit with
  | some (k, va, e) => [pieceFault s 0x0D e.1 va k (extentOf (qs.map (·.2.2)) k) (BitVec.ofNat 64 e.2)]
  | none => []

/-- Host bus address of a byte of the window. -/
def busAddr (s : State) (g ga : Nat) : Nat :=
  match partOfCore s g with
  | some p => windowBase s p + ga % 2 ^ 39
  | none => ga % 2 ^ 39

/-- Sectors of a transfer (R180): distinct 32-byte blocks of host addresses it moves. -/
def sectorsOf (s : State) (g : Nat) (ps : List (Nat × Nat × Nat × Nat)) : Nat :=
  (dedup (ps.flatMap (fun p => (List.range p.2.2.2).map (fun i => busAddr s g (p.2.2.1 + i) / 32)))).length

/-- HCPY: the slots that the rolled-back instance issued act as guard-false (R365). -/
def execHcpy (put : Bool) (ch : BitVec 2) (d a : RegField) (sh : BitVec 3) (m : Md) (s : State) :
    Host.Outcome State Fault Refusal :=
  let g := s.cur.g
  let ins : Instr := .hcpy put ch d a sh m
  let again := decide ((coreOf s g).pass.hcpys < (coreOf s g).pass.hcpySkip)
  let guard := guardMd s m
  let act := guard && !again
  let lo := (sVal s a).toNat
  let fa := (sVal s d).toNat
  let ps := piecesOf s g sh.toNat true lo fa
  let fs := capacityFaults s g ++ shapeFaults s g sh.toNat ps ++ farRange s fa ++ localFaults s lo ps
  let all := operandFaults s ins ++ deadFaults s ++ (if act then
    tableFaults s g ++ (if fs = [] then windowFaults s g (if put ∨ ps = [] then 2 else 1) fa ps
      else ofExtent (extentOf (ps.map (·.2.2)) 0) fs) else [])
  engineOp all (fun k s =>
    let s := countOperands s ins
    let s := if guard then
      modCore s g (fun c => { c with pass := { c.pass with hcpys := c.pass.hcpys + 1 } }) else s
    if act then
      let s := countLookup s g
      let qs := ps.map (fun p => let va := vaOf p.2.1; (p.1.toNat, va, translate s g va, p.2.2))
      let x := { newXfer s g 5 k put false 0 with
        chan := ch.toNat, pieces := qs, sectors := sectorsOf s g qs
        land := s.now + (if put then 0 else Config.hostLatency s.fresh) }
      let s := addXfer { s with fresh := s.fresh + 1 } x
      postSub s (clkOf s g) (cnow s g) 24 (g % 512) none (.perform g (.hcpy x.id))
    else s) (lookup s act)

/-! ### The stage counter (R318, R319) -/

def execStageRd (d : RegField) (m : Md) (s : State) : Host.Outcome State Fault Refusal :=
  let ins : Instr := .stageRd d m
  engineOp (operandFaults s ins ++ deadFaults s) (fun _ s =>
    let s := countOperands s ins
    if guardMd s m then scalarResult s d 0 1 ((coreOf s s.cur.g).live.stage.zeroExtend 64) else s) s

def execStageSet (a : RegField) (m : Md) (s : State) : Host.Outcome State Fault Refusal :=
  let ins : Instr := .stageSet a m
  engineOp (operandFaults s ins ++ deadFaults s) (fun _ s =>
    let s := countOperands s ins
    if guardMd s m then perform s (.stageSet ((sVal s a).truncate 32)) else s) s

/-! ### Bank ALUs (R158, R159, R320 to R322) -/

/-- New value of `w` bytes: 0 add, 1 and, 2 or, 3 xor, 4 min, 5 max, 6 minn, 7 maxn, 8 fadd, 9 swap, 10 cas. -/
def aluOp (op w : Nat) (old x y : Word) : Word :=
  let b := 8 * w
  let o := old.toNat % 2 ^ b
  let v := x.toNat % 2 ^ b
  BitVec.ofNat 64 (match op with
    | 0 => (o + v) % 2 ^ b
    | 1 => o &&& v
    | 2 => o ||| v
    | 3 => o ^^^ v
    | 4 => if signed b o ≤ signed b v then o else v
    | 5 => if signed b v ≤ signed b o then o else v
    | 6 => min o v
    | 7 => max o v
    | 8 => faddC (if w = 4 then .f32 else .f64) o v
    | 9 => v
    | _ => if o = y.toNat % 2 ^ b then v else o)

/-- The `w` bytes at an offset of a slice, as a word. -/
def sliceVal (s : State) (g off w : Nat) : Word := BitVec.ofNat 64 (leNat (sliceBytes s g off w))

/-- A local bank-ALU operation: reads now, writes in phase 1 two cycles on; `dest` takes the old value after four. `order` holds
the order, the scope and the failure order of a cas (R320); an acquire goes with a failed comparison only where that says
so (R176). -/
def localAlu (ins : Instr) (m : Md) (off : Nat) (w op : Nat) (x y : Word) (dest : Option RegField) (order : Nat)
    (s : State) : Host.Outcome State Fault Refusal :=
  let g := s.cur.g
  let c := cnow s g
  let offs := (List.range w).map (off + ·)
  let range := offsetFaults s [(off : Int)] w w
  let ports := sameBundleFaults s g off w ++ readPortFaults s g [off / 64] c true ++ loadFaults s g offs ++
    (writePortFaults s g offs (c + 2)).filter (fun r => r.sub ≠ 8) ++ budgetFaults s offs
  let guard := guardMd s m
  engineOp (operandFaults s ins ++ (if guard then (if range = [] then ports else range) else [])) (fun _ s =>
    let s := countOperands s ins
    if guard then
      let old := sliceVal s g off w
      let src := srcNow s g 0 0xFFFF
      let b : BOp := { id := s.seq, g := g, off := off, w := w, op := op, x := x, y := y, new := aluOp op w old x y
                       old := old, bad := false, tag := ctxTag s g, src := some src, inst := none, merge := none
                       back := none, ref := none }
      let fails := decide (op = 10) && decide (old.toNat ≠ y.toNat % 2 ^ (8 * w)) && decide (order / 32 % 2 = 0)
      let s := orderDrains s g (if fails then order % 4 / 2 * 2 else order % 4) (order / 4 % 8) true src
      let s := countLoad s g offs
      let s := reserve (reserveRead s g [off / 64] c) g 3 (bankOf off) (off / 64) c
      let s := reserve s g 8 (bankOf off) (off * 16 + w) (c + 2)
      let s := noteLand s g src.serial (c + 2) false
      let s := countLines { s with bops := s.bops ++ [b], seq := s.seq + 1 } offs
      let s := postAt s g (c + 2) 10 (some src) (.instr (.bankAluWrite b.id))
      match dest with
      | some d => if d.toNat < 32 then landResult s (c + 4) 3 (.sreg d.toNat old) else s
      | none => s
    else s) s

/-- ATOM of the integer operations (R320). -/
def execAtomInt (op : BitVec 3) (d a b : RegField) (w : Bool) (m : Md) (s : State) : Host.Outcome State Fault Refusal :=
  localAlu (.atomInt op d a b w m) m (sVal s a).toNat (if w then 8 else 4) op.toNat (sVal s b) 0 (some d) (xfOf m) s

/-- ATOM fadd, swap and cas (R320). -/
def execAtomOther (op : BitVec 2) (d a b : RegField) (w : Bool) (m : Md) (s : State) : Host.Outcome State Fault Refusal :=
  localAlu (.atomOther op d a b w m) m (sVal s a).toNat (if w then 8 else 4) (8 + op.toNat) (sVal s b) (sVal s d) (some d)
    (xfOf m) s

/-- BARA (R321). -/
def execBara (n : BitVec 3) (a : RegField) (m : Md) (s : State) : Host.Outcome State Fault Refusal :=
  localAlu (.bara n a m) m (sVal s a).toNat 4 0 (BitVec.ofNat 64 (n.toNat + 1)) 0 none 0 s

end Sys2Proof.Machine
end

