-- ==== Sys2Proof/Machine/Quay.lean ====
section
/-! DEFINITION. The Q slot at issue: sends, broadcasts, remote loads, stores, atomics, reductions and DRAIN (11, R323 to
R330). -/

namespace Sys2Proof.Machine

/-- DEP (R196, R311). -/
def depOf (m : Md) : Nat := xfOf m % 2 ^ 16

/-- The width that SIZE codes. -/
def farWidth (z : BitVec 2) : Nat := 2 ^ z.toNat

/-! ### SEND, RECV, BCST (R326, R327) -/

/-- Faults of a local source of whole lines: OPERAND 1, and 6 for RUN. -/
def lineFaults (s : State) (g n lo : Nat) : List FaultRec :=
  (if lo % 64 ≠ 0 then [slotFault s 0x0A 1 (lo % 2 ^ 48) 0] else []) ++
  (if shRun s g n % 64 ≠ 0 ∨ 65536 < shRun s g n then [slotFault s 0x0A 6 0 0] else [])

/-- The local lines of a SEND or BCST; their place at the home follows from the slot or offset. -/
def sourceLines (s : State) (g n lo home : Nat) : List (Nat × Nat × Nat × Nat) :=
  (List.range (shRun s g n / 64)).map (fun k => (lo + 64 * k, lo + 64 * k, home * 2 ^ 30 + 2 ^ 21, 64))

/-- The reads of lines and their landing, of a transfer to homes that no far address names. -/
def startLines (s : State) (g : Nat) (x : Xfer) (d path : Nat) (homes : List Nat) : State :=
  let s := noteOp s g x.land
  let s := homes.foldl (fun s h =>
    noteStaged (noteWrite s g h path) g h x.pieces.length x.lout x.lback x.src.cmd x.path) s
  let s := noteLand (addXfer s x) g x.src.serial x.land false
  let n := x.pieces.length
  let own := some x.src
  let clash := (List.range n).findSome? (fun k =>
    let off := (x.pieces.getD k (0, 0, 0, 0)).1
    (portClash s g off (d + k * x.pace) true).map (fun c => (k, c)))
  let m := (clash.map (·.1)).getD n
  let s := match clash with
    | some c => postAt s g (d + c.1 * x.pace) 20 own (.pieceBank x.id c.1 c.2.1 c.2.2)
    | none => s
  let s := (List.range m).foldl (fun s k =>
    let s := takePort s g (x.pieces.getD k (0, 0, 0, 0)).1 (d + k * x.pace) true
    postAt s g (d + k * x.pace) 20 own (.instr (.pieceTransfer x.id k true))) s
  postSub s (clkOf s g) x.land 10 9 own (.xferLand x.id)

/-- The port of the first line, when it is read in the issue cycle. -/
def firstLineFaults (s : State) (g : Nat) (x : Xfer) (d : Nat) : List FaultRec :=
  match x.pieces with
  | p :: _ =>
    if d = cnow s g then
      match portClash s g p.1 d true with
      | some c => [pieceFault s 0x09 c.1 p.2.1 0 (64 * x.pieces.length) (BitVec.ofNat 64 c.2)]
      | none => []
    else []
  | [] => []

/-- SEND. -/
def execSend (i n : BitVec 4) (a : RegField) (sh : BitVec 3) (m : Md) (s : State) : Host.Outcome State Fault Refusal :=
  let g := s.cur.g
  let ins : Instr := .send i n a sh m
  let guard := guardMd s m
  let r := routeReg s g i.toNat
  let lo := (sVal s a).toNat
  let d := cnow s g + depOf m
  let home := routeHome r
  let qs := sourceLines s g sh.toNat lo home
  let make (s : State) (k : Nat) : Xfer :=
    let x := newXfer s g 6 k true false r
    { x with entry := n.toNat, dst := home, pieces := qs, land := d + rtLout r + (qs.length - 1) * x.pace }
  let fs := capacityFaults s g ++
    (if rtValid r = false ∨ rtKind r ≠ 0 ∨ 384 ≤ rtNode r then [slotFault s 0x0A 6 0 0] else []) ++
    lineFaults s g sh.toNat lo ++ localFaults s lo (qs.map (fun p => ((p.1 : Int), (p.2.1 : Int), 64)))
  engineOp (operandFaults s ins ++ deadFaults s ++ (if guard then
    (if fs = [] then firstLineFaults s g (make s 0) d else ofExtent (64 * qs.length) fs) else [])) (fun k s =>
      let s := countOperands s ins
      if guard then startLines s g (make s k) d (rtPath r) [home] else s) s

/-- RECV: the slot is armed in phase 3. -/
def execRecv (n : BitVec 4) (a : RegField) (m : Md) (s : State) : Host.Outcome State Fault Refusal :=
  let ins : Instr := .recv n a m
  let base := (sVal s a).toNat
  let guard := guardMd s m
  let fs := if guard ∧ (base % 64 ≠ 0 ∨ 2 ^ 21 ≤ base) then [slotFault s 0x0A 1 (base % 2 ^ 48) 0] else []
  engineOp (operandFaults s ins ++ deadFaults s ++ fs) (fun _ s =>
    let s := countOperands s ins
    if guard then perform s (.recv n.toNat base) else s) s

/-- Slot `n` armed with a base: bit 63 marks it armed. -/
def armSlot (c : Core) (n base : Nat) : Core :=
  { c with recv := tabSet zeroAt c.recv n (BitVec.ofNat 64 (base + 2 ^ 63)) }

/-- Good cores of a die layer other than the issuer (R327). -/
def castTargets (s : State) (g : Nat) (r : Word) : List Nat :=
  let l := rtPkg r * 512 + rtNode r * 48
  ((List.range 48).map (l + ·)).filter (fun h => goodCore s h && decide (h ≠ g))

/-- BCST. -/
def execBcst (i : BitVec 4) (d a : RegField) (sh : BitVec 3) (m : Md) (s : State) : Host.Outcome State Fault Refusal :=
  let g := s.cur.g
  let ins : Instr := .bcst i d a sh m
  let guard := guardMd s m
  let r := routeReg s g i.toNat
  let lo := (sVal s a).toNat
  let dst := (sVal s d).toNat
  let dep := cnow s g + depOf m
  let qs := sourceLines s g sh.toNat lo 0
  let make (s : State) (k : Nat) : Xfer :=
    let x := newXfer s g 7 k true false r
    { x with entry := dst, dst := rtPkg r * 8 + rtNode r, pieces := qs, land := dep + rtLout r + (qs.length - 1) * x.pace }
  let fs := capacityFaults s g ++
    (if rtValid r = false ∨ rtKind r ≠ 2 ∨ 8 ≤ rtNode r then [slotFault s 0x0A 6 0 0] else []) ++
    lineFaults s g sh.toNat lo ++ localFaults s lo (qs.map (fun p => ((p.1 : Int), (p.2.1 : Int), 64))) ++
    (if dst % 64 ≠ 0 ∨ 2 ^ 21 < dst + 64 * qs.length then [slotFault s 0x0A 1 (dst % 2 ^ 48) 0] else [])
  engineOp (operandFaults s ins ++ deadFaults s ++ (if guard then
    (if fs = [] then firstLineFaults s g (make s 0) dep else ofExtent (64 * qs.length) fs) else [])) (fun k s =>
      let s := countOperands s ins
      if guard then startLines s g (make s k) dep (rtPath r) (castTargets s g r) else s) s

/-! ### Remote loads, stores and atomics (R323 to R325) -/

/-- Faults of one far unit of `w` bytes at `va`: OPERAND 3, 6 and 1, then XLATE; with `slice`, its home is no stack. -/
def unitFaults (s : State) (g need : Nat) (r : Word) (va w : Nat) (slice : Bool) : List FaultRec :=
  let fs := capacityFaults s g ++ routeFaults s r ++
    (if 2 ^ 48 ≤ va ∨ va % w ≠ 0 then [slotFault s 0x0A 1 (va % 2 ^ 48) 0] else [])
  let far := farFaults s g need r false va [(0, (va : Int), w)]
  let away := if slice && isStack (homeOf (translate s g va)) then
    [pieceFault s 0x0D 5 (vaOf va) 0 w (BitVec.ofNat 64
      (need + ((coveringEntry s g va).map (fun (e : Nat × BitVec 128) => e.1)).getD 0xFFF * 16))] else []
  tableFaults s g ++ (if fs ≠ [] then ofExtent w fs else if far ≠ [] then far else away)

/-- A flit of the operation issued now, to home `h`; `wr`: a write or RMW. -/
def unitFlit (s : State) (g h : Nat) (r : Word) (d land : Nat) (src : Src) (wr : Bool) (x : Load) : Flit :=
  let inst := (coreOf s g).pass.id
  { newFlit s g h inst d land (backOf g h r) (if h = g then [] else pathOf s g (rtPath r)) x with
    ref := some ⟨g, inst, opNumber s g, src.cmd, 0, h, wr⟩, src := some src }

/-- The number of a result to come, which is kept with its landing; TIMING is due at the landing unless it comes (R418). One that
meets another landing in its register, or a full port, takes a free value (R85, R89). -/
def waitResult (s : State) (g land reg : Nat) (src : Src) : State :=
  let sq := s.seq
  let l : Landing := .sreg reg 0
  let free := decide (reg < 32) && landingClash s g land l
  let s := if free then freeFar s g land l else s
  let s := modCore { s with seq := s.seq + 1 } g (fun c => { c with
    waits := c.waits ++ [(sq, src, land, if free then reg + 128 else reg)] })
  let s := if reg < 32 then reserve s g 5 0 0 land else s
  noteLand (postAt s g land 15 (some src) (.instr (.timing g sq))) g src.serial land (decide (reg < 32))

/-- RLD. -/
def execRld (z : BitVec 2) (i : BitVec 4) (d a : RegField) (ord : BitVec 2) (m : Md) (s : State) :
    Host.Outcome State Fault Refusal :=
  let g := s.cur.g
  let ins : Instr := .rld z i d a ord m
  let guard := guardMd s m
  let r := routeReg s g i.toNat
  let va := (sVal s a).toNat
  let w := farWidth z
  let dep := cnow s g + depOf m
  engineOp (operandFaults s ins ++ deadFaults s ++ (if guard then unitFaults s g 1 r va w false else [])) (fun k s =>
    let s := countOperands s ins
    if guard then
      let ga := translate s g va
      let h := homeOf ga
      let at_ := if isStack h then dep + rtLout r + stackBound s h 0 else dep + outOf g h r
      let land := if isStack h then at_ + rtLout r else at_ + 1 + backOf g h r
      let src := srcNow s g 3 k
      let s := orderDrains (noteOp (countLookup s g) g land) g ord.toNat (xfOf m / 2 ^ 16 % 8) true src
      let sq := s.seq
      let s := waitResult s g land d.toNat src
      launchFlit s { unitFlit s g h r dep at_ src false (.readReq ga w sq) with
        lback := if isStack h then rtLout r else backOf g h r }
    else s) (lookup s guard)

/-- RST. -/
def execRst (z : BitVec 2) (i : BitVec 4) (d a : RegField) (ord : BitVec 2) (m : Md) (s : State) :
    Host.Outcome State Fault Refusal :=
  let g := s.cur.g
  let ins : Instr := .rst z i d a ord m
  let guard := guardMd s m
  let r := routeReg s g i.toNat
  let va := (sVal s a).toNat
  let w := farWidth z
  let dep := cnow s g + depOf m
  engineOp (operandFaults s ins ++ deadFaults s ++ (if guard then unitFaults s g 2 r va w false else [])) (fun k s =>
    let s := countOperands s ins
    if guard then
      let ga := translate s g va
      let h := homeOf ga
      let land := if isStack h then dep + 2 * rtLout r + stackBound s h 0 else dep + outOf g h r
      let base := if isStack h then ga else ga % 2 ^ 30
      let ws := (List.range w).map (fun j => (base + j, byteOf (sVal s d).toNat j))
      let src := srcNow s g 3 k
      let f := unitFlit s g h r dep land src true (.write ws [] none)
      let s := orderDrains (noteOp (countLookup s g) g land) g ord.toNat (xfOf m / 2 ^ 16 % 8) true src
      let s := noteWrite s g h (if h = g then 256 else rtPath r)
      let s := if isStack h then s else noteStaged s g h 1 (outOf g h r) f.lback k f.path
      launchFlit (noteLand s g src.serial land false) { f with id := s.seq, lead := s.seq }
    else s) (lookup s guard)

/-- RATOM: operation `op` as `aluOp` numbers it, on `w` bytes; `nr`: no result; `facq`: the failure order of a
cas is acquire. -/
def ratomOp (ins : Instr) (op : Nat) (i : BitVec 4) (d a : RegField) (ord : Nat) (nr facq : Bool) (m : Md)
    (s : State) : Host.Outcome State Fault Refusal :=
  let g := s.cur.g
  let guard := guardMd s m
  let r := routeReg s g i.toNat
  let va := (sVal s a).toNat
  let w := if xfOf m / 2 ^ 19 % 2 = 1 then 8 else 4
  let dep := cnow s g + depOf m
  let y := if op = 10 then sReg (coreOf s g) (d.toNat + 1) else 0
  engineOp (operandFaults s ins ++ deadFaults s ++ (if guard then unitFaults s g 4 r va w true else [])) (fun k s =>
    let s := countOperands s ins
    if guard then
      let ga := translate s g va
      let h := homeOf ga
      let land := dep + outOf g h r
      let back := land + 2 + backOf g h r
      let src := srcNow s g 3 k
      let s := orderDrains (noteOp (countLookup s g) g (if nr then land + 2 else back)) g ord (xfOf m / 2 ^ 16 % 8)
        (decide (op ≠ 10) || facq) src
      let s := noteWrite s g h (if h = g then 256 else rtPath r)
      let path := if h = g then [] else pathOf s g (rtPath r)
      let s := noteStaged s g h 1 (outOf g h r) (backOf g h r) k path
      let sq := s.seq
      let s := if nr then noteLand s g src.serial (land + 2) false else waitResult s g back d.toNat src
      launchFlit s (unitFlit s g h r dep land src true (.atom (ga % 2 ^ 30) op w (sVal s d) y (if nr then none else some sq)))
    else s) (lookup s guard)

def execRatomInt (op : BitVec 3) (i : BitVec 4) (d a : RegField) (opt : BitVec 3) (m : Md) (s : State) :
    Host.Outcome State Fault Refusal :=
  ratomOp (.ratomInt op i d a opt m) op.toNat i d a (opt.toNat % 4) (opt.getLsbD 2) false m s

def execRatomOther (op : BitVec 2) (i : BitVec 4) (d a : RegField) (opt : BitVec 3) (m : Md) (s : State) :
    Host.Outcome State Fault Refusal :=
  ratomOp (.ratomOther op i d a opt m) (8 + op.toNat) i d a (opt.toNat % 4) (opt.getLsbD 2 && decide (op.toNat ≠ 2))
    (opt.getLsbD 2) m s

/-! ### Reductions (R328, R329) -/

/-- Bank-ALU operation and width of an RRED. -/
def redAlu (v : Nat) : Nat × Nat := match v with
  | 0 => (0, 4) | 1 => (0, 8) | 2 => (8, 4) | 3 => (8, 8) | 4 => (4, 4) | 5 => (5, 4) | 6 => (6, 4) | _ => (7, 4)

/-- Does the buffer hold the key? -/
def redHas (c : Core) (route line var : Nat) : Bool :=
  c.live.red.any (fun l => l.route = route && l.line = line && l.var = var)

/-- RRED: the merge into the buffer takes place in phase 3. -/
def execRred (op : BitVec 3) (i : BitVec 4) (d a : RegField) (m : Md) (s : State) : Host.Outcome State Fault Refusal :=
  let g := s.cur.g
  let c := coreOf s g
  let ins : Instr := .rred op i d a m
  let guard := guardMd s m
  let r := routeReg s g i.toNat
  let va := (sVal s a).toNat
  let w := (redAlu op.toNat).2
  let x := translate s g va
  let full := if 32 ≤ c.live.red.length ∧ redHas c i.toNat (x / 64) op.toNat = false then [slotFault s 0x0A 3 0 0] else []
  let fs := unitFaults s g 4 r va w true
  engineOp (operandFaults s ins ++ deadFaults s ++ (if guard then (if fs = [] then ofExtent w full else fs) else [])) (fun _ s =>
    let s := countOperands s ins
    if guard then
      perform (countLookup s g) (.redMerge i.toNat (x / 64) op.toNat (x % 64 / w)
        (BitVec.ofNat 64 ((sVal s d).toNat % 2 ^ (8 * w))))
    else s) (lookup s guard)

/-- An element joins a line: it is the first, or it is merged (R159). -/
def redElem (op w e : Nat) (v : Word) : List (Nat × Word) → List (Nat × Word)
  | [] => [(e, v)]
  | (k, x) :: t =>
    if e < k then (e, v) :: (k, x) :: t
    else if e = k then (k, aluOp op w x v 0) :: t
    else (k, x) :: redElem op w e v t

/-- Phase 3 of an RRED. -/
def redMergeNow (c : Core) (route line var e : Nat) (v : Word) : Core :=
  let o := redAlu var
  let red := if redHas c route line var then
      c.live.red.map (fun l => if l.route = route ∧ l.line = line ∧ l.var = var then
        { l with elems := redElem o.1 o.2 e v l.elems } else l)
    else c.live.red ++ [⟨route, line, var, [(e, v)]⟩]
  { c with live := { c.live with red := red } }

/-- The released lines leave the buffer. -/
def redReleaseNow (c : Core) (all : Bool) (route : Nat) : Core :=
  { c with live := { c.live with red := c.live.red.filter (fun l => !(all || decide (l.route = route))) } }

/-- A released line departs at `d`. -/
def releaseLine (g : Nat) (d : Nat) (src : Src) (s : State) (l : RedLine) : State :=
  let r := routeReg s g l.route
  let h := l.line / 2 ^ 24
  let o := redAlu l.var
  let elems := l.elems.map (fun e => (l.line % 2 ^ 24 * 64 + e.1 * o.2, e.2))
  let f := unitFlit s g h r d (d + outOf g h r) src true (.merge o.1 o.2 elems)
  let s := noteWrite s g h (if h = g then 256 else rtPath r)
  launchFlit (noteStaged s g h elems.length (outOf g h r) f.lback src.cmd f.path) f

/-- RREL and RREL.all, which take no OPERAND 3 (R379). -/
def release (ins : Instr) (all : Bool) (i : Nat) (m : Md) (s : State) : Host.Outcome State Fault Refusal :=
  let g := s.cur.g
  let guard := guardMd s m
  let ls := (coreOf s g).live.red.filter (fun l => all || decide (l.route = i))
  let bad := (!all && !rtValid (routeReg s g i)) ||
    ls.any (fun l => decide (l.line / 2 ^ 24 ≠ g) && !rtValid (routeReg s g l.route))
  let fs := if guard ∧ bad = true then [slotFault s 0x0A 6 0 0] else []
  engineOp (operandFaults s ins ++ deadFaults s ++ fs) (fun k s =>
    let s := countOperands s ins
    if guard then
      let d := cnow s g + depOf m
      let p := unitPace s g 5
      let src := srcNow s g 3 k
      let n := ls.length
      let last := (List.range n).foldl (fun t j =>
        let l := ls.getD j ⟨0, 0, 0, []⟩
        max t (d + j * p + outOf g (l.line / 2 ^ 24) (routeReg s g l.route) + l.elems.length + 1)) d
      let s := noteLand (noteOp s g last) g src.serial last false
      let s := (List.range n).foldl (fun s j => releaseLine g (d + j * p) src s (ls.getD j ⟨0, 0, 0, []⟩)) s
      perform s (.redRelease all i)
    else s) s

def execRrel (i : BitVec 4) (m : Md) (s : State) : Host.Outcome State Fault Refusal := release (.rrel i m) false i.toNat m s
def execRrelAll (m : Md) (s : State) : Host.Outcome State Fault Refusal := release (.rrelAll m) true 0 m s

/-! ### DRAIN (R174, R330, R420) -/

/-- DRAIN: it is in flight in its lighter until its completion (R311). -/
def execDrain (d : RegField) (sc : BitVec 3) (m : Md) (s : State) : Host.Outcome State Fault Refusal :=
  let g := s.cur.g
  let ins : Instr := .drain d sc m
  engineOp (operandFaults s ins ++ deadFaults s) (fun k s =>
    let s := countOperands s ins
    if guardMd s m then
      drainFrom (noteOp s g (cnow s g + fenceCost s g sc.toNat)) g (16 * cnow s g) sc.toNat d.toNat (srcNow s g 0 k)
    else s) s

end Sys2Proof.Machine
end

