-- ==== Sys2Proof/Machine/Fabric.lean ====
section
/-! DEFINITION. Flits on links, their losses and notices (17, R414 to R417; 16, R406), landings at a home and the ports they
use (15, R371, R378), landing zones, commits and recalls (06, R170 to R173; 15, R362 to R364; 17, R424, R425), and what
DRAIN reports (17, R419 to R421). -/

namespace Sys2Proof.Machine

/-! ### Flits -/

def flitOf (s : State) (id : Nat) : Option Flit := s.flits.find? (fun f => f.id = id)
def modFlit (s : State) (id : Nat) (f : Flit → Flit) : State :=
  { s with flits := s.flits.map (fun x => if x.id = id then f x else x) }
/-- A flit and those that share its journey (R327). -/
def modJourney (s : State) (id : Nat) (f : Flit → Flit) : State :=
  { s with flits := s.flits.map (fun x => if x.lead = id then f x else x) }
def dropFlit (s : State) (id : Nat) : State := { s with flits := s.flits.filter (fun f => f.id ≠ id) }

/-- The landing events of a flit. -/
def landsFlit (id : Nat) : Ev → Bool
  | .instr (.stagedWriteLanding f) => f = id
  | .instr (.remoteRead f) => f = id
  | .instr (.ratomLanding f) => f = id
  | .instr (.reductionMerge f _) => f = id
  | .instr (.commitFlitLanding f) => f = id
  | .instr (.recallFlitLanding f) => f = id
  | .reply f => f = id
  | .streamArrive f => f = id
  | _ => false

/-- A poisoned or altered copy of bytes, by payload bit (R406, R414). -/
def flipByte (bit : Nat) (bs : List Byte) : List Byte :=
  (List.range bs.length).map (fun i => let b := bs.getD i 0; if i = bit / 8 then b ^^^ (1#8 <<< (bit % 8)) else b)

/-- An instance with one bit of one of its fields flipped, as `free` says. -/
def flipInst (free : Nat) (i : PassId) : PassId :=
  let b := 2 ^ (free / 5 % 16)
  match free % 5 with
  | 1 => { i with core := i.core ^^^ b }
  | 2 => { i with vid := i.vid ^^^ b }
  | 3 => { i with seg := i.seg ^^^ b }
  | _ => i

/-- A flit whose payload bit `bit` was flipped with its CRC recomputed (R406, ACT 3). Bytes stand in the payload in order.
DESIGN CHOICE (log entry 32): where a commit or recall keeps its fields in the payload (R414) is not stated, so the field and bit
hit, or none, follow the free value `free`; a request carries its address outside the payload. -/
def flipLoad (bit free : Nat) : Load → Load
  | .write ws bad e =>
    .write ((List.range ws.length).map (fun i =>
      let w := ws.getD i (0, 0)
      if i = bit / 8 then (w.1, w.2 ^^^ (1#8 <<< (bit % 8))) else w)) bad e
  | .slot n l bs bad => .slot n l (flipByte bit bs) bad
  | .piece op k bs bad => .piece op k (flipByte bit bs) bad
  | .merge op w es => .merge op w (es.map (fun e =>
      let o := 8 * (e.1 % 64)
      if o ≤ bit ∧ bit < o + 8 * w then (e.1, e.2 ^^^ (1#64 <<< (bit - o))) else e))
  | .atom a op w x y q => if bit < 64 then .atom a op w (x ^^^ (1#64 <<< bit)) y q else .atom a op w x y q
  | .reply q x b => if bit < 64 then .reply q (x ^^^ (1#64 <<< bit)) b else .reply q x b
  | .stream g op off bs => .stream g op off (flipByte bit bs)
  | .commit i n =>
    if free % 5 = 0 then .commit i (n ^^^ 2 ^ (free / 5 % 16)) else .commit (flipInst free i) n
  | .recall i => .recall (flipInst free i)
  | .readReq a w q => .readReq a w q

/-- Cores at the ends of a link (R20, R28, R32): of a Quayline lane, the gateway of its own package. -/
def linkCores (s : State) (n u : Nat) : List Nat :=
  let gate (e : Nat) : List Nat :=
    [mapNat s n (0xA980 + 8 * e + 2) 2, mapNat s n (0xA980 + 8 * e + 4) 2].filter (· < 384)
  if u < 2960 then
    let l := (u - 2304) / 82 * 48
    let k := (u - 2304) % 82
    if k < 42 then [l + k / 7 * 8 + k % 7, l + k / 7 * 8 + k % 7 + 1] else [l + (k - 42), l + (k - 42) + 8]
  else if u < 3152 then gate (u - 2960)
  else if u < 3200 then gate (192 + (u - 3152))
  else gate (248 + (u - 3200) / 8)

/-- Die layers with an end of a link (R406). -/
def linkEnds (s : State) (n u : Nat) : List Nat := dedup ((linkCores s n u).map (· / 48))

/-- One link injector meets a flit that crosses link `u` in direction `dir`: registers, and its action with bit and delay
when it acts (R406). -/
def linkInject (t : Tab Word) (k n u : Nat) (dir : Bool) : Tab Word × Option (Nat × Nat × Nat) :=
  let i := 8 * k + 2 * n
  let a := tabGet zeroAt t i
  let b := tabGet zeroAt t (i + 1)
  let act := fieldOf a 13 2
  let bit := fieldOf a 15 10
  let dly := fieldOf a 25 16
  let lim := fieldOf b 0 32
  if fieldOf a 63 1 = 0 ∨ fieldOf a 0 12 ≠ u ∨ (fieldOf a 12 1 = 1) ≠ (dir = true) ∨ lim = 0 ∨ (act = 3 ∧ 511 < bit) ∨
      (act = 2 ∧ dly = 0) then (t, none)
  else
    let cnt := fieldOf b 32 32 + 1
    let t := tabSet zeroAt t (i + 1) (withField b 32 32 cnt)
    if cnt = lim then (tabSet zeroAt t i (withField a 63 1 0), some (act, bit, dly)) else (t, none)

/-- All injectors of a link at one flit. -/
def linkInjectAll (s : State) (n u : Nat) (dir : Bool) : State × Option (Nat × Nat × Nat) :=
  let r := ((linkEnds s n u).flatMap (fun k => (List.range 4).map (fun j => (k, j)))).foldl (fun r e =>
    let q := linkInject r.1 e.1 e.2 u dir
    (q.1, r.2.orElse (fun _ => q.2))) ((pkgOf s n).linj, none)
  (modPkg s n (fun p => { p with linj := r.1 }), r.2)

/-! ### Notices (R417, R421) -/

/-- Lowest scope that encloses a core and a home (R37, R175). -/
def homeScope (g h : Nat) : Nat :=
  if isStack h then
    if (h - 2 ^ 20) / 8 ≠ g / 512 then 6 else if h % 8 / 4 = layerOf g / 4 then 4 else 5
  else enclosingScope [g, h]

/-- Has a link of the path died? -/
def pathDead (s : State) (p : List Hop) : Bool :=
  p.any (fun h => (pkgOf s (h.unit / 4096)).dead.contains (h.unit % 4096))

/-- Is the flit a commit, which concerns no piece? -/
def isCommit (f : Flit) : Bool := match f.load with
  | .commit .. => true
  | _ => false

/-- A notice about flit `f` is produced now (R417). It lands at the issuing core at the scheduled landing at the home plus the
way back, for returning data at the scheduled landing itself; one about no piece, after the way back; across a link that
has died, by the control lanes. A recall's operations are cancelled, and a notice about it would be discarded. -/
def produceNotice (s : State) (f : Flit) (reason : Nat) : State :=
  match f.ref with
  | none => s
  | some r =>
    let t := cnow s r.core
    let due := if pathDead s f.path then t + scopeHorizon s r.core (homeScope r.core r.home)
      else if isCommit f then t + f.lback
      else max t (t + f.land - cnow s f.core + (if f.home = r.core then 0 else f.lback))
    let n : Notice := ⟨s.seq, r, reason, if isCommit f && decide (reason ≤ 1) then some f else none⟩
    postAt { s with notes := s.notes ++ [n] } r.core due 9 none (.instr (.noticeLanding n.id))

/-- Has a DRAIN completed whose scope encloses the home (R421)? -/
def drainedAfter (c : Core) (g home : Nat) : Bool := c.drains.any (fun d => decide (homeScope g home ≤ d.2))

/-- Is the core stopped, or a failed peer of its partition (R373, R422)? -/
def hasFailed (s : State) (g : Nat) : Bool :=
  decide ((coreOf s g).run = .stopped) || (match partOfCore s g with
    | some p => namesCore (partOf s p).failed g
    | none => false)

/-- A lost commit is sent again by the control lanes (R425), unless its sender has failed: it lands within a horizon of its first
landing. -/
def sendAgain (s : State) (n : Notice) : State :=
  match (if hasFailed s n.ref.core then none else n.resend) with
  | none => s
  | some f =>
    let g := n.ref.core
    let t := cnow s g
    let h := max (t + 1) (f.land + bigHorizon s g)
    let at_ := t + 1 + Config.controlLanes s.fresh % (h - t)
    let s := { s with fresh := s.fresh + 1 }
    launchFlit s { f with id := s.seq, lead := s.seq, dep := t, land := at_, lanes := true, st := 0 }

/-- NOTICE_LANDING. That of a gang's stream, which no DRAIN is to report, counts in TOTAL alone (R421, R448). -/
def execNoticeLanding (id : Nat) (s : State) : Host.Outcome State Fault Refusal :=
  match s.notes.find? (fun n => n.id = id) with
  | none => .next s
  | some n =>
    let g := n.ref.core
    let s := { s with notes := s.notes.filter (fun x => x.id ≠ id) }
    let s := modCore s g (fun c =>
      let w := sysGet c 0x450
      let w := withField w 32 32 (fieldOf w 32 32 + 1)
      if n.ref.opno % 16 = 15 then sysSet c 0x450 w else
      let w := if drainedAfter c g n.ref.home then withField w 16 16 (min 0xFFFF (fieldOf w 16 16 + 1)) else w
      { sysSet c 0x450 w with notices := c.notices ++ [{ n with resend := none }] })
    .next (sendAgain s n)

/-! ### Links (R414, R415) -/

/-- Do the paths of a partition's images use link `u` of package `n`? -/
def usesLink (s : State) (n u p : Nat) : Bool :=
  s.images.any (fun i => i.part = p && i.img.paths.any (fun x => x.2.2.any (fun h => h.unit = n * 4096 + u)))

/-- A link is declared dead (R415): it joins the dead-link set of every partition whose routes use it. -/
def declareDead (s : State) (n u : Nat) : State :=
  if (pkgOf s n).dead.contains u then s
  else
    let s := modPkg s n (fun p => { p with dead := p.dead ++ [u] })
    ((s.parts.map (·.1)).filter (usesLink s n u)).foldl (fun s p => recordPeer s p (.link n u)) s

/-- The links already dead join the dead-link set of a partition that uses them. -/
def recordDead (s : State) (p : Nat) : State :=
  s.pkgs.foldl (fun s k => (k.2.dead.filter (fun u => usesLink s k.1 u p)).foldl (fun s u => recordPeer s p (.link k.1 u)) s) s

/-- The sending end of a link counts a lost flit: four within one tide, or 64 slots used one after the other and none of them
acknowledged, declare it dead. DESIGN CHOICE (log entry 56): a slot that carries no flit has nothing to acknowledge. -/
def countLoss (s : State) (n u : Nat) : State :=
  let tide := s.now / 4096
  let old := (pkgOf s n).lost.find? (fun e => e.1 = u)
  let k := match old with
    | some e => if e.2.1 = tide then e.2.2.1 + 1 else 1
    | none => 1
  let r := ((old.map (·.2.2.2)).getD 0) + 1
  let s := modPkg s n (fun p => { p with lost := p.lost.filter (fun e => e.1 ≠ u) ++ [(u, tide, k, r)] })
  if 4 ≤ k ∨ 64 ≤ r then declareDead s n u else s

/-- A flit that crosses a link is acknowledged: the row of unacknowledged ones ends. -/
def countCross (s : State) (n u : Nat) : State :=
  if (pkgOf s n).lost.all (fun e => e.1 ≠ u || decide (e.2.2.2 = 0)) then s
  else modPkg s n (fun p => { p with lost := p.lost.map (fun e => if e.1 = u then (u, e.2.1, e.2.2.1, 0) else e) })

/-- A flit goes no further: its landing, and those that share its journey, will not take place. -/
def stopFlit (s : State) (id st : Nat) : State :=
  let s := modJourney s id (fun f => { f with st := st })
  { s with agenda := s.agenda.filter (fun d => !landsFlit id d.ev) }

/-- FLIT_LOST: a flit with no acknowledgement is taken as lost (R415). -/
def execFlitLost (id : Nat) (s : State) : Host.Outcome State Fault Refusal :=
  match flitOf s id with
  | none => .next s
  | some f =>
    let s := match f.path[f.st / 16]? with
      | some h => countLoss s (h.unit / 4096) (h.unit % 4096)
      | none => s
    .next (produceNotice s f 0)

/-- A flit is lost on hop `k` of its path; `st / 16` keeps the hop. -/
def loseFlit (s : State) (f : Flit) (k lat : Nat) : State :=
  post (stopFlit s f.id (16 * k + 1)) none (s.now + 2 * lat + 4) 25 none (.instr (.flitLost f.id))

/-- The data of a piece has arrived: it waits in the landing buffer for its cycle. -/
def bufferPiece (s : State) (op k : Nat) (bs : List Byte) (bad : List Nat) : State :=
  modXfer s op (fun x => { x with data := x.data.filter (fun d => d.1 ≠ k) ++ [(k, bs)]
                                  bad := x.bad ++ bad.map (fun i => k * 64 + i) })

/-- A flit has crossed its last link: a piece joins the landing buffer of its transfer. -/
def arrivedFlit (s : State) (f : Flit) : State :=
  match f.load with
  | .piece op k bs bad =>
    dropFlit (bufferPiece s op k bs (if f.st = 3 then List.range bs.length else bad)) f.id
  | _ => s

/-- The clock on which a flit lands: that of its home, where the home's partition is the flit's and runs a job (R104); else
the sender's, since no partition that is not running one keeps time, and a home of another partition refuses it (R416). -/
def landClock (s : State) (f : Flit) : Option Nat :=
  match partOfCore s f.home with
  | some p => if isStack f.home = false ∧ p % 8 = f.tag / 512 ∧ 3 ≤ (partOf s p).state then some p else clkOf s f.core
  | none => clkOf s f.core

/-- Does a flit land on another clock than its home's? It is refused there (R416) and takes no port of the home. -/
def foreignHome (s : State) (f : Flit) : Bool := decide (landClock s f ≠ clkOf s f.home)

/-- The landing of a flit at its home, at its cycle on the landing clock (R81, R104, R378). -/
def postLanding (s : State) (f : Flit) : State :=
  let t := cnow s f.core
  let clk := landClock s f
  let cyc := timeOn s clk + (f.land - t)
  let sub := f.core % 32768
  match f.load with
  | .write .. =>
    if isStack f.home then post s none (s.now + (f.land - t)) 10 none (.instr (.stagedWriteLanding f.id))
    else postSub s clk cyc 11 sub none (.instr (.stagedWriteLanding f.id))
  | .slot .. => postSub s clk cyc 11 sub none (.instr (.stagedWriteLanding f.id))
  | .piece .. => s
  | .merge .. => postSub s clk cyc 11 sub none (.instr (.reductionMerge f.id 0))
  | .readReq .. =>
    if isStack f.home then post s none (s.now + (f.land - t)) 20 none (.instr (.remoteRead f.id))
    else postSub s clk cyc 20 sub none (.instr (.remoteRead f.id))
  | .atom .. => postSub s clk cyc 11 sub none (.instr (.ratomLanding f.id))
  | .reply .. => postSub s clk cyc 10 1 none (.reply f.id)
  | .commit .. => postSub s clk cyc 12 sub none (.instr (.commitFlitLanding f.id))
  | .recall .. => postSub s clk cyc 12 sub none (.instr (.recallFlitLanding f.id))
  | .stream .. => post s clk cyc 10 none (.streamArrive f.id)

/-- LINK_FLIT: a flit departs (hop 0), or arrives at hop `k`, and crosses its next link (R414, R415). One that will reach its home
late is refused there (R416); returning data that is late is lost. -/
def execLinkFlit (id k : Nat) (s : State) : Host.Outcome State Fault Refusal :=
  match flitOf s id with
  | none => .next s
  | some f =>
    let s := if k = 0 then postLanding s f else s
    .next (match (if f.lanes then none else f.path[k]?) with
    | none => arrivedFlit s f
    | some h =>
      let n := h.unit / 4096
      let u := h.unit % 4096
      if (pkgOf s n).dead.contains u then produceNotice (stopFlit s id (16 * k + 2)) f 1
      else
        let q := linkInjectAll s n u h.dir
        let s := q.1
        let last := decide (k + 1 = f.path.length)
        let on (s : State) : State :=
          let s := countCross s n u
          if last then (match flitOf s id with
            | some f => arrivedFlit s f
            | none => s)
          else post s none (s.now + h.lat) 25 none (.instr (.linkFlit id (k + 1)))
        match q.2 with
        | none => on s
        | some (0, bit, _) =>
          if bit < 512 ∨ (576 ≤ bit ∧ bit < 608) then on (modJourney s id (fun f => { f with st := 3 })) else loseFlit s f k h.lat
        | some (1, _, _) => loseFlit s f k h.lat
        | some (2, _, dly) =>
          let slack := (f.land - f.dep) - f.path.foldl (fun a h => a + h.lat) 0
          if last = true ∧ dly ≤ slack then on s
          else if last then
            match f.load with
            | .piece .. => if f.home = f.core then loseFlit s f k h.lat else produceNotice (dropFlit s id) f 3
            | .reply .. => loseFlit s f k h.lat
            | .stream .. => loseFlit s f k h.lat
            | _ => modJourney s id (fun f => { f with st := 4 })
          else loseFlit s f k h.lat
        | some (_, bit, _) =>
          let w := freeWord s
          on (modJourney w.2 id (fun f => { f with load := flipLoad bit w.1.toNat f.load })))

/-! ### Landings at a home: ports and deferral (R371, R378) -/

/-- Banks taken in a cycle at a core by landings: write ports of other cores' and lighters' landings. -/
def landingTaken (c : Core) (bank cyc : Nat) : Bool :=
  c.ports.any (fun r => r.bank = bank && r.cyc = cyc && (decide (r.port = 1) && decide (r.serial = 0)))

/-- The ports taken at a core, with those that its bundle of cycle `cyc` takes where they are already known (R371). -/
def portsAt (c : Core) (cyc : Nat) : List Resv := c.ports ++ (if c.ahead.1 = cyc then c.ahead.2 else [])

/-- Ports the core's own accesses use in a cycle: a write (or bank-ALU operation) of `bank`. -/
def ownTaken (c : Core) (bank line cyc : Nat) (alu : Bool) : Bool :=
  (portsAt c cyc).any (fun r => r.serial ≠ 0 && r.bank = bank &&
    (((r.port = 1 || r.port = 8) && decide (r.cyc = if alu then cyc + 2 else cyc)) ||
     (alu && ((r.port = 0 && decide (r.cyc = cyc) && decide (r.line ≠ line)) || (r.port = 3 && decide (r.cyc = cyc)) ||
       (r.port = 2 && decide (r.cyc ≤ cyc) && decide (cyc ≤ r.line))))))

/-- Does a landing at core `h` wait in its landing buffer (R371, R420)? -/
def defers (s : State) (h : Nat) (soft : Bool) : Bool := (coreOf s h).recovery || soft

/-- The waiting landings are looked at again in the next cycle, before its own landings. -/
def postDeferred (s : State) (h : Nat) : State :=
  let t := cnow s h + 1
  let e : Ev := .instr (.deferredLanding h)
  if s.agenda.any (fun d => d.ev = e && d.clk = clkOf s h && decide (d.cyc = t)) then s else postSub s (clkOf s h) t 10 0xF800 none e

/-- A landing meets a port that the core's own accesses use: it waits in the landing buffer, and is counted (R371). -/
def deferLanding (s : State) (h : Nat) (i : Instr) : State :=
  let t := cnow s h
  postDeferred (modCore s h (fun c => bumpDefer { c with deferred := c.deferred ++ [(t, i)] })) h

/-- A landing that meets another landing is deferred by one cycle and counted (R378): `now` is its scheduled cycle. -/
def bumpLanding (s : State) (h land : Nat) (i : Instr) : State :=
  let t := cnow s h
  let s := if t ≤ land then modCore s h bumpDefer else s
  postSub s (clkOf s h) (t + 1) 10 0xF000 none (.instr i)

/-- Reserves the ports of a landing of another core: a write, or a bank-ALU operation. -/
def takeForeign (s : State) (h off cyc : Nat) (alu : Bool) : State :=
  let put (s : State) (port line cyc : Nat) : State :=
    modCore s h (fun c => { c with ports := c.ports ++ [⟨port, bankOf off, line, cyc, 0⟩] })
  if alu then put (put (put s 0 (off / 64) cyc) 3 (off / 64) cyc) 1 (off / 64) (cyc + 2) else put s 1 (off / 64) cyc

/-- A landing with its ports: in a recovery run it waits in the landing buffer when it meets a port the core uses or another
landing (R371, R378); elsewhere it gives way to another landing for a cycle; or it takes place. -/
def landAt (s : State) (h off : Nat) (alu soft : Bool) (land : Nat) (i : Instr) (act : State → State) : State :=
  let t := cnow s h
  let met := landingTaken (coreOf s h) (bankOf off) (if alu then t + 2 else t)
  if defers s h soft && (met || ownTaken (coreOf s h) (bankOf off) (off / 64) t alu) then deferLanding s h i
  else if met then bumpLanding s h land i
  else act (takeForeign s h off t alu)

/-! ### Poison carried by copies (R398) -/

/-- The words of a slice that take poisoned bytes. -/
def poisonBytes (s : State) (base : Nat) (offs : List Nat) : State :=
  offs.foldl (fun s o => setBad s (base + o) 1000) s

/-- Bytes that a copy reads, with the positions that are poisoned; a slice counts corrected words. -/
def copyRead (s : State) (a n : Nat) : List Byte × List Nat :=
  (memBytes s a n, (List.range n).filter (fun i => badAt s (a + i) = 1000))

/-- Main memory takes bytes (R168): a word wholly written is clean. -/
def writeMain (s : State) (ws : List (Nat × Byte)) (bad : List Nat) : State :=
  let as_ := ws.map (·.1)
  let s := memWrite s ws
  let s := (dedup (as_.map (· / 8))).foldl (fun s w =>
    if (List.range 8).all (fun i => as_.contains (8 * w + i)) then setBad s (8 * w) 0 else s) s
  poisonBytes s 0 bad

/-! ### Landing zones (R170, R171, R363, R364, R416) -/

/-- Where the bytes of a flit go at a slice: those of a SEND, at its receive slot's base as it stands. DESIGN CHOICE (log entry 56): a line
that the base puts past the slice's end is written there (R326 gives no fault for it). -/
def landedBytes (s : State) (h : Nat) : Load → Option (List (Nat × Byte) × List Nat × Option Nat)
  | .write ws bad e => some (ws, bad, e)
  | .slot n l bs bad =>
    let w := tabGet zeroAt (coreOf s h).recv n
    if w.getLsbD 63 then
      let base := w.toNat % 2 ^ 21 + 64 * l
      some ((List.range bs.length).map (fun i => (base + i, bs.getD i 0)), bad.map (base + ·), none)
    else none
  | _ => none

/-- The records of the landing zone that a plain staged write or a RATOM makes at its home (R170). -/
def flitRecs (s : State) (f : Flit) : Nat :=
  match f.load with
  | .atom .. => 1
  | l => match landedBytes s f.home l with
    | some (ws, _, _) => (linesOf (ws.map (·.1))).length
    | none => 0

/-- The records that the landings which wait in a home's landing buffer will make: they are records of the zone's 512 (R371). -/
def waitingRecs (s : State) (h : Nat) : Nat :=
  ((coreOf s h).deferred.map (fun d => match d.2 with
    | .stagedWriteLanding id => ((flitOf s id).map (flitRecs s)).getD 0
    | .ratomLanding id => ((flitOf s id).map (flitRecs s)).getD 0
    | _ => 0)).sum

/-- The records of an instance whose landings are due at the home and wait for a port there (R371, R378). -/
def dueRecs (s : State) (h : Nat) (inst : PassId) : Nat :=
  ((s.flits.filter (fun f => f.home = h && f.inst = inst && (f.st % 8 = 0 || f.st % 8 = 3) &&
    decide (cycAt s f.core h f.land ≤ cnow s h))).map (flitRecs s)).sum

/-- Why a home refuses a flit: 2 refused, 3 late (R416). -/
def refusal (s : State) (f : Flit) (nrec : Nat) : Option Nat :=
  let h := f.home
  let c := coreOf s h
  let part := match partOfCore s h with
    | some p => decide (p % 8 = f.tag / 512)
    | none => false
  if f.st = 4 then some 3
  else if part = false ∨ c.run = .stopped ∨ goodCore s h = false ∨ 512 < c.zone.length + waitingRecs s h + nrec then some 2
  else none

/-- A line gives back its former bytes, tag and bad words; no injector, MST or barrier sees it (R361, R363). -/
def restoreLine (s : State) (g line : Nat) (bytes : BitVec 512) (tag : Nat) (bad : List (Nat × Nat)) : State :=
  let a := sliceAddr g (64 * line)
  let s := setTag (memPut (dropWritebacks s g [line]) a (leBytes 64 bytes.toNat)) a tag
  let s := if bad.any (fun e => e.1 = 8) then poisonTag s a else s
  (List.range 8).foldl (fun s i => setBad s (a + 8 * i) (if bad.any (fun e => e.1 = i) then 1000 else 0)) s

/-- The record of a plain staged write, or of a RATOM (R170). -/
def recordWrite (s : State) (h line : Nat) (inst : PassId) : State :=
  let a := sliceAddr h (64 * line)
  let z : Zone := ⟨inst, line, BitVec.ofNat 512 (leNat (memBytes s a 64)), tagOf s a, lineBad s a, none, false, s.seq⟩
  modCore { s with seq := s.seq + 1 } h (fun c => { c with zone := c.zone ++ [z] })

/-- The record of a merge; the first unsettled one of a line keeps the line's merge base (R364). -/
def recordMerge (s : State) (h op w off : Nat) (x : Word) (inst : PassId) : State :=
  let line := off / 64
  let base := BitVec.ofNat 512 (leNat (sliceBytes s h (64 * line) 64))
  let z : Zone := ⟨inst, line, 0, 0, [], some (op, w, off, x), false, s.seq⟩
  modCore { s with seq := s.seq + 1 } h (fun c =>
    let held := c.zone.any (fun r => r.line = line && r.merge.isSome)
    { c with zone := c.zone ++ [z]
             bases := if held then c.bases else c.bases.filter (fun b => b.1 ≠ line) ++ [(line, base)] })

/-- A merge applied to a line's bytes. -/
def applyMerge (b : BitVec 512) (z : Zone) : BitVec 512 :=
  match z.merge with
  | none => b
  | some (op, w, off, x) =>
    let o := 8 * (off % 64)
    let old := b.toNat / 2 ^ o % 2 ^ (8 * w)
    let new := (aluOp op w (BitVec.ofNat 64 old) x 0).toNat % 2 ^ (8 * w)
    BitVec.ofNat 512 (b.toNat - old * 2 ^ o + new * 2 ^ o)

/-- Merges in ascending sender vid, then in the sender's issue order (R364). -/
def vidBefore (a b : Zone) : Bool :=
  decide (a.inst.vid < b.inst.vid) || (decide (a.inst.vid = b.inst.vid) && decide (a.order < b.order))
def insertVid (z : Zone) : List Zone → List Zone
  | [] => [z]
  | y :: t => if vidBefore z y then z :: y :: t else y :: insertVid z t
def vidOrder (l : List Zone) : List Zone := l.foldl (fun acc z => insertVid z acc) []

/-- The recorded merges of a line. -/
def lineMerges (c : Core) (line : Nat) : List Zone := c.zone.filter (fun z => z.line = line && z.merge.isSome)

/-- A line is rebuilt from its merge base with the merges recorded (R364). -/
def rebuildLine (s : State) (h line : Nat) : State :=
  match (coreOf s h).bases.find? (fun b => b.1 = line) with
  | none => s
  | some b =>
    let a := sliceAddr h (64 * line)
    let v := (vidOrder (lineMerges (coreOf s h) line)).foldl applyMerge b.2
    let s := restoreLine s h line v (tagOf s a) (lineBad s a)
    modCore s h (fun c => { c with zone := c.zone.map (fun z =>
      if z.line = line ∧ z.merge.isSome then { z with built := true } else z) })

/-- A home undoes an instance (R363): its records, in reverse landing order, and its merges. -/
def undoInst (s : State) (h : Nat) (inst : PassId) : State :=
  let mine := (coreOf s h).zone.filter (fun z => z.inst = inst)
  let s := modCore s h (fun c => { c with zone := c.zone.filter (fun z => z.inst ≠ inst)
                                          recalled := if c.recalled.contains inst then c.recalled else c.recalled ++ [inst] })
  let s := mine.reverse.foldl (fun s z =>
    if z.merge.isNone then restoreLine s h z.line z.prior z.priorTag z.bad else s) s
  (dedup ((mine.filter (fun z => z.merge.isSome)).map (·.line))).foldl (fun s line =>
    let s := modCore s h (fun c => { c with touched := if c.touched.contains line then c.touched else c.touched ++ [line] })
    let s := rebuildLine s h line
    if lineMerges (coreOf s h) line = [] then
      modCore s h (fun c => { c with bases := c.bases.filter (fun b => b.1 ≠ line), touched := c.touched.filter (· ≠ line) })
    else s) s

/-- A rendezvous release settles the records whose commit has landed (R173), and undoes those of failed senders that
have none (R425). -/
def settle (s : State) (h : Nat) : State :=
  let t := cnow s h
  let c := coreOf s h
  let failed (i : PassId) : Bool := c.peers.any (fun x => match x with
    | .core g => g = i.core
    | .pkg n => n = i.core / 512
    | .link _ _ => false)
  let gone := (c.zone.map (·.inst)).filter (fun i => failed i && c.commits.all (fun e => e.1 ≠ i))
  let s := gone.foldl (fun s i =>
    if (coreOf s h).zone.any (fun z => z.inst = i) then
      modCore (undoInst s h i) h (fun c => { c with commits := c.commits ++ [(i, t)] })
    else s) s
  let done (z : Zone) : Bool := (coreOf s h).commits.any (fun e => e.1 = z.inst)
  let lines := dedup (((coreOf s h).zone.filter (fun z => done z && z.merge.isSome)).map (·.line))
  let s := lines.foldl (fun s line =>
    let ms := lineMerges (coreOf s h) line
    let s := if (coreOf s h).touched.contains line ∨ vidOrder ms ≠ ms then rebuildLine s h line else s
    modCore s h (fun c =>
      if ms.all done then
        { c with bases := c.bases.filter (fun b => b.1 ≠ line), touched := c.touched.filter (· ≠ line) }
      else
        { c with bases := c.bases.map (fun b =>
            if b.1 = line then (line, (vidOrder (ms.filter done)).foldl applyMerge b.2) else b) })) s
  modCore s h (fun c => { c with zone := c.zone.filter (fun z => !done z) })

/-! ### Landings of each kind -/

/-- Bytes written at a home by a staged write, with a record for each line (R170). -/
def stageBytes (s : State) (f : Flit) (ws : List (Nat × Byte)) (bad : List Nat) (except : Option Nat) : State :=
  let h := f.home
  let s := (linesOf (ws.map (·.1))).foldl (fun s l => recordWrite s h l f.inst) s
  let s := writeSlice s h ws f.tag true except (cnow s h)
  poisonBytes s (sliceAddr h 0) (if f.st = 3 then ws.map (·.1) else bad)

/-- A sender learns that the receive slot its SEND names is not armed: OPERAND 3 of line `l` and what follows it (R326, R354, R356). -/
def unarmedFault (s : State) (f : Flit) (l : Nat) : State :=
  match f.src with
  | none => s
  | some x =>
    let ps := ((s.xfers.find? (fun y => y.g = x.core && y.kind = 6 && some y.opno = f.ref.map (·.opno))).map (·.pieces)).getD []
    if (coreOf s x.core).pass.id.serial = x.serial then
      findFault s x.core 17 { cls := 0x0A, sub := 3, slot := x.slot, bundle := x.bundle, cmd := x.cmd
                              extent := extentOf (ps.map (·.2.2.2)) l, piece := l, addr := 0, detail := 0 }
    else s

/-- A staged write whose ports are settled. -/
def stagedNow (s : State) (f : Flit) : State :=
  let h := f.home
  match landedBytes s h f.load with
  | none =>
    match f.load with
    | .slot _ l _ _ => unarmedFault (dropFlit s f.id) f l
    | _ => dropFlit s f.id
  | some (ws, bad, e) =>
    let n := (linesOf (ws.map (·.1))).length
    let s := dropFlit s f.id
    if (coreOf s h).recalled.contains f.inst then s
    else
      match refusal s f n with
      | some r => produceNotice s f r
      | none => stageBytes s f ws bad e

/-- Does the home refuse the flit, or was its instance recalled? It takes no port there then. -/
def turnedAway (s : State) (f : Flit) : Bool :=
  (coreOf s f.home).recalled.contains f.inst || (refusal s f (flitRecs s f)).isSome

/-- STAGED_WRITE_LANDING (R170); at a stack the write performs (R168). -/
def execStagedWriteLanding (id : Nat) (s : State) : Host.Outcome State Fault Refusal :=
  match flitOf s id with
  | none => .next s
  | some f =>
    let h := f.home
    .next (if f.st % 16 = 1 ∨ f.st % 16 = 2 then dropFlit s id
    else if isStack h then
      match f.load with
      | .write ws bad _ =>
        if f.st = 4 then produceNotice (dropFlit s id) f 3
        else writeMain (dropFlit s id) ws (if f.st = 3 then ws.map (·.1) else bad)
      | _ => dropFlit s id
    else
      match landedBytes s h f.load with
      | some (w :: _, _, _) =>
        if foreignHome s f || turnedAway s f then stagedNow s f
        else landAt s h w.1 false (coreOf s f.core).soft f.land (.stagedWriteLanding id) (fun s => stagedNow s f)
      | _ => stagedNow s f)

/-- A bank-ALU operation of another core begins: it reads after the landings of its cycle, and writes two cycles on (R158). -/
def startAlu (s : State) (b : BOp) : State :=
  let t := cnow s b.g
  let b := { b with id := s.seq }
  let s := { s with bops := s.bops ++ [b], seq := s.seq + 1 }
  let s := postAt s b.g t 17 none (.aluRead b.id)
  postAt s b.g (t + 2) 10 none (.instr (.bankAluWrite b.id))

/-- Its read. A poisoned word is consumed at the home (R398). -/
def aluReadNow (s : State) (id : Nat) : State :=
  match s.bops.find? (fun b => b.id = id) with
  | none => s
  | some b =>
    let offs := (List.range b.w).map (b.off + ·)
    let old := sliceVal s b.g b.off b.w
    let s := { s with bops := s.bops.map (fun y => if y.id = id then
      { y with old := old, new := aluOp y.op y.w old y.x y.y, bad := y.bad || (readWords s b.g offs).2.isSome } else y) }
    let s := countLoad s b.g offs
    match poisonRead s b.g offs with
    | some r => findFault s b.g 17 { cls := 0x0B, sub := r.1, slot := 7, bundle := (coreOf s b.g).pc, cmd := 0xFFFF, extent := 0
                                     piece := 0, addr := r.2.1, detail := BitVec.ofNat 64 r.2.2 }
    | none => s

/-- A RATOM whose ports are settled. DESIGN CHOICE (log entry 56): its record is made at its landing, not at its write two
cycles on. -/
def ratomNow (s : State) (f : Flit) : State :=
  match f.load with
  | .atom off op w x y sq =>
    let h := f.home
    let s := dropFlit s f.id
    if (coreOf s h).recalled.contains f.inst then s
    else
      match refusal s f 1 with
      | some r => produceNotice s f r
      | none =>
        startAlu (recordWrite s h (off / 64) f.inst)
          ⟨0, h, off, w, op, x, y, 0, 0, decide (f.st = 3), f.tag, none, some f.inst, none,
            sq.map (fun q => (f.core, q, f.lback, reversePath f.path)), f.ref⟩
  | _ => s

/-- RATOM_LANDING (R325). -/
def execRatomLanding (id : Nat) (s : State) : Host.Outcome State Fault Refusal :=
  match flitOf s id with
  | none => .next s
  | some f =>
    .next (match f.load with
    | .atom off .. =>
      if foreignHome s f || turnedAway s f then ratomNow s f
      else landAt s f.home off true (coreOf s f.core).soft f.land (.ratomLanding id) (fun s => ratomNow s f)
    | _ => s)

/-- One element of a released line, with its ports settled. -/
def mergeNow (s : State) (f : Flit) (e : Nat) : State :=
  match f.load with
  | .merge op w es =>
    let x := es.getD e (0, 0)
    let s := if s.agenda.any (fun d => landsFlit f.id d.ev) ∨
        (coreOf s f.home).deferred.any (fun d => landsFlit f.id (.instr d.2)) then s else dropFlit s f.id
    if (coreOf s f.home).recalled.contains f.inst then s
    else
      startAlu s ⟨0, f.home, x.1, w, op, x.2, 0, 0, 0, decide (f.st = 3), f.tag, none, some f.inst, some (op, x.2), none, none⟩
  | _ => s

/-- The landing of a released line (R329): its records, and its further elements one a cycle. -/
def landLine (s : State) (f : Flit) (es : List (Nat × Word)) (op w : Nat) : State :=
  let h := f.home
  let t := cnow s h
  let s := es.foldl (fun s e => recordMerge s h op w e.1 e.2 f.inst) s
  let s := modFlit s f.id (fun f => { f with land := t })
  (List.range (es.length - 1)).foldl (fun s i =>
    postSub s (clkOf s h) (t + 1 + i) 11 (f.core % 32768) none (.instr (.reductionMerge f.id (i + 1)))) s

/-- REDUCTION_MERGE: element `e` of a released line merges at the home bank ALU (R329, R351). -/
def execReductionMerge (id e : Nat) (s : State) : Host.Outcome State Fault Refusal :=
  match flitOf s id with
  | none => .next s
  | some f =>
    .next (match f.load with
    | .merge op w es =>
      let h := f.home
      let first := decide (e = 0) && decide (f.st < 8)
      let ready (s : State) (f : Flit) : State :=
        landAt s h (es.getD e (0, 0)).1 true (coreOf s f.core).soft (f.land + e) (.reductionMerge id e) (fun s => mergeNow s f e)
      if first then
        if (coreOf s h).recalled.contains f.inst then dropFlit s id
        else
          match refusal s f es.length with
          | some r => produceNotice (dropFlit s id) f r
          | none =>
            let s := landLine (modFlit s id (fun f => { f with st := f.st + 8 })) f es op w
            ready s { f with st := f.st }
      else ready s { f with st := f.st % 8 }
    | _ => s)

/-- The operand of a merge is in the line (R364). -/
def builtIn (c : Core) (b : BOp) : Bool :=
  match b.inst, b.merge with
  | some i, some (op, x) =>
    (c.zone.find? (fun z => z.inst = i && z.merge = some (op, b.w, b.off, x))).any (·.built)
  | _, _ => false

/-- A remote cas whose comparison failed, and whose failure order is no acquire, places no DRAIN after it (R176). -/
def withdrawAcquire (s : State) (r : Option OpRef) : State :=
  match r with
  | some r => modCore s r.core (fun c => { c with draining := c.draining.filter (fun d => d.1 ≠ r.opno + 4) })
  | none => s

/-- BANK_ALU_WRITE (R95, R158): of a local operation, logged while its pass runs (R360); of a staged one, unless its
instance was recalled or its line rebuilt with it. The old value of a RATOM departs. -/
def execBankAluWrite (id : Nat) (s : State) : Host.Outcome State Fault Refusal :=
  match s.bops.find? (fun b => b.id = id) with
  | none => .next s
  | some b =>
    let g := b.g
    let s := { s with bops := s.bops.filter (fun x => x.id ≠ id) }
    let c := coreOf s g
    let ws := storeBytes (b.off : Int) b.w b.new
    let skip := match b.inst with
      | some i => c.recalled.contains i || builtIn c b
      | none => false
    let s := match b.src with
      | some x => if x.serial = c.pass.id.serial then logLine s g (b.off / 64) else s
      | none => s
    let s := if skip then s else
      let s := writeSlice s g ws b.tag true none (cnow s g)
      if b.bad then poisonBytes s (sliceAddr g 0) [b.off] else s
    let s := if b.op = 10 ∧ b.old.toNat ≠ b.y.toNat % 2 ^ (8 * b.w) then withdrawAcquire s b.ref else s
    .next (match b.back with
    | none => s
    | some (dst, sq, lback, path) =>
      let t := cnow s g
      launchFlit s { newFlit s g dst ⟨g, 0, 0, 0, 0⟩ t (t + lback) 0 path (.reply sq b.old b.bad) with
        ref := b.ref.map (fun r => { r with wr := false }) })

/-- GANG_COMPLETION_ADD: one is added to the barrier word of a member (R292). -/
def addNow (s : State) (g home off : Nat) : State :=
  startAlu s ⟨0, home, off, 4, 0, 1, 0, 0, 0, false, ctxTag s g, none, none, none, none, none⟩
def execGangCompletionAdd (g home off : Nat) (s : State) : Host.Outcome State Fault Refusal :=
  .next (landAt s home off true false (cnow s home) (.gangCompletionAdd g home off) (fun s => addNow s g home off))

/-- COMMIT_FLIT_LANDING (R424): NREC against the instance's records, those of landings that wait for a port among them. -/
def execCommitFlitLanding (id : Nat) (s : State) : Host.Outcome State Fault Refusal :=
  match flitOf s id with
  | none => .next s
  | some f =>
    let h := f.home
    let t := cnow s h
    let s := dropFlit s id
    .next (match f.load with
    | .commit inst nrec =>
      if f.st = 3 then produceNotice s f 0
      else
        match refusal s f 0 with
        | some r => produceNotice s f r
        | none =>
          if (coreOf s h).recalled.contains inst then s
          else
            let n := ((coreOf s h).zone.filter (fun z => z.inst = inst)).length + dueRecs s h inst
            let s := if n = nrec then s else produceNotice (undoInst s h inst) f 4
            commitCheck (modCore s h (fun c => { c with commits := c.commits ++ [(inst, t)] })) h
    | _ => s)

/-- RECALL_FLIT_LANDING (R363); one that its home refuses (R416) undoes nothing. -/
def execRecallFlitLanding (id : Nat) (s : State) : Host.Outcome State Fault Refusal :=
  match flitOf s id with
  | none => .next s
  | some f =>
    .next (match f.load with
    | .recall inst => if (refusal s f 0).isSome then dropFlit s id else undoInst (dropFlit s id) f.home inst
    | _ => dropFlit s id)

/-! ### Remote reads and results (R323, R325, R418) -/

/-- REMOTE_READ: the home, or the stack, reads, and the data return. -/
def execRemoteRead (id : Nat) (s : State) : Host.Outcome State Fault Refusal :=
  match flitOf s id with
  | none => .next s
  | some f =>
    let h := f.home
    let g := f.core
    let s := dropFlit s id
    .next (match f.load with
    | .readReq ga w sq =>
      let no := if isStack h then (if f.st = 4 then some 3 else none) else refusal s f 0
      if no.isSome then produceNotice s f (no.getD 2)
      else
        let r := copyRead s ga w
        let s := if isStack h then s else
          modCore (countCopy s h ((List.range w).map (ga % 2 ^ 30 + ·))) h (fun c => { c with
            ports := c.ports ++ [⟨0, bankOf (ga % 2 ^ 30), ga % 2 ^ 30 / 64, cnow s h, 0⟩] })
        let t := cnow s g
        let dep := if isStack h then t else t + 1
        let due := if isStack h then (((coreOf s g).waits.find? (fun w => w.1 = sq)).map (·.2.2.1)).getD (t + f.lback)
          else dep + f.lback
        launchFlit s { newFlit s g g ⟨g, 0, 0, 0, 0⟩ dep due 0 (reversePath f.path)
            (.reply sq (BitVec.ofNat 64 (leNat r.1)) (decide (r.2 ≠ []))) with
          tag := f.tag, ref := f.ref }
    | _ => s)

/-- The result of an RLD or RATOM lands, or a free value in its place (R85, R89). -/
def replyNow (s : State) (id : Nat) : State :=
  match flitOf s id with
  | none => s
  | some f =>
    let g := f.home
    let s := dropFlit s id
    match f.load with
    | .reply sq x bad =>
      match (coreOf s g).waits.find? (fun w => w.1 = sq) with
      | none => s
      | some w =>
        let d := w.2.2.2 % 128
        let v := if 128 ≤ w.2.2.2 then freeWord s else (x, s)
        modCore v.2 g (fun c =>
          let c := { c with waits := c.waits.filter (fun y => y.1 ≠ sq) }
          let c := landCore c (.sreg d v.1)
          let halves := [badKey 4 (2 * d), badKey 4 (2 * d + 1)]
          if (bad || decide (f.st = 3)) && decide (d < 32) then
            { c with live := { c.live with bad := halves.foldl (fun t k => tabSet (fun _ => 0) t k 1000) c.live.bad } }
          else c)
    | _ => s

/-- The record of TIMING, of a result of the operation `x` that was due at `t` (R357). -/
def timingFault (s : State) (g t : Nat) (x : Src) : FaultRec :=
  let m := (coreOf s g).pass.m
  { cls := 0x04, sub := x.cls, slot := x.slot, bundle := x.bundle, cmd := x.cmd, extent := 0, piece := 0, addr := 0
    detail := BitVec.ofNat 64 ((x.issued - m) % 2 ^ 28 + (t - m) % 2 ^ 28 * 2 ^ 28) }

/-- Is the event one in which a unit of core `g` delivers a result: a register, latch or mask landing, Lr or Lc of the matrix
engine, or a row of a MOUT (R377)? -/
def unitDelivers (g : Nat) : Ev → Bool
  | .instr (.resultLanding h _) => h = g
  | .instr (.matrixReadable h _) => h = g
  | .instr (.marginCheck h _) => h = g
  | .moutRow h _ _ => h = g
  | _ => false

/-- TIMING: a result not delivered at its landing (R357, R377, R418): the reply that result `sq` waits for, or the result that a
unit of the core owes in this cycle as entry `sq` of the agenda. Which unit is late the outside world says: nothing of this
machine makes one so. -/
def execTiming (g sq : Nat) (s : State) : Host.Outcome State Fault Refusal :=
  match (coreOf s g).waits.find? (fun w => w.1 = sq) with
  | some w =>
    let t := modCore s g (fun c => { c with waits := c.waits.filter (fun y => y.1 ≠ sq) })
    .next (if w.2.2.1 ≤ cnow s g then findFault t g 17 (timingFault s g w.2.2.1 w.2.1) else s)
  | none =>
    let t := cnow s g
    match (s.agenda.find? (fun d => d.seq = sq && d.cyc = t && unitDelivers g d.ev)).bind (·.own) with
    | some x => .next (findFault { s with agenda := s.agenda.filter (fun d => d.seq ≠ sq) } g 17 (timingFault s g t x))
    | none => .next s

/-! ### DRAIN (R420) -/

/-- Was the operation with number `o` issued before DRAIN `n` by the unit that DRAIN is of (R420)? -/
def drainTakes (c : Core) (n o : Nat) : Bool := decide (o < n) && (decide (n < c.unitFrom) || decide (c.unitFrom ≤ o))

/-- The operations a DRAIN takes: issued before it by its unit, with homes in its scope. -/
def drainOps (c : Core) (g n sc : Nat) : List (Nat × Nat × Nat) :=
  c.writes.filter (fun w => drainTakes c n w.1 && decide (homeScope g w.2.1 ≤ sc))

/-- The failed peer an operation's home is, as its package and PEERCORE. -/
def peerOfHome (peers : List Peer) (h : Nat) : Option (Nat × Nat) :=
  if isStack h then
    (if peers.contains (.pkg ((h - 2 ^ 20) / 8)) then some ((h - 2 ^ 20) / 8, 0x1FF) else none)
  else if peers.contains (.pkg (h / 512)) then some (h / 512, 0x1FF)
  else if peers.contains (.core h) then some (h / 512, h % 512) else none

/-- Does an operation's route cross a link of the core's dead-link set? -/
def routeDead (s : State) (g path : Nat) : Bool :=
  (pathOf s g path).any (fun h => (coreOf s g).peers.contains (.link (h.unit / 4096) (h.unit % 4096)))

/-- The failed peers on an operation's route: the cores at its links' ends, or their package. -/
def routePeers (s : State) (g path : Nat) : List (Nat × Nat) :=
  (pathOf s g path).flatMap (fun h => let n := h.unit / 4096
    (linkCores s n (h.unit % 4096)).filterMap (fun c => peerOfHome (coreOf s g).peers (n * 512 + c)))

/-- The completion of DRAIN `d` is put off to the horizon: its status lands at `k`, where it may meet another landing or a full port
(R85, R89, R420). -/
def putOffDrain (s : State) (g k : Nat) (d : Nat × Nat × Nat × Bool × Nat) : State :=
  let reg := d.2.2.1 % 128
  let l : Landing := .sreg reg 0
  let s := modCore s g (fun c => { c with draining := c.draining.filter (fun x => x.1 ≠ d.1) })
  let free := decide (reg < 32) && landingClash s g k l
  let s := modCore (if free then freeFar s g k l else s) g (fun c => { c with
    draining := c.draining ++ [(d.1, d.2.1, if free then reg + 128 else reg, true, d.2.2.2.2)] })
  noteLand (if reg < 32 then reserve s g 5 0 0 k else s) g d.2.2.2.2 k (decide (reg < 32))

/-- F cycles after its issue, the completion of DRAIN `n` is decided. -/
def drainDecideNow (s : State) (g n : Nat) : State :=
  match (coreOf s g).draining.find? (fun d => d.1 = n) with
  | none => s
  | some d =>
    let t := cnow s g
    let ops := drainOps (coreOf s g) g n d.2.1
    let hz := ops.any (fun w => (peerOfHome (coreOf s g).peers w.2.1).isSome || routeDead s g w.2.2 ||
      decide (routePeers s g w.2.2 ≠ []))
    let own : Option Src := some ⟨g, d.2.2.2.2, 0, 5, 0, 0xFFFF, n / 16⟩
    if hz then
      let k := n / 16 + scopeHorizon s g d.2.1
      let s := postAt (putOffDrain s g k d) g k 10 own (.instr (.drainComplete g n))
      postAt s g t 37 own (.perform g (.horizonHold n))
    else postAt s g t 10 own (.instr (.drainComplete g n))

/-- DRAIN_COMPLETE: the status word lands, formed from the notices landed by now (R330, R420); notices of reads are reported
with them, and set no field, as those of an earlier unit's operations. A DRAIN that an access's order placed has no status word. -/
def execDrainComplete (g n : Nat) (s : State) : Host.Outcome State Fault Refusal :=
  let c := coreOf s g
  match c.draining.find? (fun d => d.1 = n) with
  | none => .next s
  | some d =>
    let sc := d.2.1
    let ops := drainOps c g n sc
    let here (x : Notice) : Bool := decide (x.ref.opno < n) && decide (homeScope g x.ref.home ≤ sc)
    let mine := c.notices.filter (fun x => here x && x.ref.wr && drainTakes c n x.ref.opno)
    let failed := dedup (mine.map (·.ref.opno))
    let touched := ops.flatMap (fun w => (peerOfHome c.peers w.2.1).toList ++ routePeers s g w.2.2)
    let low := touched.foldl (fun a x => match a with
      | none => some x
      | some y => if x.1 * 512 + x.2 < y.1 * 512 + y.2 then some x else some y) (none : Option (Nat × Nat))
    let first := failed.foldl (fun a o => min a o) (failed.headD 0)
    let home := (mine.find? (fun x => x.ref.opno = first && !isStack x.ref.home)).map (fun x =>
      (x.ref.home / 512, x.ref.home % 512))
    let dead := mine.any (fun x => x.reason = 1) || ops.any (fun w => routeDead s g w.2.2)
    let w := drainWord (decide (mine ≠ [])) d.2.2.2.1 dead (mine.any (fun x => x.reason = 2)) failed.length
      (match d.2.2.2.1, low with
       | true, some x => some x
       | _, _ => home)
    let v := if 128 ≤ d.2.2.1 then freeWord s else (w, s)
    .next (modCore v.2 g (fun c =>
      let c := { c with draining := c.draining.filter (fun x => x.1 ≠ n)
                        drains := c.drains.filter (fun x => x.2 ≠ sc) ++ [(n, sc)] }
      if d.2.2.1 = 64 then c
      else landCore { c with
        notices := c.notices.filter (fun x => !here x)
        writes := c.writes.filter (fun x => !(decide (x.1 < n) && decide (homeScope g x.2.1 ≤ sc))) } (.sreg (d.2.2.1 % 128) v.1)))

/-! ### Peers (R422) -/

/-- PEER_SET_UPDATE: every core of the partition takes the change. -/
def execPeerSetUpdate (p : Nat) (x : Peer) (s : State) : Host.Outcome State Fault Refusal :=
  .next ((partCores s p).foldl (fun s g =>
    modCore s g (fun c => { c with peers := if c.peers.contains x then c.peers else c.peers ++ [x] })) s)

/-- The partitions that run a job. -/
def runningParts (s : State) : List Nat :=
  (s.parts.filter (fun e => decide (3 ≤ e.2.state) && decide (e.2.state ≤ 4))).map (·.1)

/-- PACKAGE_LOST: it becomes a failed peer of every job that spans it. -/
def execPackageLost (n : Nat) (s : State) : Host.Outcome State Fault Refusal :=
  let s := modPkg s n (fun p => { p with alive := false })
  let spans (p : Nat) : Bool :=
    let y := partOf s p
    decide (p / 8 ≠ n) && y.pod &&
      s.parts.any (fun e => e.1 / 8 = n && e.2.pod && decide (e.2.job = y.job) && decide (3 ≤ e.2.state))
  .next (((runningParts s).filter spans).foldl (fun s p =>
    decideFreeze (recordAt s p (.pkg n)) p 2 ((partOf s p).tide + 1)) s)

/-- CORE_LOST: the control core of its die layer reports it (R422). -/
def execCoreLost (g : Nat) (s : State) : Host.Outcome State Fault Refusal :=
  match partOfCore s g with
  | none => .next s
  | some p => .next (freezeFailed (recordPeer s p (.core g)) p)

end Sys2Proof.Machine
end

