-- ==== Sys2Proof/Machine/Pieces.lean ====
section
/-! DEFINITION. Pieces of transfers at their cycles (11, R312 to R317; 05, R156, R157), DELIVER (17, R418), code fills
(11, R316; 03, R99), host channels (06, R178 to R181), the accesses of service windows (03, R97), and the dredger (16,
R400 to R402). -/

namespace Sys2Proof.Machine

/-! ### The footer of a tile (R156, R157) -/

/-- The array and the words of it that line `j` of the footer of entry `e` is read from: margin storage, and for the descriptor
the directory entry (R156, R160). -/
def footerWords (e j : Nat) : Nat × List Nat :=
  if j < 8 then (2, (List.range 8).map (e * 128 + 8 * j + ·)) else (7, [e])

/-- Bad words that cover line `j` of the footer of entry `e`: the poisoned byte positions, eight of each word, and the words that
its read counts (R397, R398). -/
def slotPoison (c : Core) (e j : Nat) : List Nat × List (Nat × Bool) :=
  let ws := footerWords e j
  let at_ (w : Nat) : Nat := tabGet (fun _ => 0) c.live.bad (badKey ws.1 w)
  (((List.range ws.2.length).zip ws.2).flatMap (fun w => if at_ w.2 = 1000 then (List.range 8).map (8 * w.1 + ·) else []),
   (ws.2.filter (fun w => decide (at_ w ≠ 0))).map (fun w => (w, decide (at_ w = 1000))))

/-- Line `j` of the footer of entry `e`: 512 bytes of margins, then the descriptor. -/
def footerLine (c : Core) (e j : Nat) : List Byte :=
  if j < 8 then (List.range 16).flatMap (fun i => leBytes 4 (margWord c e (16 * j + i)).toNat)
  else leBytes 64 (fieldOf (dirEntry c e) 1 19)

/-- A footer lands in entry `e` at core `h`: the margin slot, and the directory entry with `base` (R157). Bytes `bad` of it are
poisoned, and so are then the words that they fill (R398). -/
def landFooter (s : State) (h e base : Nat) (lines : List (List Byte)) (bad : List Nat) : State :=
  let word (i : Nat) : BitVec 32 := if i < 128 then
      BitVec.ofNat 32 (leNat ((List.range 4).map (fun k => (lines.getD (i / 16) []).getD (4 * (i % 16) + k) 0))) else 0
  let d := leNat ((lines.getD 8 []).take 8) % 2 ^ 19
  let c := setMargins (coreOf s h) e ((List.range 256).map word)
  let c := setDir c e (BitVec.ofNat 64 (1 + d * 2 + base % 2 ^ 21 * 2 ^ 20))
  setCore s h ((List.range 65).foldl (fun c w =>
    if bad.any (fun b => b / 8 = w) then
      { c with live := { c.live with
        bad := tabSet (fun _ => 0) c.live.bad (if w < 64 then badKey 2 (e * 128 + w) else badKey 7 e) 1000 } }
    else c) c)

/-! ### Pieces (R312) -/

/-- The bytes that a piece reads in core `h` or at a stack, with the poisoned positions; bad words are counted. -/
def pieceRead (s : State) (h a off len e : Nat) : State × List Byte × List Nat :=
  if 2 ^ 21 ≤ off then
    let j := (off - 2 ^ 21) / 64
    let c := coreOf s h
    let p := slotPoison c e j
    (countWords s h (footerWords e j).1 p.2, footerLine c e j, p.1)
  else
    let r := copyRead s a len
    (if isStack h then s else countCopy s h ((List.range len).map (off + ·)), r.1, r.2)

/-- The writes of a piece's bytes at addresses from `a`, where the mask of a CPYM enables them. -/
def maskedBytes (x : Xfer) (a : Nat) (bs : List Byte) : List (Nat × Byte) :=
  ((List.range bs.length).filter (fun i => x.mask.getLsbD ((a + i) % 64))).map (fun i => (a + i, bs.getD i 0))

/-- What a notice about piece `k` of a transfer names (R417). -/
def pieceRef (x : Xfer) (k home : Nat) : OpRef := ⟨x.g, x.inst, x.opno, x.src.cmd, k, home, x.put⟩

/-- A flit with data of piece `k` of a transfer, departing now for `home`, landing at `land`; `far` is the home it concerns. -/
def pieceFlit (s : State) (x : Xfer) (k home far land : Nat) (path : List Hop) (l : Load) : Flit :=
  { newFlit s x.g home x.inst (cnow s x.g) land x.lback path l with
    ref := some (pieceRef x k far), tag := x.tag, src := some x.src }

/-- The data of piece `k` of a put leave for their home. -/
def pieceSend (s : State) (x : Xfer) (k ga off : Nat) (bs : List Byte) (bad : List Nat) : State :=
  let t := cnow s x.g
  if x.kind = 6 then
    launchFlit s (pieceFlit s x k x.dst x.dst (t + x.lout) x.path (.slot x.entry k bs bad))
  else if x.kind = 7 then
    let ts := castTargets s x.g (BitVec.ofNat 64 (x.dst / 8 % 64 * 8 + x.dst % 8 * 512))
    let base := x.entry + 64 * k
    let ws := (List.range bs.length).map (fun i => (base + i, bs.getD i 0))
    match ts.reverse with
    | [] => s
    | last :: rest =>
      let lead := s.seq
      let s := launchFlit s (pieceFlit s x k last last (t + x.lout) x.path (.write ws (bad.map (base + ·)) none))
      rest.foldl (fun s h =>
        launchFlit s { pieceFlit s x k h h (t + x.lout) [] (.write ws (bad.map (base + ·)) none) with lead := lead }) s
  else if x.dst = x.g then bufferPiece s x.id k bs bad
  else if isStack x.dst then
    launchFlit s (pieceFlit s x k x.dst x.dst x.land x.path (.write (maskedBytes x ga bs) (bad.map (ga + ·)) none))
  else if 2 ^ 21 ≤ off then
    launchFlit s (pieceFlit s x k x.dst x.dst x.land x.path (.piece x.id k bs bad))
  else
    let a := ga % 2 ^ 30
    launchFlit s (pieceFlit s x k x.dst x.dst (t + x.lout) x.path (.write (maskedBytes x a bs)
      ((bad.filter (fun i => x.mask.getLsbD ((a + i) % 64))).map (a + ·)) (if x.kind = 3 then some x.entry else none)))

/-- The data of piece `k` of a get leave the far side. -/
def pieceFetch (s : State) (x : Xfer) (k : Nat) (bs : List Byte) (bad : List Nat) : State :=
  if x.dst = x.g then bufferPiece s x.id k bs bad
  else
    let back := if isStack x.dst then x.lout else x.lback
    let f := pieceFlit s x k x.g x.dst (cnow s x.g + back) (reversePath x.path) (.piece x.id k bs bad)
    if isStack x.dst then post { s with flits := s.flits ++ [f] } none s.now 25 f.src (.instr (.linkFlit f.id 0))
    else launchFlit s f

/-- The first half of piece `k`: its read, at the core for a put, at the far side for a get. -/
def pieceFirst (s : State) (x : Xfer) (k : Nat) : State :=
  let p := x.pieces.getD k (0, 0, 0, 0)
  let g := x.g
  if x.put then
    let r := pieceRead s g (sliceAddr g p.1) p.1 p.2.2.2 x.entry
    pieceSend r.1 x k p.2.2.1 p.1 r.2.1 r.2.2
  else
    let h := x.dst
    let off := p.2.2.1 % 2 ^ 30
    let f := { pieceFlit s x k h h (cnow s g) x.path (.recall x.inst) with lback := x.lback }
    let no := if isStack h = true ∨ h = g then none else refusal s f 0
    if no.isSome then produceNotice s f (no.getD 2)
    else
      let s := if isStack h ∨ h = g ∨ 2 ^ 21 ≤ off then s
        else modCore s h (fun c => { c with ports := c.ports ++ [⟨0, bankOf off, off / 64, cnow s h, 0⟩] })
      let r := pieceRead s h p.2.2.1 (if isStack h then 0 else off) p.2.2.2 x.entry
      pieceFetch r.1 x k r.2.1 r.2.2

/-- The bytes of piece `k` that have arrived, with the poisoned positions. -/
def pieceData (x : Xfer) (k : Nat) : Option (List Byte × List Nat) :=
  (x.data.find? (fun d => d.1 = k)).map (fun d =>
    (d.2, ((x.bad.filter (fun b => b / 64 = k)).map (· % 64))))

/-- Where the second half of piece `k` writes in the issuing core's slice. -/
def pieceOff (x : Xfer) (k : Nat) : Nat :=
  let p := x.pieces.getD k (0, 0, 0, 0)
  if x.put then p.2.2.1 % 2 ^ 30 else p.1

/-- The second half of piece `k` takes place: its write into the slice of the issuing core. -/
def pieceWrite (s : State) (x : Xfer) (k : Nat) : State :=
  match pieceData x k with
  | none => s
  | some (bs, bad) =>
    let o := pieceOff x k
    let ws := maskedBytes x o bs
    let s := writeSlice s x.g ws x.tag true (if x.kind = 3 then some x.entry else none) (cnow s x.g)
    poisonBytes s (sliceAddr x.g 0) ((bad.filter (fun i => x.mask.getLsbD ((o + i) % 64))).map (o + ·))

/-- The second half of piece `k` at its cycle: a missing piece of a get is found in this phase (R418), and in a recovery
run the write waits when it meets a port the core uses (R371). -/
def pieceSecond (s : State) (x : Xfer) (k : Nat) : State :=
  let late := x.put = false ∧ x.kind ≠ 4 ∧ x.dst ≠ x.g ∧ (pieceData x k).isNone = true
  if late then postAt s x.g (cnow s x.g) 14 (some x.src) (.instr (.deliver x.id k))
  else if 2 ^ 21 ≤ pieceOff x k then s
  else if defers s x.g false && ownTaken (coreOf s x.g) (bankOf (pieceOff x k)) (pieceOff x k / 64) (cnow s x.g) false then
    deferLanding s x.g (.pieceTransfer x.id k false)
  else pieceWrite s x k

/-- The request of piece `k` for a stack has departed: the stack reads `wait` package cycles on (R104, R312). -/
def askStack (s : State) (op k wait : Nat) : State :=
  match xferOf s op with
  | none => s
  | some x => post s none (s.now + wait) 20 (some x.src) (.instr (.pieceTransfer op k true))

/-- PIECE_TRANSFER. -/
def execPieceTransfer (op k : Nat) (rd : Bool) (s : State) : Host.Outcome State Fault Refusal :=
  match xferOf s op with
  | none => .next s
  | some x => .next (if x.cancelled then s else if rd then pieceFirst s x k else pieceSecond s x k)

/-- A fault of piece `k`: it names the slot, its ordinal, the piece and what is left of the shape (R356, R379). -/
def xferFault (x : Xfer) (k cls sub : Nat) (detail : Word) : FaultRec :=
  { cls := cls, sub := sub, slot := x.src.slot, bundle := x.src.bundle, cmd := x.src.cmd
    extent := extentOf (x.pieces.map (·.2.2.2)) k, piece := k, addr := (x.pieces.getD k (0, 0, 0, 0)).2.1, detail := detail }

/-- The fault of piece `k` of a transfer that meets a taken port, unless the transfer is cancelled. -/
def takenPiece (s : State) (op k sub bank : Nat) : Option (Nat × FaultRec) :=
  match xferOf s op with
  | none => none
  | some x => if x.cancelled then none else some (x.g, xferFault x k 9 sub (BitVec.ofNat 64 bank))

/-- BANK of a piece at its own cycle (R378, R379). -/
def pieceBankNow (s : State) (op k sub bank : Nat) : State :=
  match takenPiece s op k sub bank with
  | none => s
  | some r => findFault s r.1 21 r.2

/-- DELIVER (R418): the first missing piece names the fault, and the whole transfer is cancelled. -/
def execDeliver (op k : Nat) (s : State) : Host.Outcome State Fault Refusal :=
  match xferOf s op with
  | none => .next s
  | some x =>
    .next (if x.cancelled then s
    else findFault (modXfer s op (fun x => { x with cancelled := true })) x.g 17
      (xferFault x k 0x0E (if isStack x.dst then 1 else 2) 0))

/-- The home refuses the footer of a remote CPYT: a notice for each piece of it that arrived (R416, R417). -/
def refuseFooter (s : State) (x : Xfer) (h reason : Nat) : State :=
  let n := x.pieces.length - 9
  ((List.range 9).filter (fun j => (pieceData x (n + j)).isSome)).foldl (fun s j =>
    produceNotice s { newFlit s x.g h x.inst 0 x.land x.lback x.path (.recall x.inst) with
      ref := some (pieceRef x (n + j) h), tag := x.tag } reason) s

/-- Landing of a transfer: the stage counter rises (R319), and a CPYT's margins and directory entry land (R157). A footer of
which a piece is missing does not land. -/
def landXfer (s : State) (op : Nat) : State :=
  match xferOf s op with
  | none => s
  | some x =>
    if x.cancelled then s
    else
      let s := if x.stg then modCore s x.g (fun c => { c with live := { c.live with stage := c.live.stage + 1 } }) else s
      let h := if x.put then x.dst else x.g
      if x.kind ≠ 3 ∨ isStack h = true then s
      else
        let n := x.pieces.length - 9
        let got := (List.range 9).map (fun j => pieceData x (n + j))
        let no := if h = x.g then none else refusal s { newFlit s x.g h x.inst 0 0 0 [] (.recall x.inst) with tag := x.tag } 0
        if no.isSome then refuseFooter s x h (no.getD 2)
        else if got.any (·.isNone) then s
        else
          let lines := got.map (fun d => (d.map (·.1)).getD [])
          let bad := ((List.range 9).zip got).flatMap (fun e => ((e.2.map (·.2)).getD []).map (64 * e.1 + ·))
          landFooter s h x.entry (pieceOff x 0) lines bad

/-! ### Code fills (R316) -/

/-- CODE_FILL_LANDING: line `k` lands in the code window of core `h`, and its words become valid; missing words stay as
they are (R418). -/
def execCodeFillLanding (h op k : Nat) (s : State) : Host.Outcome State Fault Refusal :=
  match xferOf s op with
  | none => .next s
  | some x =>
    .next (if x.cancelled then s
    else
      match pieceData x k with
      | none => s
      | some (bs, bad) =>
        let w := (x.entry + 64 * k) / 4
        modCore s h (fun c =>
          let c := writeCode true c ((List.range 16).map (fun i =>
            (w + i, leNat ((List.range 4).map (fun j => bs.getD (4 * i + j) 0)))))
          { c with codeBad := (dedup (bad.map (· / 8))).foldl (fun t i => tabSet (fun _ => 0) t (w / 2 + i) 1000) c.codeBad }))

/-! ### Host channels (R178 to R181, R317) -/

/-- The channel's watermark advances over completed transfers in identifier order (R179). -/
def advanceChan : Nat → Part → Nat → Part
  | 0, x, _ => x
  | n + 1, x, ch =>
    let w := tabGet zeroAt x.chans ch
    let id := (fieldOf w 32 32 + 1) % 2 ^ 32
    match x.chanPend.find? (fun e => e.1 = ch && e.2.1 = id) with
    | none => x
    | some e =>
      let w := BitVec.ofNat 64 ((fieldOf w 0 32 + e.2.2) % 2 ^ 32 + id * 2 ^ 32)
      advanceChan n { x with chans := tabSet zeroAt x.chans ch w
                             chanPend := x.chanPend.filter (fun e => !(e.1 = ch && e.2.1 = id)) } ch

/-- Has the channel that a watermark rendezvous names reached its threshold (R180, R237)? -/
def reachedMark (s : State) (r : Rdv) : Bool :=
  let w := tabGet zeroAt (partOf s r.part).chans (r.a.toNat % 4)
  decide ((fieldOf w 0 32 + 2 ^ 32 - r.b.toNat % 2 ^ 32) % 2 ^ 32 < 2 ^ 31)

/-- Watermark rendezvous that wait with a host-wait freeze decided: their keeper part's reason bit stands and their
comparison is over. -/
def hostWaits (s : State) (p : Nat) : List Rdv :=
  s.rdvs.filter (fun r => r.part = p && r.kind = 2 && r.posted && r.q.isNone && (partOf s p).reasons.getLsbD 1 &&
    !(s.agenda.any (fun d => match d.ev with
      | .instr (.watermarkCompare x) => x = r.id
      | _ => false)))

/-- After a watermark has advanced, waiting rendezvous take the boundary as their q, and the reason clears with the last
of them (R65, R101). -/
def wakeHostWaits (s : State) (p : Nat) : State :=
  let ws := hostWaits s p
  let done := ws.filter (reachedMark s)
  if done = [] then s
  else
    let x := partOf s p
    let b := x.pendB.getD x.tide
    let s := done.foldl (fun s r => rdvTry (setRdv s { r with q := some b, posted := false }) r.id) s
    if ws.all (reachedMark s) then clearReason s p 1 else s

/-- A host transfer completes (R179). -/
def completeHcpy (s : State) (x : Xfer) : State :=
  let s := { s with xfers := s.xfers.filter (fun y => y.id ≠ x.id) }
  match partOfCore s x.g with
  | none => s
  | some p =>
    let s := modPart s p (fun y =>
      let y := { y with chanPend := y.chanPend ++ [(x.chan, x.hcid, x.sectors)] }
      advanceChan y.chanPend.length y x.chan)
    wakeHostWaits s p

/-- The first service-window cycle after `t`. -/
def windowAfter (t : Nat) : Nat := if inWindow (t + 1) then t + 1 else nextWindow (t + 1)

/-- The transfer takes its channel's next identifier, and its pieces join the core's queue (R178, R317). -/
def queueHcpy (s : State) (op : Nat) : State :=
  match xferOf s op with
  | none => s
  | some x =>
    match partOfCore s x.g with
    | none => s
    | some p =>
      let id := ((tabGet zeroAt (partOf s p).chanNext x.chan).toNat + 1) % 2 ^ 32
      let s := modPart s p (fun y => { y with chanNext := tabSet zeroAt y.chanNext x.chan (BitVec.ofNat 64 id) })
      let s := modXfer s op (fun y => { y with hcid := id })
      if x.pieces = [] then postAt s x.g (windowAfter (cnow s x.g)) 13 none (.instr (.hcpyPiece op 0))
      else modCore s x.g (fun c => { c with
        svc := c.svc ++ (List.range x.pieces.length).map (fun k => Svc.hcpy op k) })

/-- Does the host fail the completion of piece `k` of a get (R418)? -/
def hostFailed (s : State) (x : Xfer) (k : Nat) : Bool :=
  s.hostFails.any (fun e => some e.1 = partOfCore s x.g && e.2 = (x.chan, x.hcid, k))

/-- Piece `k` of a host transfer moves (R317); the last completes it. A completion that the host fails poisons the bytes it
should have filled (R418). -/
def moveHcpy (s : State) (x : Xfer) (k : Nat) : State :=
  let g := x.g
  let s := match x.pieces[k]? with
    | none => s
    | some p =>
      let host := hostAddr (busAddr s g p.2.2.1)
      if x.put then
        let r := pieceRead s g (sliceAddr g p.1) p.1 p.2.2.2 0
        writeMain r.1 ((List.range r.2.1.length).map (fun i => (host + i, r.2.1.getD i 0))) (r.2.2.map (host + ·))
      else if hostFailed s x k then poisonBytes s (sliceAddr g 0) ((List.range p.2.2.2).map (p.1 + ·))
      else
        let r := copyRead s host p.2.2.2
        let s := writeSlice s g ((List.range r.1.length).map (fun i => (p.1 + i, r.1.getD i 0))) x.tag true none (cnow s g)
        poisonBytes s (sliceAddr g 0) (r.2.map (p.1 + ·))
  if x.pieces.length ≤ k + 1 then completeHcpy s x else s

/-- HCPY_PIECE. -/
def execHcpyPiece (op k : Nat) (s : State) : Host.Outcome State Fault Refusal :=
  match xferOf s op with
  | none => .next s
  | some x => .next (moveHcpy s x k)

/-! ### Service accesses (R97) -/

/-- Does a SAVE or RESTORE of the core's partition run (R429, R435)? -/
def contextBusy (s : State) (g : Nat) : Bool :=
  (List.range 8).any (fun i =>
    let x := partOf s (g / 512 * 8 + i)
    (tabGet zeroAt x.context 1).getLsbD 0 && decide (x.layers / 2 ^ layerOf g % 2 = 1))

/-- The offset a queued access uses, whether it reads, and the package cycle from which it may take place. -/
def svcUse (s : State) : Svc → Nat × Bool × Nat
  | .hcpy op k =>
    match xferOf s op with
    | some x => ((x.pieces.getD k (0, 0, 0, 0)).1, x.put, if x.put then 0 else x.land)
    | none => (0, true, 0)
  | .write off _ _ _ => (off, false, 0)
  | .read off _ _ => (off, true, 0)

/-- Does the core's partition keep time in this cycle? -/
def keepsTime (s : State) (g : Nat) : Bool :=
  match partOfCore s g with
  | some p => (partOf s p).live
  | none => false

/-- Is the bank's port free in this cycle? While the partition stands still only queued accesses use ports, and they note them by
the package cycle (ports 9 and 10). -/
def svcFree (s : State) (g off : Nat) (rd : Bool) : Bool :=
  let t := cnow s g
  let b := bankOf off
  !((portsAt (coreOf s g) t).any (fun r => r.bank = b && (
    if keepsTime s g = false then (if rd then r.port = 9 && r.line ≠ off / 64 else r.port = 10) && r.cyc = s.now
    else if rd then (r.port = 0 && r.cyc = t && r.line ≠ off / 64) || (r.port = 2 && decide (r.cyc ≤ t) && decide (t ≤ r.line))
    else (r.port = 1 || r.port = 7 || r.port = 8) && r.cyc = t)))

/-- A queued access takes its port of the bank (R97). -/
def takeSvcPort (s : State) (g off : Nat) (rd : Bool) : State :=
  let put (port cyc : Nat) : Resv := ⟨port, bankOf off, off / 64, cyc, 0⟩
  if keepsTime s g then modCore s g (fun c => { c with ports := put (if rd then 0 else 1) (cnow s g) :: c.ports })
  else modCore s g (fun c => { c with
    ports := put (if rd then 9 else 10) s.now :: c.ports.filter (fun r => decide (r.port < 9)) })

/-- One queued access takes place. -/
def svcNow (s : State) (g : Nat) : Svc → State
  | .hcpy op k =>
    match xferOf s op with
    | some x => moveHcpy s x k
    | none => s
  | .write off bytes tag _ =>
    writeSliceAs false s g ((List.range bytes.length).map (fun i => (off + i, bytes.getD i 0))) tag true none (cnow s g)
  | .read off cc reg =>
    let w := BitVec.ofNat 64 (leNat (sliceBytes s g off 8))
    let s := countCopy s g ((List.range 8).map (off + ·))
    modCore s cc (fun c => landCore c (.sreg reg w))

/-- Has the measurement firmware sole use of the core's die layer in this cycle (R347)? -/
def surveyRuns (s : State) (g : Nat) : Bool :=
  (pkgOf s (g / 512)).survey.any (fun e => e.1 = layerOf g && decide (s.now < e.2))

/-- May the queued access take place in this cycle: a service window, or, but for one of staging (R341, R342), a freeze (R97)? None
may while a save or restore uses the arrays (R435) or a survey the layer (R347). -/
def svcOpen (s : State) (g : Nat) (a : Svc) : Bool :=
  let staging := match a with
    | .write _ _ _ b => b
    | _ => false
  !contextBusy s g && !surveyRuns s g && (match partOfCore s g with
    | some p => if (partOf s p).live then inWindow (partOf s p).tide else !staging
    | none => !staging || inWindow s.now)

/-- SERVICE_ACCESS: the first queued access, when its time has come and its bank is free. -/
def execServiceAccess (g : Nat) (s : State) : Host.Outcome State Fault Refusal :=
  .next (match (coreOf s g).svc with
  | [] => s
  | a :: rest =>
    let u := svcUse s a
    if svcOpen s g a && decide (u.2.2 ≤ s.now) && svcFree s g u.1 u.2.1 then
      svcNow (takeSvcPort (modCore s g (fun c => { c with svc := rest })) g u.1 u.2.1) g a
    else s)

/-! ### The dredger (R400 to R402) -/

/-- A cancel of the job of partition `p` becomes visible at its next tide boundary (R72, R401). -/
def hostCancelJob (s : State) (p : Nat) : State :=
  let x := partOf s p
  (p :: podPeers s p).foldl (fun s q =>
    post s (some q) (tideUp ((partOf s q).tide + 1)) 2 none (.instr (.cancelVisible q 3 (BitVec.ofNat 16 x.job)))) s

/-- What the control core does with an uncorrectable line at `a`, of a core or store whose die layer is `k` (R401): the owner tag's
context, or for a bad tag the layer's partition, loses its running job; else the line is rewritten as zeros. -/
def reportLine (s : State) (k a : Nat) : State :=
  let t := tagOf s a
  let q := k / 8 * 8 + t / 512 % 8
  let holder := if tagBadAt s a = 1000 then partAt s (k / 8) (k % 8)
    else if (partOf s q).ctx % 512 = t % 512 then some q else none
  match holder.filter (fun p => decide ((partOf s p).state = 3) || decide ((partOf s p).state = 4)) with
  | some p => hostCancelJob s p
  | none =>
    let o := a / 64 * 64
    let s := memPut s o (List.replicate 64 0)
    (List.range 8).foldl (fun s i => setBad s (o + 8 * i) 0) s

/-- Bad codes of the eight words of the line at `a`, and of its owner tag as word 8. -/
def lineCodes (s : State) (a : Nat) : List (Nat × Nat) :=
  ((List.range 8).map (fun i => (i, badAt s (a + 8 * i))) ++ [(8, tagBadAt s a)]).filter (fun e => decide (e.2 ≠ 0))

/-- The dredger at core `g` reads the line at `a`, whose first word is word `w` of array `arr` and whose tag is entry `w / 8` of the
owner tags: corrected words are counted, and one that is uncorrectable is counted and reported. -/
def dredgeAt (s : State) (g a arr w : Nat) : State :=
  let bad := lineCodes s a
  let place (i : Nat) : Nat × Nat := if i = 8 then (11, w / 8) else (arr, w + i)
  let s := (bad.filter (fun e => decide (e.2 ≠ 1000))).foldl (fun s e => postError s g 0 (place e.1).1 (place e.1).2 1) s
  match bad.find? (fun e => e.2 = 1000) with
  | some e => reportLine (postError s g 2 (place e.1).1 (place e.1).2 1) (layerKey g) a
  | none => s

/-- The dredger reads one scratchpad line; one with corrected words is to be written back. -/
def dredgeLine (s : State) (g off : Nat) : State :=
  let ce := (lineCodes s (sliceAddr g off)).any (fun e => decide (e.2 ≠ 1000))
  let s := dredgeAt s g (sliceAddr g off) 0 (off / 8)
  if ce then post s none (s.now + 1) 41 none (.instr (.dredgerWriteback g off)) else s

/-- The corrected words and tag of the line at `a` have no bad bit any more. -/
def cleanLine (s : State) (a : Nat) : State :=
  let s := (List.range 8).foldl (fun s i => if badAt s (a + 8 * i) = 1000 then s else setBad s (a + 8 * i) 0) s
  if tagBadAt s a = 1000 then s else { s with tagBad := tabDel s.tagBad (a / 64) }

/-- Arrays walked beside the scratchpad, 64 bytes at a time: key in `Core.dredge`, array code, words, words a line. -/
def dredgeArrays : List (Nat × Nat × Nat × Nat) := [(16, 1, 32768, 8), (18, 2, 8192, 8), (19, 6, 8192, 8), (20, 7, 64, 8)]

/-- The dredger's own array numbers: an array's code of R396, and for what that code 8 covers 13, the shadow store of a die layer by 64-bit word,
14 its owner tags by line, and 15 and 16, the shadows of accumulators and of margins. -/
def arrayBad (s : State) (g arr : Nat) : List (Nat × Nat) :=
  let c := coreOf s g
  let base := shadowAddr (layerKey g) 0
  let store (m : Nat) (t : Tab Nat) : List (Nat × Nat) :=
    (t.filter (fun e => decide (base / m ≤ e.1) && decide (e.1 < (base + 2 ^ 27) / m))).map (fun e => (e.1 - base / m, e.2))
  if arr = 6 then c.codeBad
  else if arr = 13 then store 8 s.memBad
  else if arr = 14 then store 64 s.tagBad
  else if arr = 15 ∨ arr = 16 then
    (c.shadow.bad.filter (fun e => e.1 / 2 ^ 24 = arr - 14)).map (fun e => (e.1 % 2 ^ 24, e.2))
  else if arr = 12 then (s.tableBad.filter (fun e => e.1 / 4096 = layerKey g)).map (fun e => (e.1 % 4096, e.2))
  else (c.live.bad.filter (fun e => e.1 / 2 ^ 24 = arr)).map (fun e => (e.1 % 2 ^ 24, e.2))

/-- What line `n` of an array holds, so that a write to it before its write-back can be told. -/
def lineView (s : State) (g arr n : Nat) : List Nat :=
  let c := coreOf s g
  let acc (x : Live) : List Nat := (List.range 8).map (fun i => (tabGet (zeroAt (w := 64)) x.acc (8 * n + i)).toNat)
  let marg (x : Live) : List Nat := (List.range 16).map (fun i => (tabGet (zeroAt (w := 32)) x.marg (16 * n + i)).toNat)
  if arr = 1 then acc c.live
  else if arr = 2 then marg c.live
  else if arr = 13 ∨ arr = 14 then
    let a := shadowAddr (layerKey g) (64 * n)
    tagOf s a :: (memBytes s a 64).map BitVec.toNat
  else if arr = 15 then acc c.shadow
  else if arr = 16 then marg c.shadow
  else if arr = 6 then (List.range 16).map (fun i => (tabGet (zeroAt (w := 32)) c.code (16 * n + i)).toNat)
  else if arr = 7 then (List.range 8).map (fun i => (dirEntry c (8 * n + i)).toNat)
  else (List.range 4).map (fun i => (tableEntry s (layerKey g) (4 * n + i)).toNat)

/-- A word of an array has no bad bit any more. -/
def cleanWord (s : State) (g arr w : Nat) : State :=
  if arr = 12 then { s with tableBad := tabDel s.tableBad (layerKey g * 4096 + w) }
  else if arr = 13 then setBad s (shadowAddr (layerKey g) (8 * w)) 0
  else if arr = 14 then { s with tagBad := tabDel s.tagBad (shadowAddr (layerKey g) (64 * w) / 64) }
  else modCore s g (fun c =>
    if arr = 6 then { c with codeBad := tabDel c.codeBad w }
    else if arr = 15 ∨ arr = 16 then { c with shadow := { c.shadow with bad := tabDel c.shadow.bad (badKey (arr - 14) w) } }
    else { c with live := { c.live with bad := tabDel c.live.bad (badKey arr w) } })

/-- How the counters name word `w` of an array of the dredger (R396, R399). -/
def dredgeName (arr w : Nat) : Nat × Nat :=
  if arr = 15 ∨ arr = 16 then (8, shadowWord (arr - 14) w)
  else (arr, errorWord arr w)

/-- Line `n` of an array, of `per` words a line, is to be written back in the next cycle where it has corrected words (R400). -/
def postScrub (s : State) (g arr per n : Nat) : State :=
  let bad := (arrayBad s g arr).filter (fun e => e.1 / per = n)
  if bad.all (fun e => e.2 = 1000) then s
  else post s none (s.now + 1) 41 none (.perform g (.scrub arr n (lineView s g arr n) bad))

/-- The dredger reads line `n` of an array, of `per` words a line: corrected words are counted and the line is written back, and the
first uncorrectable one is counted as found (R400, R401). -/
def dredgeWords (s : State) (g arr per n : Nat) : State :=
  let bad := (arrayBad s g arr).filter (fun e => e.1 / per = n)
  let ce := bad.filter (fun e => decide (e.2 ≠ 1000))
  let count (s : State) (kind : Nat) (e : Nat × Nat) : State :=
    postError s g kind (dredgeName arr e.1).1 (dredgeName arr e.1).2 1
  let s := ce.foldl (fun s e => count s 0 e) s
  let s := match bad.find? (fun e => e.2 = 1000) with
    | some e => count s 2 e
    | none => s
  postScrub s g arr per n

/-- The write-back of a line of an array: its corrected words are clean, unless the line has been written in between. DESIGN
CHOICE (log entry 56): a write that leaves every word of the line as it was drops nothing. -/
def scrubNow (s : State) (g arr n : Nat) (view : List Nat) (bad : List (Nat × Nat)) : State :=
  if lineView s g arr n = view ∧ bad.all (fun e => (arrayBad s g arr).contains e) = true then
    (bad.filter (fun e => decide (e.2 ≠ 1000))).foldl (fun s e => cleanWord s g arr e.1) s
  else s

/-- Pointer `key` of a walk of `lines` lines, and its step. -/
def dredgePtr (s : State) (g key : Nat) : Nat := (tabGet (zeroAt (w := 64)) (coreOf s g).dredge key).toNat
def stepDredge (s : State) (g key lines : Nat) : State :=
  let n := dredgePtr s g key
  modCore s g (fun c => { c with dredge := tabSet zeroAt c.dredge key (BitVec.ofNat 64 ((n + 1) % lines)) })

/-- The dredger reads one line of an array of the live state. -/
def dredgeArray (s : State) (g : Nat) (a : Nat × Nat × Nat × Nat) : State :=
  stepDredge (dredgeWords s g a.2.1 a.2.2.2 (dredgePtr s g a.1)) g a.1 (a.2.2.1 / a.2.2.2)

/-- The dredger reads one line of the shadow of the accumulators and of the margin storage. -/
def dredgeShadow (s : State) (g : Nat) : State :=
  let n := dredgePtr s g 17
  stepDredge (if n < 4096 then dredgeWords s g 15 8 n else dredgeWords s g 16 8 (n - 4096)) g 17 5120

/-- The control core reads line `n` of the shadow store of its die layer, as a line of a scratchpad: corrected words and tag are
written back (R400, R401). DESIGN CHOICE (log entry 56): R396 has no code for the shadow store, whose words are reported as array 8. -/
def dredgeStore (s : State) (g n : Nat) : State :=
  let s := dredgeAt s g (shadowAddr (layerKey g) (64 * n)) 8 (8 * n)
  postScrub (postScrub s g 13 8 n) g 14 1 n

/-- The control core of a die layer walks the layer's shadow store, and the layer's table copy, whose uncorrectable entries it
repairs (R400, R413). -/
def dredgeLayer (s : State) (g : Nat) : State :=
  let s := dredgeStore s g (dredgePtr s g 21)
  let n := dredgePtr s g 22
  let s := if (arrayBad s g 12).any (fun e => e.1 / 4 = n && e.2 = 1000) then askRepair s g else s
  stepDredge (stepDredge (dredgeWords s g 12 4 n) g 21 1638400) g 22 1024

/-- The walk of a core: one line of every bank whose read port is free, one line of each other array, and the walk's registers
(R400, R402). -/
def dredgeCore (s : State) (g : Nat) : State :=
  let c := coreOf s g
  let count (b : Nat) : Nat := (tabGet zeroAt c.dredge b).toNat
  let line (b : Nat) : Nat := b / 4 * 2 ^ 19 + count b % 2048 * 256 + b % 4 * 64
  let banks := (List.range 16).filter (fun b => svcFree s g (line b) true)
  let hit := s.memBad.any (fun e => e.1 * 8 / 2 ^ 30 = g) || s.tagBad.any (fun e => e.1 * 64 / 2 ^ 30 = g)
  let s := if hit then banks.foldl (fun s b => dredgeLine s g (line b)) s else s
  let s := modCore s g (fun c =>
    let d := banks.foldl (fun t b => tabSet zeroAt t b (BitVec.ofNat 64 (count b + 1))) c.dredge
    let low := (List.range 16).foldl (fun m b => min m (tabGet zeroAt d b).toNat) (tabGet zeroAt d 0).toNat
    let w := withField (withField (sysGet c 0x428) 32 11 (low % 2048)) 16 16 (low / 2048)
    { sysSet c 0x428 w with dredge := d })
  dredgeShadow (dredgeArrays.foldl (fun s a => dredgeArray s g a) s) g

/-- DREDGER_STEP of a core or of a control core; none while a save or restore uses the arrays (R435) or a survey the layer
(R347). -/
def execDredgerStep (g : Nat) (s : State) : Host.Outcome State Fault Refusal :=
  .next (if contextBusy s g || surveyRuns s g then s
  else if isControl g then dredgeLayer s g
  else if fieldOf (sysGet (coreOf s g) 0x428) 0 1 = 0 then s
  else dredgeCore s g)

/-- DREDGER_WRITEBACK: a line with corrected words is written back when its write port is free, its tag and MST unchanged.
A write to the line in between has dropped it (`dropWritebacks`). -/
def execDredgerWriteback (g off : Nat) (s : State) : Host.Outcome State Fault Refusal :=
  .next (if svcFree s g off false then cleanLine s (sliceAddr g (off / 64 * 64))
  else post s none (s.now + 1) 41 none (.instr (.dredgerWriteback g off)))

end Sys2Proof.Machine
end

