-- ==== Sys2Proof/Machine/Recovery.lean ====
section
/-! DEFINITION. Rollback and recovery as they run on (15, R361, R365 to R371, R376, R461; 17, R411, R420): the undo, the
handler's entry, the re-entry, deferred landings, the slip at cycle m + C, and the hold after a horizon completion. -/

namespace Sys2Proof.Machine

/-! ### Undo and restore (R361) -/

/-- UNDO_WRITEBACK: one entry a cycle, last first, its poisoned words counted (array code 10, R396, R399); in the cycle after
the last, the shadow returns. -/
def execUndoWriteback (g : Nat) (s : State) : Host.Outcome State Fault Refusal :=
  let c := coreOf s g
  .next (match c.pass.undo.reverse with
  | u :: _ =>
    let s := restoreLine s g (u.off / 64) u.bytes u.tag u.bad
    let s := postError s g 1 10 (c.pass.undo.length - 1) u.bad.length
    let s := modCore s g (fun c => { c with pass := { c.pass with undo := c.pass.undo.dropLast } })
    postAt s g (cnow s g + 1) 36 none (.instr (.undoWriteback g))
  | [] => modCore s g (fun c => { c with live := if inhibited c then c.shadow2 else c.shadow }))

/-! ### The handler's entry (R367, R373) -/

/-- HANDLER_ENTRY. -/
def execHandlerEntry (g : Nat) (s : State) : Host.Outcome State Fault Refusal :=
  let o := handlerOff (coreOf s g)
  let s := modCore s g (fun c => { setInh c true with pc := o, pass := Pass.none, run := .running })
  .next (if tabGet (fun _ => false) (coreOf s g).codeValid (o / 4) then postAt s g (cnow s g) 22 none (.issue g)
  else stopCore s g)

/-! ### Re-entry (R365, R369, R370, R411, R461) -/

/-- What the redone pass takes over from the instance rolled back (R365), with the place of its mooring bundle, to which a
fault of the re-issued bundle itself returns (R369, R370). -/
def redonePass (rl : Roll) : Pass :=
  { Pass.none with
    id := { rl.pass.id with serial := 0 }, off := rl.pass.off, m := rl.pass.m
    hcpySkip := max rl.pass.hcpys rl.pass.hcpySkip, shares := rl.pass.shares
    mmagSkip := rl.pass.mmags ++ rl.pass.mmagSkip, added := rl.pass.added }

/-- The slips of the handler pass that RETT or RESYNC ended at cycle `c`, which the mooring bundle re-issued at `off` finds
(R355, R376). DESIGN CHOICE (log entry 56): the re-issue counts no cycles (R369), so the count is taken as at a HALT. -/
def handlerSlips (s : State) (g : Nat) (p : Pass) (c off : Nat) : List FaultRec :=
  if p.id.serial = 0 then [] else (endSlips s g p (c + corePace s g)).map (fun r => { r with bundle := off })

/-- A fault is taken at the re-entry: the core rolls back to the same entry state once more (R461), and the record names
pass `p`, whose loop coordinates were `lc`. -/
def takeHeld (s : State) (g : Nat) (rl : Roll) (p : Pass) (lc : Tab (BitVec 32)) (r : FaultRec) : State :=
  let s := modCore s g (fun c => { c with
    run := .running, heldFaults := c.heldFaults.erase r
    pass := { rl.pass with undo := [], homes := [], next := none, atMoor := [] } })
  modCore (rollback s g (cnow s g) r) g (fun c => writeRecord c g (cnow s g) p lc r)

/-- SEGMENT_REENTRY: while a table service is wanted the core goes on waiting; a held fault, or a slip of the handler's last
pass, is taken; else that pass commits and the faulted segment's mooring bundle is due. -/
def execSegmentReentry (g : Nat) (s : State) : Host.Outcome State Fault Refusal :=
  let c := coreOf s g
  let t := cnow s g
  .next (match c.run, c.roll with
  | .reenter resync at_, some rl =>
    if fieldOf (sysGet c 0x451) 0 1 = 1 then
      postAt s g (if resync then t + 4096 else paceUp (corePace s g) (t + 1)) 21 none (.instr (.segmentReentry g))
    else
      let slips := handlerSlips s g c.pass at_ rl.pass.off
      match firstFault (c.heldFaults ++ slips) with
      | some r => if slips.contains r then takeHeld s g rl c.pass c.shadow2.lc r else takeHeld s g rl rl.pass c.shadow.lc r
      | none =>
        let s := if c.pass.id.serial = 0 then s else sendCommits s g c.pass t
        let s := modCore s g (fun c => { c with
          pass := redonePass rl, pc := rl.pass.off, roll := none, run := .running, recovery := true
          recoverySync := resync, deferEnd := 0 })
        postAt s g t 22 none (.issue g)
  | _, _ => s)

/-! ### Deferred landings (R371) -/

/-- The offset a deferred landing writes, whether it is a bank-ALU operation, and its effect. -/
def deferredUse (s : State) (i : Instr) : Option (Nat × Bool × (State → State)) :=
  match i with
  | .stagedWriteLanding id =>
    (flitOf s id).bind (fun f => match landedBytes s f.home f.load with
      | some (w :: _, _, _) => some (w.1, false, fun s => stagedNow s f)
      | _ => none)
  | .ratomLanding id =>
    (flitOf s id).bind (fun f => match f.load with
      | .atom off .. => some (off, true, fun s => ratomNow s f)
      | _ => none)
  | .reductionMerge id e =>
    (flitOf s id).bind (fun f => match f.load with
      | .merge _ _ es => some ((es.getD e (0, 0)).1, true, fun s => mergeNow s { f with st := f.st % 8 } e)
      | _ => none)
  | .gangCompletionAdd from_ home off => some (off, true, fun s => addNow s from_ home off)
  | .pieceTransfer op k _ => (xferOf s op).map (fun x => (pieceOff x k, false, fun s => if x.cancelled then s else pieceWrite s x k))
  | _ => none

/-- One deferred landing: it is written when its port is free, a bank-ALU operation two cycles after its read (R158). -/
def deferredStep (g : Nat) (s : State) (d : Nat × Instr) : State :=
  let t := cnow s g
  let c := coreOf s g
  match deferredUse s d.2 with
  | none => s
  | some (off, alu, act) =>
    let b := bankOf off
    if ownTaken c b (off / 64) t alu || landingTaken c b (if alu then t + 2 else t) then
      modCore s g (fun c => { c with deferred := c.deferred ++ [d] })
    else modCore (act (takeForeign s g off t alu)) g (fun c => { c with deferEnd := max c.deferEnd (if alu then t + 2 else t) })

/-- DEFERRED_LANDING: the landings that wait, in the order they were due. -/
def execDeferredLanding (g : Nat) (s : State) : Host.Outcome State Fault Refusal :=
  let ds := (coreOf s g).deferred
  let s := modCore s g (fun c => { c with deferred := [] })
  let s := ds.foldl (deferredStep g) s
  .next (if (coreOf s g).deferred = [] then s else postDeferred s g)

/-! ### The slip at cycle m + C (R376) -/

/-- Is a bundle of core `g` due in this cycle? -/
def issueDue (s : State) (g : Nat) : Bool :=
  s.agenda.any (fun d => d.clk = clkOf s g && d.cyc = cnow s g && d.ev = .issue g)

/-- Does the count reach C in this cycle with no mooring bundle due that may end the pass? A poisoned first word is left to the fetch,
whose UNCORR comes before the slip (R355). -/
def slipsNow (s : State) (g : Nat) : Bool :=
  let c := coreOf s g
  c.run = .running && decide (c.pass.id.serial ≠ 0) && c.pass.next ≠ some .haltUnit &&
    decide (passCount c.pass (cnow s g) = c.pass.c) && !(issueDue s g && mayMoor c)

/-- CYCSLIP: the count reaches C. A mooring bundle that issues in this cycle ends the pass; any other, or none, is a slip
of subclass 2. -/
def execCycslip (g : Nat) (s : State) : Host.Outcome State Fault Refusal :=
  .next (if slipsNow s g then findFault s g 21 (slipFault s g 2 (coreOf s g).pass (cnow s g)) else s)

/-! ### Horizon completions (R420) -/

/-- The core's own timetable moves on by one tide. -/
def shiftTide (s : State) (g : Nat) : State :=
  { s with agenda := s.agenda.map (fun d =>
      if d.ev = .issue g ∨ d.ev = .instr (.cycslip g) ∨ d.ev = .instr (.horizonResume g) then
        { d with cyc := d.cyc + 4096 } else d) }

/-- The core issues nothing for one tide after a horizon completion was decided; one held at a rendezvous is released no
earlier than its end. -/
def holdHorizon (s : State) (g : Nat) : State :=
  let t := cnow s g
  match (coreOf s g).run with
  | .running =>
    let s := modCore (shiftTide s g) g (fun c => { c with
      run := .horizon, pass := { c.pass with held := c.pass.held + 4096 } })
    postAt s g (t + 4097) 18 none (.instr (.horizonResume g))
  | .horizon => modCore (shiftTide s g) g (fun c => { c with pass := { c.pass with held := c.pass.held + 4096 } })
  | .held _ _ => modCore s g (fun c => { c with deferEnd := max c.deferEnd (t + 4096), soft := true })
  | _ => s

/-- HORIZON_RESUME: the core issues again, as in a recovery run. -/
def execHorizonResume (g : Nat) (s : State) : Host.Outcome State Fault Refusal :=
  .next (match (coreOf s g).run with
  | .horizon => modCore s g (fun c => { c with run := .running, recovery := true, recoverySync := false, soft := true })
  | _ => s)

end Sys2Proof.Machine
end

