-- ==== Sys2Proof/Machine/Launch.lean ====
section
/-! DEFINITION. Releases and launches: rendezvous (02, R62 to R68; 08, R236 to R240), cancels (02, R72, R73), safe points
(18, R438 to R440), publications taken (18, R444), launch points with staging, selection and ageing (02, R74 to R79; 12,
R341, R342), and the start of a job (02, R69; 12, R338). -/

namespace Sys2Proof.Machine

/-! ### Launches -/

def modLaunch (s : State) (p e : Nat) (f : Launch → Launch) : State :=
  modPart s p (fun x => { x with launches := x.launches.map (fun l => if l.entry = e then f l else l) })

/-- A queue entry moves to a state. -/
def setEntry (x : Part) (e st : Nat) : Part := setQueue x e (qSet (queueEntry x e) 59 3 st)

/-- The launches of a partition that are running. -/
def running (x : Part) : List Launch := x.launches.filter (fun l => decide (l.cores ≠ []))

/-- A unit has halted (R71). -/
def unitDone (s : State) (g : Nat) : State :=
  match partOfCore s g, (coreOf s g).entry with
  | some p, some e =>
    modLaunch s p e (fun l => { l with done := l.done + 1, finished := l.finished ++ [(coreOf s g).vid] })
  | _, _ => s

/-- A core leaves its launch; with the last of them the entry is done, or cancelled (R69, R73). A launch stopped at a safe
point stays as it is (R440). -/
def leaveLaunch (s : State) (g : Nat) : State :=
  match partOfCore s g, launchOf s g with
  | some p, some l =>
    let rest := l.cores.filter (· ≠ g)
    let s := modLaunch s p l.entry (fun l => { l with cores := rest })
    if l.cores.contains g ∧ rest = [] ∧ l.stopped = [] then
      modPart s p (fun x => setEntry x l.entry (if l.canc then 4 else 3))
    else s
  | _, _ => s

/-- A core's part in its launch is over with its last unit and its last landing (R69, R71). -/
def berthOver (s : State) (g : Nat) : State :=
  let c := coreOf s g
  if c.berth = [] ∧ lastLanding c (cnow s g) = cnow s g then leaveLaunch s g else s

/-- An idle core arrives at the standing launch point (R74). -/
def arriveIdle (s : State) (g : Nat) : State :=
  let s := modCore s g (fun c => { c with run := .idle, entry := none, berth := [], pass := Pass.none })
  match partOfCore s g with
  | some p => arriveRdv s g 4 64 (enclosingScope (partCores s p)) 0 0 0
  | none => s

/-- CORE_IDLE (R74). -/
def execCoreIdle (g : Nat) (s : State) : Host.Outcome State Fault Refusal :=
  .next (match (coreOf s g).run with
  | .held _ _ => s
  | _ => arriveIdle s g)

/-! ### Cancels (R72, R73) -/

/-- Does a cancel name the launch, or the queue entry? -/
def cancNames (x : Part) (lvl id e : Nat) : Bool :=
  let w := queueEntry x e
  match lvl with
  | 0 => decide (e = id)
  | 1 => decide (qGraph w = id)
  | 2 => decide (qPhase w = id)
  | _ => decide (x.job = id)

/-- Does the partition carry the level instance? -/
def cancKnown (x : Part) (lvl id : Nat) : Bool :=
  let live := x.queue.filter (fun e => decide (qState e.2 = 1 ∨ qState e.2 = 2 ∨ qState e.2 = 5))
  match lvl with
  | 0 => live.any (fun e => e.1 = id)
  | 1 => live.any (fun e => qGraph e.2 = id)
  | 2 => decide (x.phase = id) || live.any (fun e => qPhase e.2 = id)
  | _ => decide (x.job = id)

/-- The graph and phase instances that a cancel reaches: a phase cancel reaches all its graphs (R70, R73). -/
def cancInsts (x : Part) (lvl id : Nat) : List (Nat × Nat) :=
  match lvl with
  | 1 => [(1, id)]
  | 2 => (2, id) :: (phaseCounts x id).map (fun e => (1, e.1))
  | _ => []

/-- CANCEL_VISIBLE: CANC is set in the registers of the instance; its entries move at the next launch point, and its
cores stop at their next rendezvous. -/
def execCancelVisible (p : Nat) (lvl : BitVec 2) (id : BitVec 16) (s : State) : Host.Outcome State Fault Refusal :=
  .next (modPart s p (fun x =>
    if cancKnown x lvl.toNat id.toNat && decide (3 ≤ x.state) then
      { x with
        canc := x.canc ++ [⟨lvl.toNat, id.toNat, x.tide, x.enq⟩]
        cancInst := x.cancInst ++ ((cancInsts x lvl.toNat id.toNat).filter (fun e => !x.cancInst.contains e)).eraseDups
        jobCanc := x.jobCanc || decide (lvl = 3)
        launches := x.launches.map (fun l =>
          if l.cores ≠ [] ∧ cancNames x lvl.toNat id.toNat l.entry = true then { l with canc := true } else l) }
    else x))

/-- A core stops at the release `t` for a cancel: its pass sends no commit, what it staged is recalled, and the core
becomes idle after its last landing (R73). -/
def abandonUnit (s : State) (g t : Nat) : State :=
  let c := coreOf s g
  let lnd := t + 1 + bigHorizon s g
  let s := c.pass.homes.foldl (fun s h =>
    launchFlit s (newFlit s g h.home c.pass.id (t + 1) lnd h.lback h.path (.recall c.pass.id))) s
  let l := lastLanding c t
  let s := newUnit (modCore s g (fun c => { c with run := .ending, berth := [], pass := Pass.none, resume := [] })) g t
  let s := postAt (postAt s g l 26 none (.perform g .berthEnd)) g l 35 none (.perform g .clearUnit)
  postAt s g (l + 1) 30 none (.instr (.coreIdle g))

/-! ### Safe points (R438 to R440) -/

/-- Is a CKPT command's migration stop pending (R440)? -/
def ckptPends (x : Part) : Bool :=
  match x.ckptAsked with
  | some v => decide (v ≤ x.tide)
  | none => false

/-- Has the partition a failed peer, a stopped core among them (R422)? -/
def peerStops (x : Part) : Bool := x.failed.any (fun y => match y with
  | .link _ _ => false
  | _ => true)

/-- Is a migration stop pending that concerns every launch (R440)? -/
def allStop (x : Part) : Bool := ckptPends x || peerStops x

/-- Is a migration stop pending for some launch (R440)? -/
def stopPends (x : Part) : Bool := x.launches.any (·.stopPending) || allStop x

/-- The segment ordinal of the safe point at which the core stands: the bundle due is a mooring bundle with SAFE. -/
def safeOrdinal (c : Core) : Option Nat :=
  let w := tabGet (zeroAt (w := 32)) c.code (c.pc / 4)
  let k := tabGet (zeroAt (w := 32)) c.code (c.pc / 4 + 3)
  if isMoorWord w && k.getLsbD 13 then some (w.toNat % 2 ^ 19) else none

/-- The safe point at which core `g` stops now, if a stop is pending for its launch: one that no publication touches runs to
completion (R444). -/
def stopsHere (s : State) (g : Nat) : Option Nat :=
  match partOfCore s g, launchOf s g with
  | some p, some l =>
    if (l.stopPending || allStop (partOf s p)) && !inhibited (coreOf s g) then safeOrdinal (coreOf s g) else none
  | _, _ => none

/-- The record of the unit of core `g` at safe point `o` (R441). -/
def unitRecord (s : State) (g o : Nat) : CkUnit :=
  let c := coreOf s g
  let xs := ((coreImage s g).map (·.extents)).getD []
  { vid := c.vid, s := c.live.s, lc := c.live.lc
    extents := (xs.filter (fun e => e.1 = o)).map (fun e => (e.2.2.1, sliceBytes s g e.2.2.1 e.2.2.2)) }

/-- A unit stops at safe point `o` (R439): its record is taken, the rest of the berth list is not started, and the core is
idle. -/
def stopUnit (s : State) (g o : Nat) : State :=
  match partOfCore s g, launchOf s g with
  | some p, some l =>
    let s := modLaunch s p l.entry (fun l => { l with stopped := l.stopped ++ [unitRecord s g o], ord := o })
    arriveIdle (leaveLaunch (newUnit s g (cnow s g)) g) g
  | _, _ => s

/-! ### Publications (R443, R444) -/

/-- Does a publication of package `n` touch the image? -/
def touches (i : Image) (n mask : Nat) (pod : Bool) : Bool :=
  i.useLayers.any (fun u => u.1 = n && decide (u.2 &&& mask ≠ 0)) || (pod && i.usePod)

/-- The launch of core `g` takes the publications with p + H at or before `a`: one that touches its image makes a migration
stop pending. -/
def takePubs (s : State) (g a : Nat) : State :=
  match partOfCore s g, launchOf s g, coreImage s g with
  | some p, some l, some i =>
    let x := partOf s p
    let h := if x.pod then scopeHorizon s g 6 else 0
    let new := (x.pubs.drop l.taken).takeWhile (fun e => decide (e.1 + h ≤ a))
    let hit := new.any (fun e => touches i e.2.1 e.2.2.1 e.2.2.2)
    modLaunch s p l.entry (fun l => { l with taken := l.taken + new.length, stopPending := l.stopPending || hit })
  | _, _, _ => s

/-! ### Rendezvous (R64, R67, R371, R420) -/

/-- The earliest release that the deferred landings and the holds of the members allow. -/
def rdvHold (s : State) (r : Rdv) (t : Nat) : Nat :=
  r.members.foldl (fun m g =>
    let c := coreOf s g
    if c.recovery || c.soft then max m (max (if c.deferred = [] then 0 else t + 1) (c.deferEnd + 1)) else m) 0

/-- A member goes on at the release `t` after its arrival at `a`: its held cycles leave the count (R54), a recovery run
ends, and its next bundle issues. -/
def leaveRdv (s : State) (g a t : Nat) : State :=
  let s := modCore s g (fun c =>
    let again := c.soft && !c.recovery
    { c with run := .running, pass := { c.pass with held := c.pass.held + (t - 1 - a) }
             recovery := again, soft := again, recoverySync := false, deferEnd := 0 })
  let p := (coreOf s g).pass
  let s := if p.id.serial = 0 then s else postAt s g (p.m + p.c + p.held) 21 none (.instr (.cycslip g))
  postAt s g t 22 none (.issue g)

/-- A running member at the release `t`: it stops for a cancel or at a safe point, or goes on. -/
def releaseMember (s : State) (g a t : Nat) : State :=
  if ((launchOf s g).map (·.canc)).getD false then abandonUnit s g t
  else
    match stopsHere s g with
    | some o => stopUnit s g o
    | none => leaveRdv s g a t

/-- All members of a rendezvous are released at `t`. -/
def releaseAll (s : State) (r : Rdv) (t : Nat) : State :=
  let s := { s with rdvs := s.rdvs.filter (fun x => x.id ≠ r.id) }
  let s := r.members.foldl settle s
  let k := (r.group, rdvKeeper r)
  let s := modPart s r.part (fun x => { x with groupRel := x.groupRel.filter (fun e => e.1 ≠ k) ++ [(k, t)] })
  let s := r.members.foldl (fun s g => takePubs s g (rdvLast r)) s
  r.arrivals.foldl (fun s x => releaseMember s x.1 x.2.1 t) s

/-- RENDEZVOUS_RELEASE. -/
def execRendezvousRelease (id : Nat) (s : State) : Host.Outcome State Fault Refusal :=
  match s.rdvs.find? (fun r => r.id = id) with
  | none => .next s
  | some r =>
    let t := timeOn s (some r.part)
    let n := rdvHold s r t
    .next (if rdvFailed s r then setRdv s { r with posted := false }
    else if t < n then
      post s (some r.part) (paceUp (rdvPace s r) n) 18 none (.instr (.rendezvousRelease id))
    else releaseAll s r t)

/-- WATERMARK_COMPARE (R65): the watermark has reached the threshold, or a host-wait freeze is decided. -/
def execWatermarkCompare (id : Nat) (s : State) : Host.Outcome State Fault Refusal :=
  match s.rdvs.find? (fun r => r.id = id) with
  | none => .next s
  | some r =>
    .next (if reachedMark s r then rdvTry (setRdv s { r with q := some 0, posted := false }) id
    else decideFreeze s r.part 1 (timeOn s (some r.part)))

/-! ### Selection and staging (R77, R78, R341) -/

/-- Is the image one for the specimens and map versions in force at every package it names, its own package `n` among them (R11,
R352, R431)? -/
def mapsInForce (s : State) (n : Nat) (i : Image) : Bool :=
  i.maps.any (fun m => m.1 = n) &&
  i.maps.all (fun m => decide (m.2.1 = (pkgOf s m.1).spec.toNat) && decide (m.2.2 = (pkgOf s m.1).version.toNat))

/-- The image of a handle, if it is loaded and bound to the maps in force (R444). -/
def boundImage (s : State) (p h : Nat) : Option Loaded := (imageOf s p h).filter (fun i => mapsInForce s (p / 8) i.img)

/-- Is queue entry `e` ready (R77)? -/
def entryReady (s : State) (p e : Nat) : Bool :=
  let x := partOf s p
  let w := queueEntry x e
  decide (qState w = 1) && decide (qPhase w = x.phase) && (boundImage s p (qHandle w)).isSome &&
  (List.range 8).all (fun i => decide (qPredv w / 2 ^ i % 2 = 0) ||
    (let t := qState (queueEntry x (qPred w i)); decide (t = 3 ∨ t = 0)))

/-- Selection order (R78): higher PRIO first, then the older. -/
def before (x : Part) (a b : Nat) : Bool :=
  let u := queueEntry x a
  let v := queueEntry x b
  decide (qPrio v < qPrio u) || (decide (qPrio u = qPrio v) && decide (qOrd u < qOrd v))
def insertEntry (x : Part) (e : Nat) : List Nat → List Nat
  | [] => [e]
  | y :: t => if before x e y then e :: y :: t else y :: insertEntry x e t

/-- The ready entries in selection order. -/
def readyEntries (s : State) (p : Nat) : List Nat :=
  ((List.range 64).filter (entryReady s p)).foldl (fun l e => insertEntry (partOf s p) e l) []

/-- The die layers an entry needs, as a mask. -/
def entryNeed (x : Part) (e : Nat) : Nat :=
  let w := queueEntry x e
  if qWhole w then x.layers else qLayers w

/-- The free die layers: every good core on them is idle. -/
def freeLayers (s : State) (p : Nat) : Nat :=
  ((List.range 8).filter (fun l => (partOf s p).layers / 2 ^ l % 2 = 1 &&
    (partCores s p).all (fun g => layerOf g ≠ l || (coreOf s g).entry.isNone))).foldl (fun m l => m + 2 ^ l) 0

/-- Selection (R78), in order, from the free layers: it stops at a whole-partition entry that cannot start. -/
def selectFrom (x : Part) : List Nat → Nat → List Nat
  | [], _ => []
  | e :: es, free =>
    let need := entryNeed x e
    if need &&& free = need then e :: selectFrom x es (free - need)
    else if qWhole (queueEntry x e) then []
    else selectFrom x es free

/-- The staged set at A: launches of a checkpoint first, then the selection; none while a stop is pending (R440). -/
def stagedSet (s : State) (p : Nat) : List Nat :=
  let x := partOf s p
  if stopPends x then []
  else
    let free := freeLayers s p
    let old := (x.resume.map (·.entry)).filter (fun e =>
      (boundImage s p (qHandle (queueEntry x e))).isSome && decide (entryNeed x e &&& free = entryNeed x e))
    let used := old.foldl (fun m e => m ||| entryNeed x e) 0
    old ++ selectFrom x (readyEntries s p) (free - used % 256)

/-- The berth lists of a staged entry in this package: core, units, entry offset. Units that a checkpoint records as done
are left out (R442). -/
def entryBerths (s : State) (p e : Nat) : List (Nat × List Nat × Nat) :=
  let x := partOf s p
  match imageOf s p (qHandle (queueEntry x e)) with
  | none => []
  | some i =>
    let done := ((x.resume.find? (fun c => c.entry = e)).map (fun c =>
      (c.status.filter (fun u => u.2 = 2)).map (·.1))).getD []
    ((i.img.berths.filter (fun b => b.1 / 512 = p / 8)).map (fun b => (b.1, b.2.1.filter (fun v => !done.contains v), b.2.2))).filter
      (fun b => decide (b.2.1 ≠ []))

/-- The stopped units that a core's berth list resumes, with the offset of the safe point's mooring bundle (R442). -/
def entryResume (s : State) (p e : Nat) (vids : List Nat) : List (CkUnit × Nat) :=
  let x := partOf s p
  match x.resume.find? (fun c => c.entry = e), imageOf s p (qHandle (queueEntry x e)) with
  | some c, some i =>
    let o := ((i.img.moors.find? (fun m => m.1 = c.ord)).map (·.2)).getD 0
    (c.units.filter (fun u => vids.contains u.vid)).map (fun u => (u, o))
  | _, _ => []

/-- Bytes cut at the lines of a slice. -/
def cutLines : Nat → Nat → List Byte → List (Nat × List Byte)
  | 0, _, _ => []
  | f + 1, o, bs =>
    if bs = [] then []
    else
      let n := 64 - o % 64
      (o, bs.take n) :: cutLines f (o + n) (bs.drop n)

/-- The cores of this package that a staged entry stages: those with a berth, and those with data or registers alone (R208). -/
def entryStaged (s : State) (p e : Nat) : List (Nat × List Nat × Nat) :=
  let bs := entryBerths s p e
  match imageOf s p (qHandle (queueEntry (partOf s p) e)) with
  | none => bs
  | some i =>
    let more := dedup ((i.img.data.map (·.1) ++ i.img.regs.map (·.1)).filter (fun g =>
      g / 512 = p / 8 && !bs.any (fun b => b.1 = g)))
    bs ++ more.map (fun g => (g, [], 0))

/-- What staging writes into the slice of a core: the image's data, and the extents of the unit that resumes first. -/
def stagedData (s : State) (p e : Nat) (b : Nat × List Nat × Nat) : List (Nat × List Byte) :=
  match imageOf s p (qHandle (queueEntry (partOf s p) e)) with
  | none => []
  | some i =>
    let ds := (i.img.data.filter (fun d => d.1 = b.1)).map (·.2)
    let us := match b.2.1 with
      | v :: _ => ((entryResume s p e [v]).map (fun u => u.1.extents)).flatten
      | [] => []
    (ds ++ us).flatMap (fun d => cutLines (d.2.length + 1) d.1 d.2)

/-- The words of the entry segment of a berth: from its entry to the next segment. -/
def entrySegment (i : Image) (o : Nat) : List (Nat × BitVec 32) :=
  let last := (i.moors.filter (fun m => decide (o < m.2))).foldl (fun m x => min m x.2) (2 ^ 16)
  i.code.filter (fun w => decide (o ≤ w.1) && decide (w.1 < last))

/-- Code words are filled into the window of core `g` (R341), which no operation of the image does; words written in part are read
(R397). -/
def fillCode (s : State) (g : Nat) (ws : List (Nat × BitVec 32)) : State :=
  let l := ws.map (fun w => (w.1 / 4, w.2.toNat))
  let s := countReads s g 6 (codePartial (coreOf s g) l)
  modCore s g (fun c => writeCode false c l)

/-- Is the index that of a shape or route register (R306, R307)? -/
def routeIndex (i : Nat) : Bool := decide (0x300 ≤ i ∧ i < 0x340) || decide (0x380 ≤ i ∧ i < 0x390)

/-- Registers and code of a staged core (R341). Reserved fields of the registers stay zero (R16). -/
def stageCore (s : State) (p e : Nat) (b : Nat × List Nat × Nat) : State :=
  match imageOf s p (qHandle (queueEntry (partOf s p) e)) with
  | none => s
  | some i =>
    let offs := if b.2.1 = [] then [] else b.2.2 :: ((entryResume s p e (b.2.1.take 1)).map (·.2))
    let rs := i.img.regs.filter (fun r => r.1 = b.1 && routeIndex r.2.1)
    let s := modCore s b.1 (fun c => rs.foldl (fun c r => sysSet c r.2.1 (r.2.2 &&& writeMask r.2.1)) c)
    fillCode s b.1 (offs.flatMap (entrySegment i.img))

/-- A code word of an image as main memory holds it. -/
def codeInMemory (s : State) (i : Image) (o : Nat) : BitVec 32 := BitVec.ofNat 32 (leNat (memBytes s (i.codeBase + o) 4))

/-- The words of image `h` that a PATCH invalidated are filled again from main memory on every good core of its target, when the
image is staged there (R218, step 4). -/
def refillCode (s : State) (p h need : Nat) : State :=
  match imageOf s p h with
  | none => s
  | some i =>
    let due := (partOf s p).refill.filter (fun e => e.1 = h && decide (need / 2 ^ layerOf e.2.1 % 2 = 1))
    let s := due.foldl (fun s e => fillCode s e.2.1
      ((i.img.code.filter (fun w => e.2.2.contains (w.1 / 4))).map (fun w => (w.1, codeInMemory s i.img w.1)))) s
    modPart s p (fun x => { x with refill := x.refill.filter (fun e => !due.contains e) })

/-- The last cycle of the service window that holds `t`, or of the next. -/
def windowEnd (t : Nat) : Nat := t / 4096 * 4096 + 4095

/-- The launch point of a partition that all members have reached. -/
def launchPoint (s : State) (p : Nat) : Option Rdv := s.rdvs.find? (fun r => r.part = p && r.kind = 4 && r.posted)

/-- Staging is complete at cycle `q`: the release follows. -/
def stagingDone (s : State) (r : Rdv) (q : Nat) : State := rdvTry (setRdv s { r with q := some q, posted := false }) r.id

/-- LAUNCH_STAGING: at A the selection is made and its data are queued at the cores; at the end of each service window it is
asked whether they are written (R341). -/
def execLaunchStaging (p : Nat) (s : State) : Host.Outcome State Fault Refusal :=
  match launchPoint s p with
  | none => .next s
  | some r =>
    let x := partOf s p
    if x.staged = [] then
      let es := stagedSet s p
      let waiting := (List.range 64).filter (fun e => qState (queueEntry x e) = 1)
      let s := setPart s p { x with staged := es, ready := readyEntries s p, waiting := waiting, enqA := x.enq }
      if es = [] then .next (stagingDone s r 0)
      else
        let s := es.foldl (fun s e => (entryStaged s p e).foldl (fun s b =>
          modCore s b.1 (fun c => { c with svc := c.svc ++ (stagedData s p e b).map (fun d =>
            Svc.write d.1 d.2 (ctxTag s b.1) true) })) s) s
        .next (post s (some p) (windowEnd (x.tide + 1)) 39 none (.instr (.launchStaging p)))
    else
      let bs := x.staged.flatMap (fun e => (entryStaged s p e).map (fun b => (e, b)))
      let busy := bs.any (fun b => (coreOf s b.2.1).svc.any (fun a => match a with
        | .write _ _ _ staging => staging
        | _ => false))
      if busy then .next (post s (some p) (x.tide + 4096) 39 none (.instr (.launchStaging p)))
      else
        let s := bs.foldl (fun s b => stageCore s p b.1 b.2) s
        .next (stagingDone (x.staged.foldl (fun s e => refillCode s p (qHandle (queueEntry x e)) (entryNeed x e)) s) r x.tide)

/-! ### The end of a job -/

/-- Everything a partition was doing goes: its cores stop, its clock stops, and what was due on it (see the log). -/
def clearPartition (s : State) (p : Nat) : State :=
  let gs := partCores s p
  let mine (o : Option Src) : Bool := match o with
    | some x => gs.contains x.core
    | none => false
  let s := { s with
    agenda := s.agenda.filter (fun d => d.clk ≠ some p && !mine d.own)
    rdvs := s.rdvs.filter (fun r => r.part ≠ p)
    xfers := s.xfers.filter (fun x => !gs.contains x.g)
    flits := s.flits.filter (fun f => !gs.contains f.core || isStack f.home)
    bops := s.bops.filter (fun b => !gs.contains b.g)
    notes := s.notes.filter (fun n => !gs.contains n.ref.core) }
  let s := gs.foldl (fun s g => modCore s g (fun c => { c with run := .idle, entry := none, berth := [], svc := [] })) s
  modPart s p (fun x => { x with live := false, reasons := 0, pendB := none, launches := [], endAsked := false
                                 ckptAsked := none, staged := [], ready := [], waiting := [], resume := [] })

/-- The job ends and the partition is ready again (R338, R429). -/
def endPartition (s : State) (p : Nat) : State := modPart (clearPartition s p) p (fun x => { x with state := 2, pod := false })

/-! ### Checkpoints (R440, R441) -/

/-- The `n` little-endian bytes of each word. -/
def wordsBytes (n : Nat) (l : List Nat) : List Byte := l.flatMap (leBytes n)

/-- Bytes padded with zeros to a length. -/
def padTo (n : Nat) (l : List Byte) : List Byte := l ++ List.replicate (n - l.length) 0

/-- A unit record (R441). -/
def unitBytes (u : CkUnit) : List Byte :=
  wordsBytes 8 ((List.range 32).map (fun i => (tabGet (zeroAt (w := 64)) u.s i).toNat)) ++
  wordsBytes 4 ((List.range 4).map (fun i => (tabGet (zeroAt (w := 32)) u.lc i).toNat)) ++ List.replicate 48 0 ++
  u.extents.flatMap (·.2)

/-- Units in ascending vid. -/
def insertUnit (u : CkUnit) : List CkUnit → List CkUnit
  | [] => [u]
  | y :: t => if u.vid < y.vid then u :: y :: t else y :: insertUnit u t

/-- The section of a stopped launch. -/
def sectionBytes (s : State) (p : Nat) (l : Launch) : List Byte :=
  let i := imageOf s p l.handle
  let us := l.stopped.foldl (fun a u => insertUnit u a) []
  let size := (us.head?.map (fun u => (u.extents.flatMap (·.2)).length)).getD 0
  let status := (List.range 256).map (fun b => BitVec.ofNat 8 ((List.range 4).foldl (fun a k =>
    let v := 4 * b + k
    a + (if us.any (fun u => u.vid = v) then 1 else if l.finished.contains v then 2 else 0) * 4 ^ k) 0))
  padTo 0x100 (leBytes 4 l.entry ++ leBytes 4 l.ord ++ leBytes 32 ((i.map (fun x => x.img.bexvar.toNat)).getD 0) ++
    leBytes 4 l.nvc ++ leBytes 4 size ++ leBytes 4 us.length) ++ status ++ us.flatMap unitBytes

/-- The checkpoint of a partition: the job header, with its digest, and the sections. -/
def ckptBytes (s : State) (p : Nat) : List Byte :=
  let x := partOf s p
  let k := pkgOf s (p / 8)
  let ls := x.launches.filter (fun l => decide (l.stopped ≠ []))
  let secs := ls.flatMap (sectionBytes s p)
  let head := padTo 0x100 (leBytes 4 0x4B564350 ++ leBytes 4 ls.length ++ leBytes 8 (4096 + secs.length) ++
    leBytes 2 x.job ++ leBytes 6 x.phase ++ leBytes 8 k.spec.toNat ++ leBytes 8 k.version.toNat ++
    wordsBytes 8 ((List.range 4).map (fun i =>
      (hostCompletion x i).toNat)) ++
    wordsBytes 8 ((List.range 4).map (fun i => (tabGet (zeroAt (w := 64)) x.chans i).toNat)) ++ leBytes 8 x.enq) ++
    padTo 0xEE0 (wordsBytes 32 ((List.range 64).map (fun e => (queueEntry x e).toNat)))
  let d := Config.sm3 (head ++ List.replicate 32 0 ++ secs)
  head ++ leBytes 32 d.toNat ++ secs

/-- Main-memory address of offset `o` in package `n` (R137). -/
def mainAddr (n o : Nat) : Nat := 2 ^ 45 + n * 2 ^ 39 + o

/-- CTXSTAT takes a result (R429). -/
def setResult (s : State) (p code : Nat) (busy : Bool) : State :=
  modPart s p (fun x =>
    let w := tabGet zeroAt x.context 1
    let w := withField (withField (withField w 0 1 busy.toNat) 8 8 code) 63 1 1
    { x with context := tabSet zeroAt x.context 1 w })

/-- The mailbox answers the command that stands in MBCMD, and GO is clear (R337, R430). -/
def respond (s : State) (p : Nat) (refused : Option Nat) (res : List Word) : State :=
  modPart s p (fun x =>
    let cmd := tabGet zeroAt x.mailbox 0
    let t := tabSet zeroAt x.mailbox 0 (withField cmd 63 1 0)
    let t := tabSet zeroAt t 8 (BitVec.ofNat 64 (fieldOf cmd 8 16 + (if refused.isSome then 2 ^ 16 else 0) + 2 ^ 63))
    let res := match refused with
      | some k => [BitVec.ofNat 64 k]
      | none => res
    { x with mailbox := (List.range 3).foldl (fun t i => tabSet zeroAt t (9 + i) (res.getD i 0)) t })

/-- The checkpoint is written at CKPTB, when it fits CKPTL and main memory, and the partition is Checkpointed (R440, R428); else MBRES0 or
RESULT records code 6. -/
def checkpoint (s : State) (p : Nat) : State :=
  let x := partOf s p
  let bs := ckptBytes s p
  let base := fieldOf (tabGet zeroAt x.context 3) 6 33 * 64
  let asked := x.ckptAsked.isSome
  let fits := decide (bs.length ≤ fieldOf (tabGet zeroAt x.context 4) 0 39) && decide (base + bs.length ≤ 2 ^ 39)
  let s := if fits then memPut s (mainAddr (p / 8) base) bs
    else if asked then modPart s p (fun x => { x with mailbox := tabSet zeroAt x.mailbox 9 6 })
    else setResult s p 6 false
  modPart (clearPartition s p) p (fun x => { x with state := 7 })

/-! ### Launch points (R74, R75, R79) -/

/-- Has the entry not started: it waits, was refused, or is a checkpoint's launch not yet restarted (R342)? -/
def notStarted (x : Part) (e : Nat) : Bool :=
  let t := qState (queueEntry x e)
  decide (t = 1) || decide (t = 5) || (decide (t = 2) && x.resume.any (fun c => c.entry = e))

/-- Does a cancel of launches that is still to be applied name entry `e`, as it stood enqueued when the cancel became visible? -/
def cancHits (x : Part) (k : Cancel) (e : Nat) : Bool :=
  decide (k.lvl = 0) && decide (k.id = e) && decide (qOrd (queueEntry x e) < k.enq)

/-- Does entry `e` belong to a cancelled instance (R73)? A graph instance that a cancel has reached stays so until the graph begins
anew, a phase instance until the phase is closed, and a job to its end. -/
def inCancelled (x : Part) (e : Nat) : Bool :=
  let w := queueEntry x e
  x.jobCanc || x.cancInst.contains (1, qGraph w) || x.cancInst.contains (2, qPhase w) || x.canc.any (fun k => cancHits x k e)

/-- Has the entry not started, and did it stand in the queue at A (R341, step 5)? -/
def stoodAtA (x : Part) (e : Nat) : Bool := notStarted x e && decide (qOrd (queueEntry x e) < x.enqA)

/-- Entries of cancelled instances that have not started, and those whose predecessors include a cancelled entry, are cancelled
(R73). -/
def cancelEntries (x : Part) : Part :=
  let x := (List.range 64).foldl (fun x e => if stoodAtA x e ∧ inCancelled x e = true then setEntry x e 4 else x) x
  let step (x : Part) : Part := (List.range 64).foldl (fun x e =>
    let w := queueEntry x e
    if stoodAtA x e ∧ (List.range 8).any (fun i => decide (qPredv w / 2 ^ i % 2 = 1) &&
        decide (qState (queueEntry x (qPred w i)) = 4)) = true then setEntry x e 4 else x) x
  let x := (List.range 64).foldl (fun x _ => step x) x
  { x with canc := x.canc.filter (fun k => notStarted x k.id && cancHits x k k.id)
           resume := x.resume.filter (fun c => qState (queueEntry x c.entry) ≠ 4) }

/-- Entries waiting since A whose image is not loaded, or not bound to the maps in force, are refused (R341, R444). -/
def refuseEntries (s : State) (p : Nat) : State :=
  modPart s p (fun x => x.waiting.foldl (fun x e =>
    let w := queueEntry x e
    if qState w = 1 ∧ (boundImage s p (qHandle w)).isNone = true then setEntry x e 5 else x) x)

/-- The current phase is closed when all its entries, of those enqueued by A (R341, step 5), are done or cancelled (R75). -/
def closePhase (x : Part) : Part :=
  let l := (phaseCounts x x.phase).filter (fun e => decide (e.2.2.1 < x.enqA))
  if l ≠ [] ∧ l.all (·.2.2.2) = true then
    { x with
      phase := (x.phase + 1) % 256, phasesDone := x.phasesDone + 1
      phaseFrom := x.phaseFrom.filter (fun e => e.1 ≠ x.phase) ++ [(x.phase, x.enqA)]
      cancInst := x.cancInst.filter (fun e => e ≠ (2, x.phase)) }
  else x

/-- The image's table is loaded into the copies of the layers (R142), and kept by their control cores (R413). -/
def loadTable (s : State) (p need : Nat) (i : Image) : State :=
  let es := (i.table.filter (fun e => e.1 = p / 8)).map (·.2)
  ((List.range 8).filter (fun l => need / 2 ^ l % 2 = 1)).foldl (fun s l =>
    let k := p / 8 * 8 + l
    let fill (t : Tab (BitVec 128)) : Tab (BitVec 128) :=
      es.foldl (fun t e => tabSet zeroAt t (k * 4096 + e.1) (e.2 &&& tableMask)) (t.filter (fun e => e.1 / 4096 ≠ k))
    { s with table := fill s.table, tableBad := s.tableBad.filter (fun e => e.1 / 4096 ≠ k), kept := fill s.kept }) s

/-- A core starts its berth list at the release `t`. -/
def startCore (s : State) (p e t : Nat) (b : Nat × List Nat × Nat) (nvc : Nat) : State :=
  match b.2.1 with
  | [] => s
  | v :: rest =>
    let g := b.1
    let us := entryResume s p e b.2.1
    let s := modCore s g (fun c => { c with
      nvc := nvc, entry := some e, berth := rest, entryOff := b.2.2, resume := us, pass := Pass.none, run := .running
      recovery := false, recoverySync := false, soft := false, deferEnd := 0 })
    postAt (beginUnit s g v) g t 22 none (.issue g)

/-- A staged entry starts (R75). -/
def startEntry (s : State) (p e t : Nat) : State :=
  let x := partOf s p
  let h := qHandle (queueEntry x e)
  match imageOf s p h with
  | none => s
  | some i =>
    let bs := entryBerths s p e
    let old := x.resume.find? (fun c => c.entry = e)
    let done := (old.map (fun c => (c.status.filter (fun u => u.2 = 2)).map (·.1))).getD []
    let l : Launch := { entry := e, handle := h, start := t, stopPending := false, graph := qGraph (queueEntry x e)
                        layers := (List.range 8).filter (fun l => entryNeed x e / 2 ^ l % 2 = 1)
                        nvc := i.img.nvc, done := done.length, canc := x.cancInst.contains (0, e), cores := bs.map (·.1), taken := x.pubs.length
                        stopped := [], ord := 0, finished := done }
    let s := modPart (loadTable s p (entryNeed x e) i.img) p (fun x =>
      let y := setEntry x e 2
      { y with cancInst := y.cancInst.filter (· ≠ (0, e)), launches := x.launches.filter (fun y => y.entry ≠ e) ++ [l], lastLaunch := some e })
    let s := bs.foldl (fun s b => startCore s p e t b i.img.nvc) s
    modPart s p (fun x => { x with resume := x.resume.filter (fun c => c.entry ≠ e) })

/-- Ageing (R79) of entry `e`. -/
def ageEntry (x : Part) (e : Nat) : Part :=
  let w := queueEntry x e
  let n := qPass w + 1
  setQueue x e (if n = 8 then qSet (qSet w 72 4 0) 56 2 (min 3 (qPrio w + 1)) else qSet w 72 4 n)

/-- The queue at the release `t` (R75): cancels, the phase, the entries of the staged set, ageing. -/
def runQueue (s : State) (p t : Nat) : State :=
  let s := refuseEntries (modPart s p cancelEntries) p
  let s := modPart s p closePhase
  let x := partOf s p
  let ok := if stopPends x then [] else x.staged.filter (fun e => qState (queueEntry x e) = 1 ||
    x.resume.any (fun c => c.entry = e))
  let s := ok.foldl (fun s e => startEntry s p e t) s
  let left := x.ready.filter (fun e => !ok.contains e && qState (queueEntry x e) = 1)
  modPart s p (fun y =>
    let y := if ok = [] then y else left.foldl ageEntry y
    { y with staged := [], ready := [], waiting := [] })

/-- All members of a launch point are released at `t`: running members go on, and idle ones start or arrive again. -/
def releaseLaunchPoint (s : State) (p : Nat) (r : Rdv) (t : Nat) : State :=
  let s := { s with rdvs := s.rdvs.filter (fun x => x.id ≠ r.id) }
  let s := r.members.foldl settle s
  let s := r.members.foldl (fun s g => takePubs s g (rdvLast r)) s
  let old := r.arrivals.filter (fun a => (coreOf s a.1).entry.isSome)
  let x := partOf s p
  if running x = [] ∧ x.endAsked = true then endPartition s p
  else if running x = [] ∧ stopPends x = true then checkpoint s p
  else
    let s := runQueue s p t
    let s := old.foldl (fun s a => releaseMember s a.1 a.2.1 t) s
    (r.members.filter (fun g => (coreOf s g).entry.isNone && !old.any (fun a => a.1 = g))).foldl arriveIdle s

/-- LAUNCH_POINT_RELEASE. -/
def execLaunchPointRelease (p : Nat) (s : State) : Host.Outcome State Fault Refusal :=
  match launchPoint s p with
  | none => .next s
  | some r =>
    let t := (partOf s p).tide
    let n := rdvHold s r t
    .next (if rdvFailed s r then setRdv s { r with posted := false }
    else if t < n then post s (some p) (paceUp (rdvPace s r) n) 18 none (.instr (.launchPointRelease p))
    else releaseLaunchPoint s p r t)

/-! ### The start of a job (R69, R66, R80) -/

/-- System registers that a partition start leaves as they are (R402 to R404, R455 to R458). -/
def keptSys (i : Nat) : Bool :=
  i = 0x428 || i = 0x430 || decide (0x440 ≤ i ∧ i < 0x448) || decide (0x4A0 ≤ i ∧ i < 0x4C0)

/-- A core at the start of a partition (R247, R309): it keeps its repair table, its injectors and its dredger. -/
def startedCore (c : Core) : Core :=
  let sum := sysGet c 0x462
  let c' := { Core.reset with sys := c.sys.filter (fun e => keptSys e.1), dredge := c.dredge }
  sysSet c' 0x462 (sum &&& 0x40000000003F0000#64)

/-- The partitions of other packages that start, or have started, in this very cycle with the job of partition `p` (R66). -/
def startMates (s : State) (p : Nat) : List Nat :=
  (s.parts.filter (fun e => e.1 / 8 ≠ p / 8 && e.2.job = (partOf s p).job &&
    ((e.2.state = 3 && e.2.live && e.2.tide = 0) ||
     s.agenda.any (fun d => d.ev = .instr (.jobStart e.1) && decide (d.cyc ≤ s.now))))).map (·.1)

/-- Does a package that the images loaded for the partitions name have none of them (R352)? -/
def mateMissing (s : State) (ps : List Nat) : Bool :=
  s.images.any (fun i => ps.contains i.part && i.img.maps.any (fun m => !ps.any (fun q => q / 8 = m.1)))

/-- Is a die layer of the partition being surveyed (R347)? -/
def surveyed (s : State) (p : Nat) : Bool :=
  (pkgOf s (p / 8)).survey.any (fun e => decide (s.now < e.2) && decide ((partOf s p).layers / 2 ^ e.1 % 2 = 1))

/-- Is a die layer of the partition still hot (R24)? -/
def hotPart (s : State) (p : Nat) : Bool := (pkgOf s (p / 8)).hot.any (fun l => decide ((partOf s p).layers / 2 ^ l % 2 = 1))

/-- The partition as its job starts. DESIGN CHOICE (log entry 56): queue entries that an earlier job left done or cancelled count in
WKGRAPH and not in WKPHASE. -/
def startedPart (x : Part) (pod : Bool) : Part :=
  let old := x.queue.filter (fun e => decide (qState e.2 = 3 ∨ qState e.2 = 4))
  let y : Part := if x.restart then x else { x with
    phase := 0, phasesDone := 0, jobCanc := false, chans := [], chanNext := [], resume := [], gone := [], cancInst := []
    phaseFrom := [], oldOrds := old.map (fun e => qOrd e.2), wkSaved := [] }
  { y with
    state := 3, pod := pod, live := true, tide := 0, reasons := 0, pendB := none, frzReason := 0, frzNext := 0, frzB := 0, frzAt := 0
    frzCount := 0, canc := [], lastLaunch := none, launches := [], chanPend := [], staged := [], ready := [], waiting := []
    enqA := 0, endAsked := false, ckptAsked := none, failed := [], pubs := [], groupRel := [], restart := false, jobRan := true }

/-- JOB_START: at the package tide boundary the tide counter starts from 0, with phase 0, and every good core arrives at the
standing launch point. A job with partitions in other packages that start in the same cycle spans a pod. DESIGN CHOICE (log
entry 56): the partitions wait a tide while a package that their images name has no partition of the job about to start (R66), and
while a layer is being surveyed (R347). A layer still hot freezes the partition at once (R24), and with it the job's other
partitions, which start in the same cycle (R66, R101). Links already dead join its set (R415). -/
def execJobStart (p : Nat) (s : State) : Host.Outcome State Fault Refusal :=
  let ps := p :: startMates s p
  if mateMissing s ps || ps.any (surveyed s) then .next (post s none (s.now + 4096) 0 none (.instr (.jobStart p)))
  else
    let s := (startMates s p).foldl (fun s q => modPart s q (fun y => { y with pod := true })) s
    let s := modPart s p (fun x => startedPart x (decide (1 < ps.length)))
    let gs := partCores s p
    let s := gs.foldl (fun s g => modCore s g startedCore) s
    let s := recordDead (gs.foldl arriveIdle s) p
    let s := if hotPart s p then decideFreeze s p 0 0 else s
    .next (if (podPeers s p).any (fun q => ownReason (partOf s q)) then post s none s.now 1 none (.instr (.podFreeze p 0)) else s)

end Sys2Proof.Machine
end

