-- ==== Sys2Proof/Machine/Boot.lean ====
section
/-! DEFINITION. Boot and measurement (12, R343 to R345), partitions (12, R340), the map's publication and surveys (01, R40 to
R42; 12, R347, R348; 18, R443), freezes as they take effect and end (03, R101 to R107; 01, R24), and the table service (17,
R410 to R413). -/

namespace Sys2Proof.Machine

/-! ### Measurement registers (R344) -/

/-- Extend(MRi, d) at die layer `k`. -/
def extendMr (s : State) (k i : Nat) (d : BitVec 256) : State :=
  modPkg s (k / 8) (fun x =>
    let j := k % 8 * 8 + i
    let old := tabGet (zeroAt (w := 256)) x.mr j
    { x with mr := tabSet zeroAt x.mr j (Config.sm3 (leBytes 32 old.toNat ++ leBytes 32 d.toNat)) })

/-- Every die layer of a package extends register `i`. -/
def extendAll (s : State) (n i : Nat) (d : BitVec 256) : State :=
  (List.range 8).foldl (fun s l => extendMr s (8 * n + l) i d) s

/-- EXTEND_SERVICE: the hypervisor extends MR3 to MR6. -/
def execExtendService (k : Nat) (mr : BitVec 3) (x : BitVec 256) (s : State) : Host.Outcome State Fault Refusal :=
  .next (if 3 ≤ mr.toNat ∧ mr.toNat ≤ 6 then extendMr s k mr.toNat x else s)

/-! ### Power-on reset (R343, R455) -/

/-- The package that a memory key belongs to. -/
def keyPackage (a : Nat) : Nat :=
  if a < 2 ^ 48 then a / 2 ^ 39 % 64 else if 2 ^ 50 ≤ a ∧ a < 2 ^ 51 then (a - 2 ^ 50) / 2 ^ 29 else 64

/-- A core after power-on: its repair table comes from the non-volatile store. -/
def bootCore (x : Pkg) (c : Nat) : Core :=
  let ws := (List.range 32).map (fun n => tabGet (zeroAt (w := 64)) x.nv (c * 32 + n))
  let core := ((List.range 32).zip ws).foldl (fun k e => sysSet k (0x4A0 + e.1) e.2) Core.reset
  sysSet core 0x462 (BitVec.ofNat 64 ((ws.filter (fun w => w.getLsbD 0)).length * 2 ^ 16))

/-- POWER_ON_RESET of package `n`: what the package held is lost, the boot ROMs measure the hypervisor and the firmware,
and the boot survey's map is to be published. -/
def execPowerOnReset (n : Nat) (s : State) : Host.Outcome State Fault Refusal :=
  if 64 ≤ n then .next s
  else
    let s := ((List.range 8).map (8 * n + ·)).foldl clearPartition s
    let s := { s with
      parts := s.parts.filter (fun e => e.1 / 8 ≠ n), images := s.images.filter (fun i => i.part / 8 ≠ n)
      cores := s.cores.filter (fun e => e.1 / 512 ≠ n), mem := s.mem.filter (fun e => keyPackage e.1 ≠ n)
      tags := s.tags.filter (fun e => keyPackage (64 * e.1) ≠ n), memBad := s.memBad.filter (fun e => keyPackage (8 * e.1) ≠ n)
      table := s.table.filter (fun e => e.1 / 4096 / 8 ≠ n), tableBad := s.tableBad.filter (fun e => e.1 / 4096 / 8 ≠ n)
      tagBad := s.tagBad.filter (fun e => keyPackage (64 * e.1) ≠ n)
      kept := s.kept.filter (fun e => e.1 / 4096 / 8 ≠ n) }
    let x := pkgOf s n
    let s := setPkg s n { x with
      alive := true, trained := false, mr := [], linj := [], lost := [], dead := [], survey := [], nonce := [], report := [] }
    let s := (List.range 384).foldl (fun s c => setCore s (512 * n + c) (bootCore x c)) s
    let s := extendAll (extendAll s n 0 Config.hypervisorDigest) n 1 Config.firmwareDigest
    .next (post s none (tideUp (s.now + 1)) 0 none (.instr (.mapPublication n [] false)))

/-! ### Partitions (R340) -/

/-- Is die layer `l` of package `n` free: no partition holds it, none is being restored onto it (R434), and no survey has it
(R347)? -/
def layerFree (s : State) (n l : Nat) : Bool :=
  let cc := 512 * n + 384 + l
  (partAt s n l).isNone && !surveyRuns s cc && !contextBusy s cc

/-- Are all the layers of a mask free? -/
def layersFree (s : State) (n mask : Nat) : Bool :=
  (List.range 8).all (fun l => decide (mask / 2 ^ l % 2 = 0) || layerFree s n l)

/-- Route and shape registers return to their reset values (R309). -/
def resetRoutes (c : Core) : Core :=
  { c with sys := c.sys.filter (fun e => !(decide (0x300 ≤ e.1 ∧ e.1 < 0x340) || decide (0x380 ≤ e.1 ∧ e.1 < 0x390))) }

/-- CREATE_PARTITION: the hypervisor makes partition `p` of free die layers, and its system image boots, measured into MR7. The
registers of PF BAR0 that it has written for the partition stand (R335, R429). -/
def execCreatePartition (p : Nat) (layers : BitVec 8) (lpivl : BitVec 32) (ctx : BitVec 9) (s : State) :
    Host.Outcome State Fault Refusal :=
  let n := p / 8
  .next (if (pkgOf s n).alive = false ∨ (partOf s p).state ≠ 0 ∨ layers = 0 ∨ layersFree s n layers.toNat = false then s
  else
    let x := partOf s p
    let s := setPart s p { Part.reset with
      state := 1, layers := layers.toNat, ctx := ctx.toNat, lpivl := lpivl, hostMap := x.hostMap, context := x.context }
    let s := (partCores s p).foldl (fun s g => modCore s g resetRoutes) s
    let s := ((List.range 8).filter (fun l => layers.toNat / 2 ^ l % 2 = 1)).foldl (fun s l =>
      extendMr s (8 * n + l) 7 (Config.systemImageDigest p)) s
    post s none (s.now + 1 + Config.bootTime s.now) 0 none (.booted p))

/-! ### The map (R25, R40 to R42, R443) -/

/-- Die layers of a unit of the unit state table (R28). -/
def layersOfUnit (s : State) (n u : Nat) : List Nat :=
  if u < 384 then [u / 48]
  else if u < 1152 then [(u - 384) / 2 / 48]
  else if u < 1536 then [(u - 1152) / 48]
  else if u < 2304 then [(u - 1536) / 2 / 48]
  else if u < 3344 then linkEnds s n u
  else []

/-- Die layers with an end of crossing `e` (R32). -/
def layersOfCrossing (s : State) (n e : Nat) : List Nat :=
  if e < 240 then linkEnds s n (2960 + e)
  else if e < 248 then
    let a := mapNat s n (0xA980 + 8 * e + 2) 2
    if a < 384 then [a / 48] else []
  else if e < 266 then linkEnds s n (3200 + 8 * (e - 248))
  else []

/-- Die layers whose section a map byte belongs to. -/
def layersOfByte (s : State) (n o : Nat) : List Nat :=
  if o < 0x40 then []
  else if o < 0xD80 then layersOfUnit s n (o - 0x40)
  else if o < 0x1980 then [(o - 0xD80) / 8 / 48]
  else if o < 0xA980 then [(o - 0x1980) / 2 / 48 / 48]
  else if o < 0xB200 then layersOfCrossing s n ((o - 0xA980) / 8)
  else if o < 0xB300 then layersOfCrossing s n (240 + (o - 0xB200) / 32)
  else if o < 0xB780 then
    let e := (o - 0xB300) / 64
    if e < 2 then List.range 8
    else if e < 10 then [e - 2]
    else if e < 14 then [2 * (e - 10), 2 * (e - 10) + 1]
    else if e < 16 then (List.range 4).map (4 * (e - 14) + ·)
    else if e = 16 then List.range 8
    else []
  else []

/-- The measured bytes, Reserved fields zero (R16), that differ from the map in force; header and signature are the publication's
own. -/
def changedBytes (s : State) (n : Nat) (bs : List (Nat × Byte)) : List (Nat × Byte) :=
  (bs.map (fun b => (b.1, b.2 &&& mapMask b.1))).filter (fun b =>
    decide (0x40 ≤ b.1) && decide (b.1 < 0xBF80) && b.2 ≠ mapByte s n b.1)

/-- A map byte is written. -/
def setMapBytes (s : State) (n : Nat) (ws : List (Nat × Byte)) : State :=
  modPkg s n (fun x => { x with map := tabSetAll nominalMapByte x.map ws })

/-- Little-endian bytes at a map offset. -/
def mapField (o n v : Nat) : List (Nat × Byte) := (List.range n).map (fun i => (o + i, byteOf v i))

/-- The partitions that a publication of package `n` concerns: its own, and those of pod jobs with a partition there; a Saved one
takes it after its restore. -/
def pubParts (s : State) (n : Nat) : List Nat :=
  let runs (x : Part) : Bool := decide (3 ≤ x.state) && decide (x.state ≤ 5)
  (s.parts.filter (fun e => runs e.2 && (e.1 / 8 = n || (e.2.pod &&
    s.parts.any (fun f => f.1 / 8 = n && f.2.pod && decide (f.2.job = e.2.job) && runs f.2))))).map (·.1)

/-- The packages that Quayline training has joined. -/
def alivePackages (s : State) : List Nat := (s.pkgs.filter (fun e => e.2.alive)).map (·.1)

/-- The bytes of the pod entry once training is complete (R37, R38): its members, and for a new entry the costs of the table, which
a survey replaces by what it measures. -/
def podBytes (s : State) (n : Nat) : List (Nat × Byte) :=
  let o := 0xB740
  let k := nominalCosts 6
  let costs := mapField o 2 6 ++ mapField (o + 4) 2 k.1 ++ mapField (o + 6) 2 k.2.1 ++ mapField (o + 8) 2 k.2.2.1 ++
    mapField (o + 10) 2 k.2.2.2
  (if mapNat s n o 1 = 6 then [] else costs) ++ mapField (o + 2) 2 (alivePackages s).length ++
    mapField (o + 16) 8 ((alivePackages s).foldl (fun m i => m + 2 ^ i) 0)

/-- What a publication writes: what the survey measured, and beside it the links that have died (R415) and the pod entry (R38). -/
def surveyBytes (s : State) (n : Nat) (trained : Bool) (bytes : List (Nat × Byte)) : List (Nat × Byte) :=
  let more := (pkgOf s n).dead.map (fun u => (0x40 + u, (3 : Byte))) ++ (if trained then podBytes s n else [])
  bytes ++ more.filter (fun b => !bytes.any (fun c => c.1 = b.1))

/-- The die layer whose key signs a map (R42): the lowest with a good control core. -/
def signingLayer (x : Pkg) : Nat := ((List.range 8).find? (fun l => !x.badControl.contains l)).getD 0

/-- When training joins a package to the pod, the other packages' pod entries are to be published too (R38). -/
def publishPods (s : State) (n : Nat) : State :=
  ((alivePackages s).filter (fun m => m ≠ n && mapNat s m 0xB750 8 / 2 ^ n % 2 = 0)).foldl (fun s m =>
    post s none (tideUp (s.now + 1)) 0 none (.instr (.mapPublication m [] false))) s

/-- The map is published in this cycle: bytes, subversions, version, flags, stamp, signature, MR2, and the records that
running launches take (R40 to R42, R443, R444). -/
def publish (s : State) (n : Nat) (bytes : List (Nat × Byte)) (inService : Bool) : State :=
  let trained := decide (1 < (alivePackages s).length)
  let ch := changedBytes s n (surveyBytes s n trained bytes)
  let ls := (List.range 8).filter (fun l => ch.any (fun b => (layersOfByte s n b.1).contains l))
  let pod := ch.any (fun b => decide (0xB740 ≤ b.1) && decide (b.1 < 0xB780))
  let mask := ls.foldl (fun m l => m + 2 ^ l) 0
  let v := (pkgOf s n).version + 1
  let subs := ls.flatMap (fun l => mapField (0x18 + 2 * l) 2 (mapNat s n (0x18 + 2 * l) 2 + 1))
  let s := modPkg s n (fun x => { x with version := v, trained := trained, history := x.history ++ [(v.toNat, mask, pod)] })
  let s := setMapBytes s n (ch ++ subs ++ mapField 0x14 4 (trained.toNat + 2 * inService.toNat) ++ mapField 0x28 8 s.now)
  let d := Config.sm3 ((List.range 0xBF80).map (mapByte s n))
  let l := signingLayer (pkgOf s n)
  let sig := Config.sm2Sign (8 * n + l) (pkgOf s n).spec d
  let s := setMapBytes s n (mapField 0xBF80 32 d.toNat ++ mapField 0xBFA0 64 sig.toNat ++ mapField 0xBFE0 1 l)
  let s := extendAll s n 2 d
  let s := if trained then publishPods s n else s
  (pubParts s n).foldl (fun s p => modPart s p (fun x => { x with pubs := x.pubs ++ [(x.tide, n, mask, pod)] })) s

/-- MAP_PUBLICATION: at a tide boundary of the package clock; with the counter at its end the survey is reported to the host and
not published (R40, R41). -/
def execMapPublication (n : Nat) (bytes : List (Nat × Byte)) (inService : Bool) (s : State) :
    Host.Outcome State Fault Refusal :=
  .next (if s.now % 4096 ≠ 0 then post s none (tideUp s.now) 0 none (.instr (.mapPublication n bytes inService))
  else if (pkgOf s n).version = 0xFFFFFFFF#32 then
    modPkg s n (fun x => { x with reported := x.reported ++ [(s.now, bytes)] })
  else publish s n bytes inService)

/-- SURVEY_WINDOW (R347, R458): granted to a die layer with no partition, or whose partition has no job, and which no save or restore
uses. The live repair
table is copied to the non-volatile store, the window is open until the survey's end, and the result is published at the tide
boundary after it. -/
def execSurveyWindow (k : Nat) (bytes : List (Nat × Byte)) (s : State) : Host.Outcome State Fault Refusal :=
  let n := k / 8
  let idle := match partAt s n (k % 8) with
    | none => true
    | some p => decide ((partOf s p).state ≤ 2)
  .next (if (pkgOf s n).alive && idle && !contextBusy s (512 * n + 384 + k % 8) then
    let cs := (List.range 48).map (k % 8 * 48 + ·)
    let nv := cs.foldl (fun t c => (List.range 32).foldl (fun t i =>
      tabSet zeroAt t (c * 32 + i) (sysGet (coreOf s (512 * n + c)) (0x4A0 + i))) t) (pkgOf s n).nv
    let done := s.now + 1 + Config.surveyTime s.now % 67108863
    let s := modPkg s n (fun x => { x with
      nv := nv, survey := x.survey.filter (fun e => decide (s.now < e.2) && e.1 ≠ k % 8) ++ [(k % 8, done)] })
    let own := bytes.filter (fun b => (layersOfByte s n b.1).contains (k % 8))
    post s none (tideUp done) 0 none (.instr (.mapPublication n own false))
  else s)

/-- Map bytes that hold a measured latency: paths, crossings, delivery bounds and the costs of scopes. -/
def latencyByte (o : Nat) : Bool :=
  (decide (0x1980 ≤ o) && decide (o < 0xA980)) || (decide (0xA980 ≤ o) && decide (o < 0xB200) && decide (o % 8 < 2)) ||
  (decide (0xB200 ≤ o) && decide (o < 0xB300)) ||
  (decide (0xB300 ≤ o) && decide (o < 0xB780) && decide (4 ≤ o % 64) && decide (o % 64 < 12))

/-- IN_SERVICE_SURVEY (R348): a publication follows only when a measured latency has changed. -/
def execInServiceSurvey (n : Nat) (bytes : List (Nat × Byte)) (s : State) : Host.Outcome State Fault Refusal :=
  let ls := bytes.filter (fun b => latencyByte b.1)
  .next (if changedBytes s n ls = [] then s
  else post s none (tideUp (s.now + 1)) 0 none (.instr (.mapPublication n ls true)))

/-! ### Freezes (R24, R101 to R107) -/

/-- THERMAL_TRIP at die layer `k`: the layer is hot, and the freeze of a partition with a job there is decided in the next
cycle. -/
def execThermalTrip (k : Nat) (s : State) : Host.Outcome State Fault Refusal :=
  let s := modPkg s (k / 8) (fun x => { x with hot := if x.hot.contains (k % 8) then x.hot else x.hot ++ [k % 8] })
  .next (match partAt s (k / 8) (k % 8) with
  | none => s
  | some p => decideFreeze s p 0 ((partOf s p).tide + 1))

/-- THERMAL_RELEASE at die layer `k`: the reason clears with the last of the partition's sensors. -/
def execThermalRelease (k : Nat) (s : State) : Host.Outcome State Fault Refusal :=
  let s := modPkg s (k / 8) (fun x => { x with hot := x.hot.filter (· ≠ k % 8) })
  .next (match partAt s (k / 8) (k % 8) with
  | none => s
  | some p => if hotPart s p then s else clearReason s p 0)

/-- POD_FREEZE: a freeze decided at cycle `r` at another package of the pod job, while a reason still stands there. -/
def execPodFreeze (p r : Nat) (s : State) : Host.Outcome State Fault Refusal :=
  .next (if 3 ≤ (partOf s p).state ∧ (partOf s p).state ≤ 4 ∧ (podPeers s p).any (fun q => ownReason (partOf s q)) = true then
    decideFreezeAt s p 3 r
  else s)

/-- FREEZE_BOUNDARY: unless the freeze was withdrawn, the partition stops before the cycle's first phase. The snapshot,
quarantine and landing buffers hold what its clock still owes, as the agenda does (R103, R104). -/
def execFreezeBoundary (p : Nat) (s : State) : Host.Outcome State Fault Refusal :=
  let x := partOf s p
  .next (if x.live ∧ x.pendB = some x.tide then
    let s := setPart s p { x with
      live := false, state := 4, pendB := none, frzB := x.tide, frzAt := s.now, frzVer := (pkgOf s (p / 8)).version.toNat
      frzSubs := (List.range 8).map (fun l => mapNat s (p / 8) (0x18 + 2 * l) 2) }
    if x.reasons = 0 then postResume s p else s
  else s)

/-- PARTITION_RESUME: with every reason clear, at the boundary that the latest clearing named, the next live cycle has tide counter
B, and FRZSTAT changes with it. -/
def execPartitionResume (p : Nat) (s : State) : Host.Outcome State Fault Refusal :=
  let x := partOf s p
  .next (if x.state = 4 ∧ x.live = false ∧ x.reasons = 0 ∧ x.resumeAt = some s.now ∧ (tabGet zeroAt x.context 1).getLsbD 0 = false then
    setPart s p { x with live := true, state := 3, frzCount := x.frzCount + 1, frzReason := x.frzNext }
  else s)

/-! ### The table service (R410 to R413) -/

/-- TABLE_SERVICE_REQUEST: the control core freezes the partition as a pre-emption. -/
def execTableServiceRequest (g : Nat) (s : State) : Host.Outcome State Fault Refusal :=
  .next (match partOfCore s g with
  | some p => decideFreeze s p 2 (cnow s g + 1)
  | none => s)

/-- TABLE_SERVICE_ANSWER: the hypervisor clears REQ, and sets DECL when it declines. -/
def execTableServiceAnswer (g : Nat) (decline : Bool) (s : State) : Host.Outcome State Fault Refusal :=
  .next (modCore s g (fun c =>
    let w := sysGet c 0x451
    if fieldOf w 0 1 = 1 then sysSet c 0x451 (withField w 0 2 (2 * decline.toNat)) else c))

/-- TABLE_ENTRY_WRITE through the system space. -/
def execTableEntryWrite (k : Nat) (e : BitVec 12) (hi : Bool) (x : Word) (s : State) : Host.Outcome State Fault Refusal :=
  .next (writeTableHalf s k e.toNat hi x)

/-- TABLE_ENTRY_REPAIR: the entry is rewritten from the copy that the control core keeps. -/
def execTableEntryRepair (k : Nat) (e : BitVec 12) (s : State) : Host.Outcome State Fault Refusal :=
  .next (setTable s k e.toNat (tabGet zeroAt s.kept (k * 4096 + e.toNat)))

end Sys2Proof.Machine
end

