-- ==== Sys2Proof/Machine/Mailbox.lean ====
section
/-! DEFINITION. The mailbox of a partition and its commands (12, R336 to R338, R346; 18, R430, R431, R440, R443): images,
jobs, cancels, debug holds, specialisation patches (07, R215 to R218), attestation, checkpoints and rebinding. -/

namespace Sys2Proof.Machine

/-- Argument word `i` of the mailbox. -/
def mbArg (s : State) (p i : Nat) : Word := tabGet zeroAt (partOf s p).mailbox (1 + i)

/-- A command refused with a code of R430, or done with result words. -/
def refuse (s : State) (p code : Nat) : State := respond s p (some code) []
def accept (s : State) (p : Nat) (res : List Word) : State := respond s p none res

/-- A command that only some partition states accept: code 1 elsewhere. -/
def inStates (s : State) (p lo hi : Nat) (act : State → State) : State :=
  let st := (partOf s p).state
  if lo ≤ st ∧ st ≤ hi then act s else refuse s p 1

/-! ### Images (R215 to R217, R338) -/

/-- The word at a code offset of an image, and its replacement. -/
def codeAt (l : List (Nat × BitVec 32)) (o : Nat) : BitVec 32 := ((l.find? (fun w => w.1 = o)).map (·.2)).getD 0
def setCode (l : List (Nat × BitVec 32)) (o : Nat) (x : BitVec 32) : List (Nat × BitVec 32) :=
  l.map (fun w => if w.1 = o then (o, x) else w)

/-- The payload of the K word at `o`, and the low seven bits of the slot word at `o`, are replaced. -/
def setPayload (l : List (Nat × BitVec 32)) (o v : Nat) : List (Nat × BitVec 32) :=
  setCode l o (BitVec.ofNat 32 ((codeAt l o).toNat / 2 ^ 28 * 2 ^ 28 + v % 2 ^ 28))
def setLow7 (l : List (Nat × BitVec 32)) (o v : Nat) : List (Nat × BitVec 32) :=
  setCode l o (BitVec.ofNat 32 ((codeAt l o).toNat / 128 * 128 + v % 128))

/-- The immediate `v` in the slot at `o` with `k` extension words (R195). DESIGN CHOICE (log entry 56): where fewer than `k` extension
words follow the slot, of which R215 says nothing, the words that do follow take the payload, and the image is not refused. -/
def setImmediate (l : List (Nat × BitVec 32)) (o k : Nat) (v : Int) : List (Nat × BitVec 32) :=
  let n := (v % 2 ^ 63).toNat
  let l := setLow7 l o n
  let l := if 1 ≤ k then setPayload l (o + 4) (n / 2 ^ 7) else l
  if 2 ≤ k then setPayload l (o + 8) (n / 2 ^ 35) else l

/-- Access size of a Mem-format slot word (R191, R227, R267, R301); 1 for any other slot. -/
def memSize (w : BitVec 32) : Nat :=
  let cls := w.toNat / 2 ^ 28 % 8
  let opc := w.toNat / 2 ^ 22 % 64
  let z := w.toNat / 2 ^ 19 % 8
  if cls = 0 ∧ (opc = 0x26 ∨ opc = 0x27) then 2 ^ z
  else if cls = 1 ∧ (opc = 0x28 ∨ opc = 0x2B) then 2 ^ (z + 2)
  else if cls = 5 ∧ opc = 0 then 64
  else 1

/-- S of a record of an image placed at virtual address `a` (R215, R349): its symbol's value, or that address for the image's own
name; `none` for an index the table lacks. -/
def symbolValue (i : Image) (a : Nat) (r : Reloc) : Option Int :=
  (i.symbols[r.sym.toNat]?).map (fun y => match y with
    | .value x => x
    | .own => (a : Int))

/-- Extension words and value to write of a relocation with V = `v` (R215); `none` for one that makes the loader refuse. DESIGN
CHOICE (log entry 56): for CWIN, a mooring bundle's code-window offset is its byte offset within the image's code. -/
def relocField (i : Image) (r : Reloc) (v : Int) : Option (Nat × Int) :=
  let o := r.slot.toNat
  let d : Int := memSize (codeAt i.code o)
  let inHeader := i.moors.any (fun m => decide (m.2 ≤ o) && decide (o < m.2 + 16))
  let ok (lo hi : Int) (k : Nat) : Option (Nat × Int) := if lo ≤ v ∧ v ≤ hi ∧ v % d = 0 then some (k, v / d) else none
  if inHeader ∨ (i.code.any (fun w => w.1 = o)) = false then none
  else match r.typ.toNat with
  | 1 => ok (-64) 63 0
  | 2 => ok (-(2 ^ 34)) (2 ^ 34 - 1) 1
  | 3 => ok (-(2 ^ 62)) (2 ^ 62 - 1) 2
  | 4 => if i.moors.any (fun m => (m.2 : Int) = v) then ok 0 0xFFFC 1 else none
  | 5 => ok 0 0x1FFFFF 1
  | 6 => ok 0 0xFFFFFFFFFFFF 2
  | _ => none

/-- The same for a record of an image placed at virtual address `a`: V = S + A, with A signed. -/
def relocValue (i : Image) (a : Nat) (r : Reloc) : Option (Nat × Int) :=
  (symbolValue i a r).bind (fun x => relocField i r (x + r.addend.toInt))

/-- Is the specialisation record well formed: kind, fill, and a slot of its kind's shape (R217)? -/
def specOk (i : Image) (r : Spec) : Bool :=
  let w := codeAt i.code r.slot
  let k (n : Nat) : Bool := decide ((codeAt i.code (r.slot + 4 * n)).toNat / 2 ^ 28 % 8 = 6)
  let cls := w.toNat / 2 ^ 28 % 8
  let opc := w.toNat / 2 ^ 22 % 64
  let li := decide (cls = 0 ∧ opc = 0x25)
  decide (r.fill ≤ 1) && (match r.kind with
    | 1 => li && k 1 && k 2
    | 2 => decide (cls = 1 ∧ opc = 0x21 ∧ w.toNat / 2 ^ 19 % 8 = 3) && k 1 && !k 2
    | 3 => li && k 1 && !k 2
    | _ => false)

/-- The signature of the segment whose mooring bundle stands at `m` is computed again (R55, R216): it ends at the next mooring
bundle, or with the image's code. -/
def signSegment (i : Image) (m : Nat) : Image :=
  let last := i.code.foldl (fun a w => max a (w.1 + 4)) 0
  let next := (i.moors.filter (fun x => decide (m < x.2))).foldl (fun a x => min a x.2) last
  let words := ((List.range ((next - (m + 16)) / 4)).map (fun j => m + 16 + 4 * j)).filter (fun o => i.code.any (fun w => w.1 = o))
  let sig := (crcFinal (words.foldl (fun c o => crcWord c (codeAt i.code o)) crcInit)).toNat
  let code := setPayload i.code (m + 8) sig
  let h := (codeAt code (m + 12)).toNat
  { i with code := setCode code (m + 12) (BitVec.ofNat 32 (h / 16 * 16 + sig / 2 ^ 28 % 16)) }

/-- The mooring bundle of the segment that holds a code offset. -/
def segmentOf (i : Image) (o : Nat) : Option Nat :=
  (i.moors.filter (fun m => decide (m.2 ≤ o))).foldl (fun a m => match a with
    | none => some m.2
    | some b => some (max b m.2)) none

/-- The segments of the slots are signed again. -/
def signSlots (i : Image) (slots : List Nat) : Image := (dedup (slots.filterMap (segmentOf i))).foldl signSegment i

/-- Every relocation applied, with the image at virtual address `a` (R215, R216, R349). -/
def relocate (i : Image) (a : Nat) : Option Image :=
  let vs := i.relocs.map (fun r => (r, relocValue i a r))
  if vs.any (fun v => v.2.isNone) then none
  else
    let code := vs.foldl (fun l v => match v.2 with
      | some (k, x) => setImmediate l v.1.slot.toNat k x
      | none => l) i.code
    some (signSlots { i with code := code } (i.relocs.map (·.slot.toNat)))

/-- The words of an image that differ from what stood there are written to main memory. -/
def storeCode (s : State) (old new : Image) : State :=
  new.code.foldl (fun s w => if codeAt old.code w.1 = w.2 then s else memPut s (new.codeBase + w.1) (leBytes 4 w.2.toNat)) s

/-- Do the image's bytes lie in main memory (R338, R430)? -/
def inMainMemory (i : Image) : Bool := decide (spaceOf i.codeBase = 1) && decide (spaceOf (i.codeBase + (i.len - 1)) = 1)

/-- Does an entry of a table copy of the partition's die layers place the virtual address outside main memory (R338, R430)? -/
def placedOutside (s : State) (p va : Nat) : Bool :=
  (List.range 8).any (fun l => decide (partAt s (p / 8) l = some p) &&
    (match coveringEntry s (p / 8 * 512 + 384 + l) va with
     | some (_, x) => decide (spaceOf (throughEntry x va) ≠ 1)
     | none => false))

/-- LOAD: the links already dead that the image's paths use join a running job's set (R415, R422). -/
def execLoad (p : Nat) (s : State) : Host.Outcome State Fault Refusal :=
  .next (inStates s p 2 7 (fun s =>
    let a := (mbArg s p 0).toNat
    let n := (mbArg s p 1).toNat
    if 2 ^ 48 < a + n ∨ placedOutside s p a = true ∨ placedOutside s p (a + (n - 1)) = true then refuse s p 6
    else
      match s.placed.find? (fun x => x.1 = p && x.2.addr = a && x.2.len = n) with
      | none => refuse s p 3
      | some (_, i) =>
        if inMainMemory i = false then refuse s p 6
        else if mapsInForce s (p / 8) i = false then refuse s p 2
        else if i.intact = false ∨ i.specs.all (specOk i) = false then refuse s p 3
        else
          match relocate i a with
          | none => refuse s p 3
          | some j =>
            let h := s.nextHandle
            let s := storeCode s i j
            let s := { s with nextHandle := h + 1, images := s.images ++ [⟨h, p, j⟩] }
            accept (if 3 ≤ (partOf s p).state then recordDead s p else s) p [BitVec.ofNat 64 h]))

/-- Does a queue entry name the handle? -/
def handleQueued (x : Part) (h : Nat) : Bool := x.queue.any (fun e => qHandle e.2 = h)

/-- UNLOAD. -/
def execUnload (p : Nat) (s : State) : Host.Outcome State Fault Refusal :=
  .next (inStates s p 2 7 (fun s =>
    let h := (mbArg s p 0).toNat
    if (imageOf s p h).isNone then refuse s p 4
    else if handleQueued (partOf s p) h then refuse s p 5
    else accept { s with images := s.images.filter (fun i => !(i.handle = h && i.part = p)) } p []))

/-- REBIND (R443): refused when a publication of a package, later than the version the image names for it, touches the image. -/
def execRebind (p : Nat) (s : State) : Host.Outcome State Fault Refusal :=
  .next (inStates s p 2 7 (fun s =>
    let h := (mbArg s p 0).toNat
    match imageOf s p h with
    | none => refuse s p 4
    | some i =>
      if i.img.maps.any (fun m => (pkgOf s m.1).history.any (fun e =>
          decide (m.2.2 < e.1) && touches i.img m.1 e.2.1 e.2.2)) then refuse s p 7
      else
        let v := (pkgOf s (p / 8)).version.toNat
        let img := { i.img with maps := i.img.maps.map (fun m => (m.1, m.2.1, (pkgOf s m.1).version.toNat)) }
        let s := { s with images := s.images.map (fun y =>
          if y.handle = h ∧ y.part = p then { y with img := img } else y) }
        accept s p [BitVec.ofNat 64 v]))

/-! ### Jobs (R338, R72, R101) -/

/-- Is a job of the partition about to start? -/
def startPending (s : State) (p : Nat) : Bool := s.agenda.any (fun d => d.ev = .instr (.jobStart p))

/-- The job starts at the next package tide boundary. -/
def postStart (s : State) (p : Nat) : State := post s none (tideUp (s.now + 1)) 0 none (.instr (.jobStart p))

/-- START. -/
def execStart (p : Nat) (s : State) : Host.Outcome State Fault Refusal :=
  .next (inStates s p 2 2 (fun s =>
    if startPending s p then refuse s p 1
    else
      let s := modPart s p (fun x => { x with job := (mbArg s p 0).toNat % 2 ^ 16, restart := false })
      accept (postStart s p) p []))

/-- END: the job ends at its next launch point at which no launch is running. -/
def execEndJob (p : Nat) (s : State) : Host.Outcome State Fault Refusal :=
  .next (inStates s p 3 4 (fun s => accept (modPart s p (fun x => { x with endAsked := true })) p []))

/-- CANCEL of the mailbox: visible at the first tide boundary after its receipt, in every partition of the job (R72). DESIGN CHOICE (log
entry 50): for one received while the partition is frozen at a boundary, that is the next boundary of the tide counter, not the
boundary at which it resumes. -/
def execCancelCommand (p : Nat) (s : State) : Host.Outcome State Fault Refusal :=
  .next (inStates s p 3 4 (fun s =>
    let a := mbArg s p 0
    let s := (p :: podPeers s p).foldl (fun s q =>
      post s (some q) (tideUp ((partOf s q).tide + 1)) 2 none
        (.instr (.cancelVisible q (BitVec.ofNat 2 (fieldOf a 0 2)) (BitVec.ofNat 16 (fieldOf a 16 16))))) s
    accept s p []))

/-- HOLD and RELEASE: reason bit 4. -/
def execHold (p : Nat) (s : State) : Host.Outcome State Fault Refusal :=
  .next (inStates s p 3 4 (fun s => accept (decideFreeze s p 4 ((partOf s p).tide + 1)) p []))

def execRelease (p : Nat) (s : State) : Host.Outcome State Fault Refusal :=
  .next (inStates s p 3 4 (fun s => accept (clearReason s p 4) p []))

/-- CKPT: a migration stop is pending from the first tide boundary after its receipt (R440). -/
def execCkpt (p : Nat) (s : State) : Host.Outcome State Fault Refusal :=
  .next (inStates s p 3 3 (fun s =>
    accept (modPart s p (fun x => { x with ckptAsked := some (tideUp (x.tide + 1)) })) p []))

/-! ### PATCH (R218) -/

/-- Does the slot's code reach the window of core `g`, one of the partition's package? -/
def patchHits (p : Nat) (r : Spec) (g : Nat) : Bool :=
  decide (g / 512 = p / 8) && (if r.fill = 0 then g % 512 = r.target else layerOf g = r.target)

/-- The cores of the partition whose windows the slot's code reaches; those of its save area while it is Saved. -/
def patchCores (s : State) (p : Nat) (r : Spec) : List Nat :=
  (if (partOf s p).state = 5 then ((partOf s p).saved.map (fun c => c.cores.map (·.1))).getD [] else partCores s p).filter
    (patchHits p r)

/-- Is a launch of the handle running, or saved while it ran, on a core that the slot's code reaches? -/
def runsOn (s : State) (p h : Nat) (r : Spec) : Bool :=
  (partOf s p).launches.any (fun l => l.handle = h && l.cores.any (patchHits p r))

/-- The image with the slot's value replaced (R217). -/
def patched (i : Image) (k : Nat) (r : Spec) (v : Word) : Image :=
  let specs := (i.specs.take k) ++ { r with value := v } :: i.specs.drop (k + 1)
  let code := match r.kind with
    | 1 =>
      -- LI with two K slots reaches 63 bits; its VAR inverts bit 63 of the extended immediate (R226)
      let x := v.getLsbD 63 != v.getLsbD 62
      let w := (codeAt i.code r.slot).toNat
      setImmediate (setCode i.code r.slot (BitVec.ofNat 32 (w - (w / 2 ^ 19 % 8) * 2 ^ 19 + x.toNat * 2 ^ 19))) r.slot 2 v.toInt
    | 2 => setImmediate i.code r.slot 1 (v.truncate 32 : BitVec 32).toInt
    | _ => setImmediate i.code r.slot 1 v.toInt
  signSlots { i with specs := specs, code := code } [r.slot]

/-- Is the value one of the kind's (R217)? KIND 2 takes the low 32 bits of any value. -/
def specRange (r : Spec) (v : Word) : Bool :=
  match r.kind with
  | 1 => true
  | 2 => true
  | _ => decide (v.toNat % 256 = 0) && decide (v.toNat < 0x200000)

/-- The core of number `g` in the save area of the partition is replaced. -/
def modSaved (s : State) (p g : Nat) (f : Core → Core) : State :=
  modPart s p (fun x => { x with saved := x.saved.map (fun c => { c with
    cores := c.cores.map (fun e => if e.1 = g then (g, f e.2) else e) }) })

/-- The window of core `g`, or of its record in the save area, holds no valid word any more: those that staging fills again are noted
(R218, steps 3 and 4). -/
def dropWindow (s : State) (p h g : Nat) : State :=
  let old := if (partOf s p).state = 5 then
      (((partOf s p).saved.bind (fun c => c.cores.find? (fun e => e.1 = g))).map (·.2)).getD Core.reset
    else coreOf s g
  let ws := (old.codeValid.filter (·.2)).map (·.1)
  let s := modPart s p (fun x => { x with refill := x.refill ++ [(h, g, ws)] })
  if (partOf s p).state = 5 then modSaved s p g (fun c => { c with codeValid := [] })
  else modCore s g (fun c => { c with codeValid := [] })

/-- The image's copy in the window of core `g` is invalid. A core that runs another image's launch holds that image's code. -/
def dropCopy (s : State) (p h g : Nat) : State :=
  if (partOf s p).launches.any (fun l => l.cores.contains g) then s else dropWindow s p h g

/-- PATCH: the image in main memory, its signature, and the resident copies (R218). -/
def execPatch (p : Nat) (s : State) : Host.Outcome State Fault Refusal :=
  .next (inStates s p 2 7 (fun s =>
    let h := (mbArg s p 0).toNat
    let k := (mbArg s p 1).toNat
    let v := mbArg s p 2
    match imageOf s p h with
    | none => refuse s p 4
    | some i =>
      match i.img.specs[k]? with
      | none => refuse s p 6
      | some r =>
        if specRange r v = false then refuse s p 6
        else if runsOn s p h r then refuse s p 1
        else
          let j := patched i.img k r v
          let s := storeCode s i.img j
          let s := { s with images := s.images.map (fun y => if y.handle = h ∧ y.part = p then { y with img := j } else y) }
          accept ((patchCores s p r).foldl (fun s g => dropCopy s p h g) s) p []))

/-! ### Attestation (R346) -/

/-- The attestation report of die layer `k`, signed with its identity key by the specimen (R42). -/
def reportBytes (s : State) (k : Nat) (nonce : List Byte) : List Byte :=
  let x := pkgOf s (k / 8)
  let head := leBytes 4 0x4B565250 ++ leBytes 8 x.spec.toNat ++ leBytes 4 (k % 8) ++ nonce ++
    (List.range 8).flatMap (fun i => leBytes 32 (tabGet (zeroAt (w := 256)) x.mr (k % 8 * 8 + i)).toNat) ++
    leBytes 4 x.version.toNat ++ leBytes 64 (Config.sm2Key k).toNat ++ leBytes 64 (Config.sm2Endorsement k).toNat
  let d := Config.sm3 head
  padTo 1024 (head ++ leBytes 32 d.toNat ++ leBytes 64 (Config.sm2Sign k x.spec d).toNat)

/-- ATTEST. -/
def execAttest (p : Nat) (s : State) : Host.Outcome State Fault Refusal :=
  .next (inStates s p 2 7 (fun s =>
    let l := (mbArg s p 4).toNat
    if 8 ≤ l then refuse s p 6
    else
      let nonce := (List.range 4).flatMap (fun i => leBytes 8 (mbArg s p i).toNat)
      accept (modPart s p (fun x => { x with report := reportBytes s (p / 8 * 8 + l) nonce })) p []))

/-! ### RESUMECK (R441, R442) -/

/-- `n` bytes at offset `o` of main memory of package `k`, as a number. -/
def mainNat (s : State) (k o n : Nat) : Nat := leNat (memBytes s (mainAddr k o) n)

/-- The handle that a handle map of `n` pairs at `o` gives. -/
def mapHandle (s : State) (k o n h : Nat) : Nat :=
  match (List.range n).find? (fun i => mainNat s k (o + 8 * i) 4 = h) with
  | some i => mainNat s k (o + 8 * i + 4) 4
  | none => h

/-- The bytes of extents in table order. -/
def splitExtents (xs : List (Nat × Nat)) (bs : List Byte) : List (Nat × List Byte) :=
  match xs with
  | [] => []
  | (o, n) :: t => (o, bs.take n) :: splitExtents t (bs.drop n)

/-- One section at offset `o`: the section, and its length. `h` gives the queue's handles. -/
def readSection (s : State) (p k o : Nat) (h : Nat → Nat) : CkSection × Nat :=
  let e := mainNat s k o 1
  let ord := mainNat s k (o + 4) 4
  let size := mainNat s k (o + 0x2C) 4
  let n := mainNat s k (o + 0x30) 4
  let status := (List.range 1024).map (fun v => (v, mainNat s k (o + 0x100 + v / 4) 1 / 4 ^ (v % 4) % 4))
  let vids := (status.filter (fun v => v.2 = 1)).map (·.1)
  let xs := match imageOf s p (h e) with
    | some i => (i.img.extents.filter (fun x => x.1 = ord)).map (fun x => (x.2.2.1, x.2.2.2))
    | none => []
  let unit (j : Nat) : CkUnit :=
    let u := o + 512 + j * (320 + size)
    { vid := vids.getD j 0
      s := (List.range 32).foldl (fun t i => tabSet zeroAt t i (BitVec.ofNat 64 (mainNat s k (u + 8 * i) 8))) []
      lc := (List.range 4).foldl (fun t i => tabSet zeroAt t i (BitVec.ofNat 32 (mainNat s k (u + 256 + 4 * i) 4))) []
      extents := splitExtents xs (memBytes s (mainAddr k (u + 320)) size) }
  ({ entry := e, handle := h e, ord := ord, digest := BitVec.ofNat 256 (mainNat s k (o + 8) 32), nvc := mainNat s k (o + 0x28) 2
     status := status, units := (List.range n).map unit }, 512 + n * (320 + size))

/-- `n` sections from offset `o`, and where they end. -/
def readSections (s : State) (p k : Nat) (h : Nat → Nat) : Nat → Nat → List CkSection × Nat
  | 0, o => ([], o)
  | n + 1, o =>
    let r := readSection s p k o h
    let t := readSections s p k h n (o + r.2)
    (r.1 :: t.1, t.2)

/-- Members that a saved completion register counts beyond the restored queue's (R442): those emptied before the checkpoint, all of
them done. The register's ID names the graph or phase; the other identifier is one that nothing has. -/
def restGone (x : Part) (graph phase : Word) (enq : Nat) : List (Nat × Nat × Nat) :=
  let g := fieldOf graph 32 16
  let f := fieldOf phase 32 16
  List.replicate (fieldOf graph 16 16 - (graphCounts x g).length) (g, 256, enq - 1) ++
  List.replicate (fieldOf phase 16 16 - (phaseCounts x f).length) (2 ^ 16, f, enq - 1)

/-- Where the entries of the phases start that the checkpoint has closed, and of its current phase, of which the register counts
`total` (R442): after the finished entries of the closed ones, and at the `total`-th newest entry of the current one. -/
def restFrom (x : Part) (phase done total : Nat) : List (Nat × Nat) :=
  let fin := x.queue.filter (fun e => (qState e.2 = 3 || qState e.2 = 4) && qPhase e.2 ≠ phase &&
    (phase + 256 - qPhase e.2) % 256 ≤ done)
  let now := (x.queue.filter (fun e => qState e.2 ≠ 0 && qPhase e.2 = phase)).map (fun e => qOrd e.2)
  let from_ := now.foldl (fun m o => if (now.filter (fun q => decide (o ≤ q))).length ≤ total then min m o else m) x.enq
  fin.map (fun e => (qPhase e.2, qOrd e.2 + 1)) ++ (if total < now.length then [(phase, from_)] else [])

/-- The level instances whose saved registers show a cancel (R70, R442). -/
def restCanc (launch graph phase : Word) : List (Nat × Nat) :=
  ([(0, launch), (1, graph), (2, phase)].filter (fun e => e.2.getLsbD 48)).map (fun e => (e.1, fieldOf e.2 32 16))

/-- The bits of a queue entry that no Reserved field holds (R16, R76). -/
def queueMask : BitVec 256 :=
  BitVec.ofNat 256 ((2 ^ 62 - 1) + (2 ^ 12 - 1) * 2 ^ 64 + (2 ^ 24 - 1) * 2 ^ 80 + (2 ^ 112 - 1) * 2 ^ 128)

/-- The partition as the checkpoint at `o` restores it, with its queue and sections. DESIGN CHOICE (log entry 56): the counters of
graphs other than that of the launch started last count what the queue holds. -/
def restoreJob (s : State) (k o : Nat) (queue : Tab (BitVec 256)) (secs : List CkSection) (x : Part) : Part :=
  let reg (i : Nat) : Word := BitVec.ofNat 64 (mainNat s k (o + 0x28 + 8 * i) 8)
  let job := reg 3
  let phase := mainNat s k (o + 0x12) 1
  let y := { x with queue := queue, enq := mainNat s k (o + 0x68) 8, gone := [], oldOrds := [], wkSaved := [reg 0, reg 1] }
  let y := { y with phaseFrom := restFrom y phase (fieldOf job 0 16) (fieldOf (reg 2) 16 16) }
  let marks := (List.range 4).map (fun i => BitVec.ofNat 64 (mainNat s k (o + 0x48 + 8 * i) 8))
  { y with
    job := mainNat s k (o + 0x10) 2, phase := phase, phasesDone := fieldOf job 0 16
    jobCanc := job.getLsbD 48, gone := restGone y (reg 1) (reg 2) y.enq, cancInst := restCanc (reg 0) (reg 1) (reg 2)
    chans := ((List.range 4).zip marks).foldl (fun t e => tabSet zeroAt t e.1 e.2) []
    chanNext := ((List.range 4).zip marks).foldl (fun t e => tabSet zeroAt t e.1 (BitVec.ofNat 64 (fieldOf e.2 32 32))) []
    resume := secs, restart := true, state := 2, saved := none }

/-- RESUMECK. -/
def execResumeck (p : Nat) (s : State) : Host.Outcome State Fault Refusal :=
  let k := p / 8
  let x := partOf s p
  .next (if (x.state ≠ 2 ∧ x.state ≠ 7) ∨ startPending s p = true then refuse s p 1
  else
    let o := (mbArg s p 0).toNat
    let ho := (mbArg s p 1).toNat
    let hn := (mbArg s p 2).toNat
    let len := mainNat s k (o + 8) 8
    if 64 < hn ∨ 2 ^ 39 < o + 4096 ∨ 2 ^ 39 < ho + 8 * hn then refuse s p 6
    else if mainNat s k o 4 ≠ 0x4B564350 ∨ len < 4096 then refuse s p 3
    else if 2 ^ 39 < o + len then refuse s p 6
    else if x.state = 7 ∧ layersFree s k x.layers = false then refuse s p 8
    else
      let bs := memBytes s (mainAddr k o) len
      let d := Config.sm3 (bs.take 0xFE0 ++ List.replicate 32 0 ++ bs.drop 4096)
      let queue := (List.range 64).foldl (fun (t : Tab (BitVec 256)) e =>
        let w := BitVec.ofNat 256 (mainNat s k (o + 0x100 + 32 * e) 32) &&& queueMask
        tabSet zeroAt t e (qSet w 0 32 (mapHandle s k ho hn (qHandle w)))) []
      let h (e : Nat) : Nat := qHandle (tabGet zeroAt queue e)
      let n := mainNat s k (o + 4) 4
      if d.toNat ≠ mainNat s k (o + 0xFE0) 32 ∨ 8 < n then refuse s p 3
      else
        let r := readSections s p k h n (o + 4096)
        let ok := r.1.all (fun c => match boundImage s p c.handle with
          | some i => decide (i.img.bexvar = c.digest)
          | none => false)
        if ok = false ∨ r.2 ≠ o + len then refuse s p 3
        else accept (postStart (modPart s p (restoreJob s k o queue r.1)) p) p [])

end Sys2Proof.Machine
end

