-- ==== Sys2Proof/Machine/Context.lean ====
section
/-! DEFINITION. Freeze contexts (18, R428 to R437): the context commands, the save area with its layer headers and core
records, SAVE and RESTORE. -/

namespace Sys2Proof.Machine

/-! ### The save area (R432) -/

/-- Main-memory offset of the spill region of the layer with rank `r`. -/
def spillBase (x : Part) (r : Nat) : Nat := fieldOf (tabGet zeroAt x.context 2) 16 23 * 65536 + 0x3000000 * r

/-- Key of the record of mesh position `pos` of layer `l` with rank `r`. -/
def recordAddr (x : Part) (n r l pos : Nat) : Nat :=
  if pos < 33 then shadowAddr (8 * n + l) (0x40000 + 0x300000 * pos)
  else mainAddr n (spillBase x r + 0x300000 * (pos - 33))

/-- Byte `i` of cells of 8 bytes, and of words of 4 bytes. -/
def cellByte (t : Tab Word) (i : Nat) : Byte := byteOf (tabGet (zeroAt (w := 64)) t (i / 8)).toNat (i % 8)
def wordByte (t : Tab (BitVec 32)) (i : Nat) : Byte := byteOf (tabGet (zeroAt (w := 32)) t (i / 4)).toNat (i % 4)

/-- Byte `o` of the record of core `g`; the order of the state area is the device's own (see the assumption log). -/
def recordByte (s : State) (g o : Nat) : Byte :=
  let c := coreOf s g
  if o < 0x200000 then memByte s (sliceAddr g o)
  else if o < 0x240000 then cellByte c.live.acc (o - 0x200000)
  else if o < 0x280000 then cellByte c.shadow.acc (o - 0x240000)
  else if o < 0x290000 then wordByte c.live.marg (o - 0x280000)
  else if o < 0x2A0000 then wordByte c.shadow.marg (o - 0x290000)
  else if o < 0x2B0000 then wordByte c.code (o - 0x2A0000)
  else if o < 0x2C0000 then byteOf (tagOf s (sliceAddr g ((o - 0x2B0000) / 2 * 64))) (o % 2)
  else Config.stateAreaByte ((s.now * 2 ^ 15 + g) * 2 ^ 18 + (o - 0x2C0000))

/-- Poisoned 8-byte words of the record of core `g`, by their number in it (R433); one holds four owner tags. -/
def recordBad (s : State) (g : Nat) : List Nat :=
  let c := coreOf s g
  let of (bad : Tab Nat) (arr base : Nat) : List Nat :=
    (bad.filter (fun e => e.1 / 2 ^ 24 = arr && e.2 = 1000)).map (fun e => base / 8 + e.1 % 2 ^ 24)
  (s.memBad.filter (fun e => e.1 * 8 / 2 ^ 30 = g && e.2 = 1000)).map (fun e => e.1 - g * 2 ^ 27) ++
  dedup ((s.tagBad.filter (fun e => e.1 * 64 / 2 ^ 30 = g && e.2 = 1000)).map (fun e => 0x2B0000 / 8 + (e.1 - g * 2 ^ 24) / 4)) ++
  of c.live.bad 1 0x200000 ++ of c.shadow.bad 1 0x240000 ++ of c.live.bad 2 0x280000 ++ of c.shadow.bad 2 0x290000 ++
  (c.codeBad.filter (fun e => e.2 = 1000)).map (fun e => 0x2A0000 / 8 + e.1)

/-- CRC-32C of bytes (R55). -/
def crcBytes (bs : List Byte) : Nat := (crcFinal (bs.foldl crcByte crcInit)).toNat

/-- Bytes `o` to `o + n - 1` of a record. -/
def recordBytes (s : State) (g o n : Nat) : List Byte := (List.range n).map (fun i => recordByte s g (o + i))

/-- Positions of good cores of layer `l` (R432). -/
def savedPositions (s : State) (n l : Nat) : List Nat := (List.range 48).filter (fun i => goodCore s (512 * n + 48 * l + i))

/-- An element of the failed-peer and dead-link sets as a word: its kind in the top bits. -/
def peerWord : Peer → Nat
  | .core g => g
  | .pkg n => 2 ^ 30 + n
  | .link n u => 2 ^ 31 + n * 2 ^ 16 + u

/-- The partition state of a layer header: the pieces of R432 in the order named there, eight bytes to a word, and last the two
sets, as their number and a word for each element. -/
def partStateBytes (x : Part) : List Byte :=
  (padTo 4096 (wordsBytes 32 ((List.range 64).map (fun e => (queueEntry x e).toNat)) ++
    wordsBytes 8 ((List.range 4).map (fun i =>
      (hostCompletion x i).toNat)) ++
    leBytes 8 (frzStat x).toNat ++ wordsBytes 8 ((List.range 4).map (fun i => (tabGet (zeroAt (w := 64)) x.chans i).toNat)) ++
    leBytes 8 x.enq ++ leBytes 8 x.phase ++ leBytes 8 x.failed.length ++ wordsBytes 4 (x.failed.map peerWord))).take 4096

/-- The owner tag of the partition's context (R161). -/
def partTag (p : Nat) (x : Part) : Nat := p % 8 * 512 + x.ctx % 512

/-- The header of layer `l` without its digest. The map version is the one in force at the freeze boundary (R436). -/
def headerBody (s : State) (p l : Nat) : List Byte :=
  let n := p / 8
  let x := partOf s p
  let k := pkgOf s n
  let ps := savedPositions s n l
  let head := leBytes 8 0x4B565356 ++ leBytes 8 k.spec.toNat ++ leBytes 4 x.frzVer ++
    leBytes 2 (x.frzSubs.getD l 0) ++ leBytes 1 (p % 8) ++ leBytes 1 l ++ leBytes 8 x.frzB ++ leBytes 8 x.frzAt ++
    leBytes 2 x.job ++ leBytes 2 (partTag p x) ++ leBytes 4 x.layers ++
    leBytes 6 (ps.foldl (fun m i => m + 2 ^ i) 0)
  let crcs := (List.range 48).flatMap (fun i =>
    if ps.contains i then (List.range 768).flatMap (fun b => leBytes 4 (crcBytes (recordBytes s (512 * n + 48 * l + i) (4096 * b) 4096)))
    else List.replicate 3072 0)
  let table := (List.range 4096).flatMap (fun e => leBytes 16 (tableEntry s (8 * n + l) e).toNat)
  padTo 0x3FFE0 (padTo 0x100 head ++ crcs ++ table ++ partStateBytes x)

/-- The layers of a mask in ascending order. -/
def layersOf (mask : Nat) : List Nat := (List.range 8).filter (fun l => mask / 2 ^ l % 2 = 1)

/-- The same with their ranks. -/
def rankedLayers (mask : Nat) : List (Nat × Nat) := (layersOf mask).zip (List.range (layersOf mask).length)

/-- Bytes from address `a`, a multiple of 64, are written with good SECDED; lines of a shadow store take the owner tag `t` (R160,
R161). -/
def putArea (s : State) (a t : Nat) (bs : List Byte) : State :=
  let s := memPut s a bs
  let s := { s with memBad := s.memBad.filter (fun e => !(decide (a / 8 ≤ e.1) && decide (e.1 < (a + bs.length) / 8))) }
  if 2 ^ 52 ≤ a then (List.range (bs.length / 64)).foldl (fun s i => setTag s (a + 64 * i) t) s else s

/-- The save area of layer `l` with rank `r` is written. -/
def writeArea (s0 : State) (p r l : Nat) (s : State) : State :=
  let n := p / 8
  let x := partOf s0 p
  let s := (savedPositions s0 n l).foldl (fun s i =>
    let g := 512 * n + 48 * l + i
    let a := recordAddr x n r l i
    let s := putArea s a (partTag p x) (recordBytes s0 g 0 0x300000)
    (recordBad s0 g).foldl (fun s w => setBad s (a + 8 * w) 1000) s) s
  let h := headerBody s0 p l
  putArea s (shadowAddr (8 * n + l) 0) (partTag p x) (h ++ leBytes 32 (Config.sm3 h).toNat)

/-! ### SAVE (R433) -/

/-- Reads of a save that meet bad words are counted (R397 to R399). -/
def saveReads (s : State) (g : Nat) : State :=
  let c := coreOf s g
  let kind (e : Nat × Nat) : Nat := (decide (e.2 = 1000)).toNat
  let s := (s.memBad.filter (fun e => e.1 * 8 / 2 ^ 30 = g)).foldl (fun s e => postError s g (kind e) 0 (e.1 - g * 2 ^ 27) 1) s
  let s := (s.tagBad.filter (fun e => e.1 * 64 / 2 ^ 30 = g)).foldl (fun s e => postError s g (kind e) 11 (e.1 - g * 2 ^ 24) 1) s
  let s := c.live.bad.foldl (fun s e => postError s g (kind e) (e.1 / 2 ^ 24) (errorWord (e.1 / 2 ^ 24) (e.1 % 2 ^ 24)) 1) s
  let s := (c.shadow.bad ++ c.shadow2.bad).foldl (fun s e =>
    postError s g (kind e) 8 (shadowWord (e.1 / 2 ^ 24) (e.1 % 2 ^ 24)) 1) s
  c.codeBad.foldl (fun s e => postError s g (kind e) 6 (errorWord 6 e.1) 1) s

/-- A core as a save reads it: words with one bad bit are corrected, and poison comes with the words (R397, R398). -/
def savedCore (c : Core) : Core :=
  let keep (t : Tab Nat) : Tab Nat := t.filter (fun e => e.2 = 1000)
  { c with
    live := { c.live with bad := keep c.live.bad }, shadow := { c.shadow with bad := keep c.shadow.bad }
    shadow2 := { c.shadow2 with bad := keep c.shadow2.bad }, codeBad := keep c.codeBad }

/-- Cells of a table whose keys, times `m`, lie in the slices of the cores. -/
def sliceCells {α : Type} (m : Nat) (gs : List Nat) (t : Tab α) : Tab α := t.filter (fun e => gs.contains (e.1 * m / 2 ^ 30))
def otherCells {α : Type} (m : Nat) (gs : List Nat) (t : Tab α) : Tab α := t.filter (fun e => !gs.contains (e.1 * m / 2 ^ 30))

/-- Is a flit one that the cores' records hold: it has arrived at one of them, or has not departed (R104)? The others are on their
way to homes elsewhere, and go on. -/
def caughtFlit (s : State) (p : Nat) (gs : List Nat) (f : Flit) : Bool :=
  gs.contains f.home || (gs.contains f.core && s.agenda.any (fun d => d.clk = some p && d.ev = .instr (.linkFlit f.id 0)))

/-- Is something that a core of the partition sent, or is to receive, still on a wire or at a stack (R433)? -/
def onWire (s : State) (gs : List Nat) : Bool :=
  let flit (id : Nat) : Bool := s.flits.any (fun f => f.id = id && (gs.contains f.core || gs.contains f.home))
  let xfer (op : Nat) : Bool := s.xfers.any (fun x => x.id = op && gs.contains x.g)
  s.agenda.any (fun d => d.clk.isNone && (match d.ev with
    | .instr (.linkFlit f _) => flit f
    | .instr (.flitLost f) => flit f
    | .instr (.stagedWriteLanding f) => flit f
    | .instr (.remoteRead f) => flit f
    | .stackAsk op _ _ => xfer op
    | .instr (.pieceTransfer op _ _) => xfer op
    | _ => false))

/-- The partition's context, as SAVE takes it. -/
def takeContext (s : State) (p : Nat) : Saved :=
  let x := partOf s p
  let gs := partCores s p
  { b := x.frzB, bAt := x.frzAt, tag := partTag p x, cores := gs.map (fun g => (g, savedCore (coreOf s g)))
    memBad := sliceCells 8 gs s.memBad, tagBad := sliceCells 64 gs s.tagBad
    agenda := s.agenda.filter (fun d => d.clk = some p), xfers := s.xfers.filter (fun y => gs.contains y.g)
    flits := s.flits.filter (caughtFlit s p gs)
    bops := s.bops.filter (fun b => gs.contains b.g), notes := s.notes.filter (fun y => gs.contains y.ref.core) }

/-- Every save area of the partition is written (R433, steps 1 to 3). -/
def writeAreas (s : State) (p : Nat) : State :=
  (rankedLayers (partOf s p).layers).foldl (fun t l => writeArea s p l.2 l.1 t) s

/-- The cores of a partition, and what was in flight with them, leave the machine. -/
def leaveLayers (s : State) (p : Nat) (gs : List Nat) : State :=
  let s := { s with
    agenda := s.agenda.filter (fun d => d.clk ≠ some p), xfers := s.xfers.filter (fun y => !gs.contains y.g)
    flits := s.flits.filter (fun f => !caughtFlit s p gs f), bops := s.bops.filter (fun b => !gs.contains b.g)
    notes := s.notes.filter (fun y => !gs.contains y.ref.core) }
  gs.foldl (fun s g => modCore s g (fun c => { c with run := .idle, entry := none, berth := [], roll := none })) s

/-- SAVE completes: the area stands, the die layers are free, and the partition is Saved. -/
def saveNow (s : State) (p : Nat) : State :=
  let gs := partCores s p
  let s := gs.foldl saveReads s
  let c := takeContext s p
  setResult (modPart (leaveLayers (writeAreas s p) p gs) p (fun x => { x with saved := some c, state := 5 })) p 0 false

/-- SAVE completes when the last flit on the wire at B has landed in its buffer (R104, R433). -/
def saveDone (s : State) (p : Nat) : State :=
  if onWire s (partCores s p) then post s none (s.now + 1) 0 none (.contextDone p) else saveNow s p

/-! ### RESTORE (R434, R437) -/

/-- `n` bytes at offset `o` of the header of layer `l`. -/
def headerNat (s : State) (n l o k : Nat) : Nat := leNat (memBytes s (shadowAddr (8 * n + l) o) k)

/-- Does the header of layer `l` fail: its magic or its digest? -/
def headerFails (s : State) (n l : Nat) : Bool :=
  headerNat s n l 0 4 ≠ 0x4B565356 ||
    headerNat s n l 0x3FFE0 32 ≠ (Config.sm3 (memBytes s (shadowAddr (8 * n + l) 0) 0x3FFE0)).toNat

/-- The die layers that the headers name (R434); those the partition had, where the first header fails. -/
def savedLayers (s : State) (p : Nat) : Nat :=
  match layersOf (partOf s p).layers with
  | l :: _ => if headerFails s (p / 8) l then (partOf s p).layers else headerNat s (p / 8) l 0x2C 1
  | [] => 0

/-- The saved state areas that stand in the save area whose first layer is `l`: those of the context that its header names, by its
tag, boundary and package cycle (see the assumption log). -/
def savedState (s : State) (p l : Nat) : Option Saved :=
  let own := (partOf s p).saved.toList
  let all := own ++ s.parts.filterMap (fun e => e.2.saved)
  let hit := all.find? (fun c => decide (c.tag = headerNat s (p / 8) l 0x2A 2) && decide (c.b = headerNat s (p / 8) l 0x18 8) &&
    decide (c.bAt = headerNat s (p / 8) l 0x20 8))
  hit.or own.head?

/-- Subclass of the failure of block `b` of the record at `a`, if it fails: 8 for an uncorrectable word that SAVE did not
write poisoned, 9 for its CRC-32C. -/
def blockFails (s : State) (hdr a pos b : Nat) (known : List Nat) : Option Nat :=
  if (List.range 512).any (fun i => badAt s (a + 4096 * b + 8 * i) = 1000 && !known.contains (512 * b + i)) then some 8
  else if leNat (memBytes s (hdr + 0x100 + 4 * (768 * pos + b)) 4) ≠ crcBytes (memBytes s (a + 4096 * b) 4096) then some 9
  else none

/-- Poisoned words of the saved record of core `g`. -/
def savedBad (c : Saved) (g : Nat) : List Nat :=
  recordBad { State.reset with
    memBad := c.memBad, tagBad := c.tagBad, cores := c.cores.foldl (fun t e => tabSet (fun _ => Core.reset) t e.1 e.2) [] } g

/-- The records of the save area: layer, rank, position. -/
def savedRecords (s : State) (p : Nat) : List (Nat × Nat × Nat) :=
  (rankedLayers (partOf s p).layers).flatMap (fun l =>
    ((List.range 48).filter (fun i => headerNat s (p / 8) l.1 0x30 6 / 2 ^ i % 2 = 1)).map (fun i => (l.1, l.2, i)))

/-- The first failure of the save area: layer, rank, position, offset and subclass. Every header is checked before the first
record (R434, steps 1 and 3). -/
def areaFails (s : State) (p : Nat) (c : Saved) : Option (Nat × Nat × Nat × Nat × Nat) :=
  let n := p / 8
  ((rankedLayers (partOf s p).layers).findSome? (fun l =>
    if headerFails s n l.1 then some (l.1, l.2, 0, 0x3FFFFF, 9) else none)).orElse (fun _ =>
  (savedRecords s p).findSome? (fun r =>
    (List.range 768).findSome? (fun b =>
      (blockFails s (shadowAddr (8 * n + r.1) 0) (recordAddr (partOf s p) n r.2.1 r.1 r.2.2) r.2.2 b
        (savedBad c (512 * n + 48 * r.1 + r.2.2))).map (fun k => (r.1, r.2.1, r.2.2, 4096 * b, k)))))

/-- The record of a failed restore is written at the core of the failed record (R437). -/
def restoreRecord (s : State) (p : Nat) (f : Nat × Nat × Nat × Nat × Nat) : State :=
  let g := 512 * (p / 8) + 48 * f.1 + f.2.2.1
  modCore s g (fun c => writeRecord c g (partOf s p).frzB Pass.none []
    { cls := 0x0B, sub := f.2.2.2.2, slot := 7, bundle := 0, cmd := 0xFFFF, extent := 0, piece := 0, addr := f.2.2.2.1
      detail := BitVec.ofNat 64 (f.2.1 + f.2.2.1 * 2 ^ 3 + (if 33 ≤ f.2.2.1 then 2 ^ 9 else 0)) })

/-- Registers that a restore leaves as they are: the repair table and its summary, the dredger, INJCTL (R402, R403, R458). -/
def ownSys (i : Nat) : Bool := i = 0x428 || i = 0x430 || i = 0x462 || decide (0x4A0 ≤ i ∧ i < 0x4C0)

/-- The nonzero words of `m` bytes among the `n` bytes at address `a`, by number. -/
def areaWords (s : State) (a m n : Nat) : List (Nat × Nat) :=
  (dedup ((s.mem.filter (fun e => decide (a ≤ e.1) && decide (e.1 < a + n))).map (fun e => (e.1 - a) / m))).map (fun i =>
    (i, leNat (memBytes s (a + m * i) m)))

/-- The same as a table of words of `w` bits. -/
def areaTab (w : Nat) (s : State) (a n : Nat) : Tab (BitVec w) :=
  tabSetAll zeroAt [] ((areaWords s a (w / 8) n).map (fun e => (e.1, BitVec.ofNat w e.2)))

/-- The poisoned 8-byte words among the `n` bytes at address `a`, by number. -/
def areaBad (s : State) (a n : Nat) : List Nat :=
  (s.memBad.filter (fun e => decide (a / 8 ≤ e.1) && decide (e.1 < (a + n) / 8) && e.2 = 1000)).map (fun e => e.1 - a / 8)

/-- A file with accumulators and margins of a record, whose places in it are given; poison comes with them. -/
def areaLive (s : State) (acc marg : Nat) (x : Live) : Live :=
  let bad := x.bad.filter (fun e => e.1 / 2 ^ 24 ≠ 1 && e.1 / 2 ^ 24 ≠ 2)
  let new := (areaBad s acc 0x40000).map (fun w => (2 ^ 24 + w, 1000)) ++ (areaBad s marg 0x10000).map (fun w => (2 * 2 ^ 24 + w, 1000))
  { x with acc := areaTab 64 s acc 0x40000, marg := areaTab 32 s marg 0x10000, bad := tabSetAll (fun _ => 0) bad new }

/-- A core with the context of its record at `a`: accumulators, margins and code of the record's bytes, the rest of its state
area's, `new`. -/
def restoreCore (s : State) (a : Nat) (old new : Core) : Core :=
  { new with
    live := areaLive s (a + 0x200000) (a + 0x280000) new.live, shadow := areaLive s (a + 0x240000) (a + 0x290000) new.shadow
    code := areaTab 32 s (a + 0x2A0000) 0x10000
    codeBad := tabSetAll (fun _ => 0) [] ((areaBad s (a + 0x2A0000) 0x10000).map (fun w => (w, 1000)))
    sys := (new.sys.filter (fun e => !ownSys e.1) ++ old.sys.filter (fun e => ownSys e.1)).foldl (fun t e =>
      tabSet sysDefault t e.1 e.2) []
    dredge := old.dredge, svc := new.svc ++ old.svc }

/-- The record at `a` returns to core `g`: its slice, its owner tags and its context. A poisoned word of the tags poisons the four that
it holds (R398). -/
def putRecord (s0 : State) (c : Saved) (s : State) (g a : Nat) : State :=
  let o := sliceAddr g 0
  let new := ((c.cores.find? (fun e => e.1 = g)).map (·.2)).getD Core.reset
  let s := modCore s g (fun old => restoreCore s0 a old new)
  let cells := (s0.mem.filter (fun e => decide (a ≤ e.1) && decide (e.1 < a + 0x200000))).map (fun e => (e.1 - a + o, e.2))
  let tags := (areaWords s0 (a + 0x2B0000) 2 0x10000).map (fun e => (o / 64 + e.1, e.2 % 4096))
  { s with
    mem := tabSetAll zeroAt (otherCells 1 [g] s.mem) cells, tags := tabSetAll (fun _ => 0) (otherCells 64 [g] s.tags) tags
    tagBad := tabSetAll (fun _ => 0) (otherCells 64 [g] s.tagBad) ((areaBad s0 (a + 0x2B0000) 0x10000).flatMap (fun w =>
      (List.range 4).map (fun i => (o / 64 + 4 * w + i, 1000))))
    memBad := tabSetAll (fun _ => 0) (otherCells 8 [g] s.memBad) ((areaBad s0 a 0x200000).map (fun w => (o / 8 + w, 1000))) }

/-- The table copy of a layer's header returns to the layer, and its control core keeps it (R413). -/
def putTable (n : Nat) (s : State) (l : Nat) : State :=
  let k := 8 * n + l
  let es := ((List.range 4096).map (fun e => (k * 4096 + e, BitVec.ofNat 128 (headerNat s n l (0x24100 + 16 * e) 16)))).filter
    (fun e => e.2 ≠ 0)
  let fill (t : Tab (BitVec 128)) : Tab (BitVec 128) := tabSetAll zeroAt (t.filter (fun e => e.1 / 4096 ≠ k)) es
  { s with table := fill s.table, kept := fill s.kept, tableBad := s.tableBad.filter (fun e => e.1 / 4096 ≠ k) }

/-- The context returns to its die layers: what the headers and the records hold, and with the state areas what was in flight. A
layer that is hot holds the partition, and one that has cooled in the meantime no longer does (R24, R106). -/
def putContext (s : State) (p : Nat) (c : Saved) : State :=
  let n := p / 8
  let l0 := (layersOf (partOf s p).layers).headD 0
  let b := headerNat s n l0 0x18 8
  let s1 := (savedRecords s p).foldl (fun t r =>
    putRecord s c t (512 * n + 48 * r.1 + r.2.2) (recordAddr (partOf s p) n r.2.1 r.1 r.2.2)) s
  let s1 := (layersOf (partOf s p).layers).foldl (putTable n) s1
  let s1 := { s1 with
    agenda := s1.agenda ++ c.agenda.map (fun d => { d with clk := some p }), xfers := s1.xfers ++ c.xfers
    flits := s1.flits ++ c.flits, bops := s1.bops ++ c.bops, notes := s1.notes ++ c.notes }
  let why := 4#5 ||| (if hotPart s p then 1#5 else 0#5)
  modPart s1 p (fun x => { x with
    ctx := headerNat s n l0 0x2A 2 % 512, tide := b, frzB := b, state := 4, reasons := (x.reasons &&& 0b11110#5) ||| why, frzNext := x.frzNext ||| why })

/-- RESTORE completes, or stops on a bad save area: STATE 6, RESULT 9. -/
def restoreDone (s : State) (p : Nat) : State :=
  match savedState s p ((layersOf (partOf s p).layers).headD 0) with
  | none => setResult s p 1 false
  | some c =>
    match areaFails s p c with
    | some f => setResult (modPart (restoreRecord s p f) p (fun x => { x with state := 6, saved := none })) p 9 false
    | none => setResult (putContext s p c) p 0 false

/-- A SAVE or RESTORE completes. -/
def contextDone (s : State) (p : Nat) : State :=
  if (tabGet zeroAt (partOf s p).context 1).getLsbD 0 then
    match (partOf s p).state with
    | 4 => saveDone s p
    | 5 => restoreDone s p
    | _ => setResult s p 1 false
  else s

/-! ### The context commands (R429) -/

/-- A context command: GO clears, and while another runs it is refused with code 1. -/
def contextCommand (s : State) (p : Nat) (act : State → State) : State :=
  let s := modPart s p (fun x => { x with context := tabSet zeroAt x.context 0 (withField (tabGet zeroAt x.context 0) 63 1 0) })
  if (tabGet zeroAt (partOf s p).context 1).getLsbD 0 then setResult s p 1 true else act s

/-- BUSY is set, and the command takes its time: half of the bound of R433 and R434, the other half of which is left to the flits
that SAVE waits for. -/
def takeTime (s : State) (p : Nat) : State :=
  let s := modPart s p (fun x => { x with context := tabSet zeroAt x.context 1 (withField (tabGet zeroAt x.context 1) 0 1 1) })
  post s none (s.now + 1 + Config.contextTime s.now % 71999) 0 none (.contextDone p)

/-- FREEZE. -/
def execFreeze (p : Nat) (s : State) : Host.Outcome State Fault Refusal :=
  .next (contextCommand s p (fun s =>
    if (partOf s p).state = 3 then setResult (decideFreeze s p 2 ((partOf s p).tide + 1)) p 0 false
    else setResult s p 1 false))

/-- Does every spill region for the die layers lie in main memory, within one stack (R430, R432)? -/
def spillFits (x : Part) (layers : Nat) : Bool :=
  (List.range (layersOf layers).length).all (fun r =>
    let a := spillBase x r
    decide (a + 0x3000000 ≤ 2 ^ 39) && decide (a / 2 ^ 36 = (a + 0x2FFFFFF) / 2 ^ 36))

/-- Is a rendezvous of the partition held past a failed peer (R423)? -/
def heldPastPeer (s : State) (p : Nat) : Bool := s.rdvs.any (fun r => r.part = p && decide (r.arrivals ≠ []) && rdvFailed s r)

/-- SAVE. -/
def execSave (p : Nat) (s : State) : Host.Outcome State Fault Refusal :=
  .next (contextCommand s p (fun s =>
    if (partOf s p).state ≠ 4 ∨ heldPastPeer s p = true then setResult s p 1 false
    else if spillFits (partOf s p) (partOf s p).layers = false then setResult s p 6 false
    else takeTime s p))

/-- Does a header that passes its check name another specimen, or another map version than the one in force? -/
def otherMap (s : State) (n l : Nat) : Bool :=
  !headerFails s n l && (headerNat s n l 8 8 ≠ (pkgOf s n).spec.toNat || headerNat s n l 0x10 4 ≠ (pkgOf s n).version.toNat)

/-- RESTORE: its die layers must be free, its spill regions in main memory, and the specimen and map version of its headers
those in force. -/
def execRestore (p : Nat) (s : State) : Host.Outcome State Fault Refusal :=
  .next (contextCommand s p (fun s =>
    let ls := savedLayers s p
    if (partOf s p).state ≠ 5 then setResult s p 1 false
    else if layersFree s (p / 8) ls = false then setResult s p 8 false
    else if spillFits (partOf s p) ls = false then setResult s p 6 false
    else if (layersOf ls).any (otherMap s (p / 8)) = true then setResult s p 2 false
    else takeTime (modPart s p (fun x => { x with layers := ls })) p))

/-- Has the partition a stopped core or a failed peer (R445)? -/
def peerDown (s : State) (p : Nat) : Bool :=
  (partCores s p).any (fun g => (coreOf s g).run = .stopped) || peerStops (partOf s p)

/-- RESUME. -/
def execResume (p : Nat) (s : State) : Host.Outcome State Fault Refusal :=
  .next (contextCommand s p (fun s =>
    if (partOf s p).state ≠ 4 ∨ peerDown s p = true then setResult s p 1 false
    else setResult (clearReason s p 2) p 0 false))

/-- A partition's job ends and its queue is emptied. One that held no die layers takes back those of its own that are free. -/
def discardPart (s : State) (p : Nat) : State :=
  let x := partOf s p
  let own := if 4 < x.state then
      ((layersOf x.layers).filter (layerFree s (p / 8))).foldl (fun m l => m + 2 ^ l) 0
    else x.layers
  modPart (endPartition s p) p (fun x => { x with layers := own, saved := none, queue := [], gone := [] })

/-- DISCARD: the job ends in each of its partitions (R445), its context or stop state is dropped, and the queue is emptied. -/
def execDiscard (p : Nat) (s : State) : Host.Outcome State Fault Refusal :=
  .next (contextCommand s p (fun s =>
    if (partOf s p).state < 4 ∨ 7 < (partOf s p).state then setResult s p 1 false
    else setResult ((jobParts s p).foldl discardPart s) p 0 false))

end Sys2Proof.Machine
end

