-- ==== Sys2Proof/Machine/HostPort.lean ====
section
/-! DEFINITION. What the outside writes and reads (12, R334 to R337): the mailbox and context registers, the launch queue
(02, R76), registers of cores through the system space, the partition window; an illegal bundle (07, R199); a result's
landing (03, R82). -/

namespace Sys2Proof.Machine

/-! ### Landing of a result (R82) -/

/-- RESULT_LANDING: the value is in place before the cycle's issue; a cell written in an accumulator is seen by the matrix
operations that read it (R285). A write of a part of a word reads the rest of it (R397). -/
def execResultLanding (g : Nat) (l : Landing) (s : State) : Host.Outcome State Fault Refusal :=
  let bad := mergeReads (coreOf s g) l
  let s := modCore s g (fun c =>
    let c := landCore c l
    match l with
    | .accRow t _ _ _ _ => noteDirty c [t]
    | _ => c)
  .next (bad.foldl (fun s e => postError s g 0 e.1 (errorWord e.1 e.2) 1) s)

/-! ### An illegal bundle (R199) -/

/-- ILLEGAL: class 0x02, its subclass, and the position of the offending slot. -/
def execIllegal (g sub pos : Nat) (s : State) : Host.Outcome State Fault Refusal :=
  let r : FaultRec := { cls := 0x02, sub := sub, slot := pos, bundle := (coreOf s g).pc, cmd := 0xFFFF, extent := 0
                        piece := 0, addr := 0, detail := 0 }
  .next (takeFault s g r)

/-! ### Commands (R337, R429, R430) -/

/-- The event of a mailbox command code. -/
def mailboxCommand (p op : Nat) : Instr :=
  match op with
  | 1 => .load p | 2 => .unload p | 3 => .start p | 4 => .endJob p | 5 => .cancelCommand p | 6 => .hold p
  | 7 => .release p | 8 => .patch p | 9 => .attest p | 10 => .ckpt p | 11 => .resumeck p | 12 => .rebind p
  | _ => .unknownCommandCode p false

/-- The event of a context command code. -/
def contextEvent (p op : Nat) : Instr :=
  match op with
  | 1 => .freeze p | 2 => .save p | 3 => .restore p | 4 => .resume p | 5 => .discard p
  | _ => .unknownCommandCode p true

/-- UNKNOWN_COMMAND_CODE: refused with code 10. -/
def execUnknownCommandCode (p : Nat) (ctx : Bool) (s : State) : Host.Outcome State Fault Refusal :=
  .next (if ctx then contextCommand s p (fun s => setResult s p 10 false) else refuse s p 10)

/-- A submitted mailbox command is served when the system image runs. -/
def submitCommand (s : State) (p : Nat) : State :=
  if 2 ≤ (partOf s p).state then
    post s none s.now 0 none (.instr (mailboxCommand p (fieldOf (tabGet zeroAt (partOf s p).mailbox 0) 0 8)))
  else s

/-- The system image of a partition runs: STATE 2, and a command that stands is served (R340). -/
def imageBooted (s : State) (p : Nat) : State :=
  if (partOf s p).state = 1 then
    let s := modPart s p (fun x => { x with state := 2 })
    if (tabGet (zeroAt (w := 64)) (partOf s p).mailbox 0).getLsbD 63 then submitCommand s p else s
  else s

/-- A write of word `w` of the mailbox. -/
def mailboxWrite (s : State) (p w : Nat) (x : Word) : State :=
  let t := (partOf s p).mailbox
  let put (i : Nat) (v : Word) : State := modPart s p (fun y => { y with mailbox := tabSet zeroAt t i v })
  if (partOf s p).state = 0 then s
  else if w = 0 then
    if (tabGet (zeroAt (w := 64)) t 0).getLsbD 63 then s
    else
      let s := put 0 (x &&& 0x8000000000FFFFFF#64)
      if x.getLsbD 63 then submitCommand s p else s
  else if w ≤ 7 then put w x
  else if w = 8 then if x.getLsbD 63 then put 8 (withField (tabGet zeroAt t 8) 63 1 0) else s
  else s

/-- A write of word `w` of the context block. -/
def contextWrite (s : State) (p w : Nat) (x : Word) : State :=
  let t := (partOf s p).context
  let put (i : Nat) (v : Word) : State := modPart s p (fun y => { y with context := tabSet zeroAt t i v })
  if w = 0 then
    let s := put 0 (x &&& 0x800000000000000F#64)
    if x.getLsbD 63 then post s none s.now 0 none (.instr (contextEvent p (fieldOf x 0 4))) else s
  else if w = 1 then if x.getLsbD 63 then put 1 (withField (tabGet zeroAt t 1) 63 1 0) else s
  else if w = 2 then put 2 (x &&& 0x0000007FFFFF0000#64)
  else if w = 3 then put 3 (x &&& 0x0000007FFFFFFFC0#64)
  else if w = 4 then put 4 (x &&& 0x0000007FFFFFFFFF#64)
  else s

/-- A write of a half of the host-window map: only while the partition is frozen or has no job (R335). -/
def hostMapWrite (s : State) (p w : Nat) (x : Word) : State :=
  if (partOf s p).state = 3 then s
  else
    let m : Word := if w = 0 then 0xFFFFFFFFFFFFF000#64 else 0x000000FFFFFFF000#64
    if w ≤ 1 then modPart s p (fun y => { y with hostMap := tabSet zeroAt y.hostMap w (x &&& m) }) else s

/-- A write of word `w` of the hypervisor's attestation request for die layer `k`. DESIGN CHOICE (log entry 56): R346 gives no place in
PF BAR0 for it. -/
def attestWrite (s : State) (k w : Nat) (x : Word) : State :=
  if w < 4 then modPkg s (k / 8) (fun y => { y with nonce := tabSet zeroAt y.nonce w x })
  else
    let nonce := (List.range 4).flatMap (fun i => leBytes 8 (tabGet (zeroAt (w := 64)) (pkgOf s (k / 8)).nonce i).toNat)
    modPkg s (k / 8) (fun y => { y with report := reportBytes s k nonce })

/-- SYSTEM_REGISTER_WRITE. -/
def execSystemRegisterWrite (t : SysReg) (x : Word) (s : State) : Host.Outcome State Fault Refusal :=
  .next (match t with
  | .core g i => if g % 512 < 392 then systemWrite s g i x else s
  | .mailbox p w => mailboxWrite s p w x
  | .context p w => contextWrite s p w x
  | .hostMap p w => hostMapWrite s p w x
  | .attest k w => attestWrite s k w x)

/-- MBRESP_CLEAR. -/
def execMbrespClear (p : Nat) (s : State) : Host.Outcome State Fault Refusal :=
  .next (modPart s p (fun y => { y with mailbox := tabSet zeroAt y.mailbox 8 (withField (tabGet zeroAt y.mailbox 8) 63 1 0) }))

/-- CTXSTAT_CLEAR. -/
def execCtxstatClear (p : Nat) (s : State) : Host.Outcome State Fault Refusal :=
  .next (modPart s p (fun y => { y with context := tabSet zeroAt y.context 1 (withField (tabGet zeroAt y.context 1) 63 1 0) }))

/-- FIRED_CLEAR by a core: ignored while PERMIT is 0 (R403). -/
def execFiredClear (g : Nat) (x : BitVec 4) (s : State) : Host.Outcome State Fault Refusal :=
  .next (sysWrite s g 0x430 (BitVec.ofNat 64 (x.toNat * 16)))

/-- REPAIRREQ through the system space (R456). -/
def execRepairreq (g : Nat) (x : Word) (s : State) : Host.Outcome State Fault Refusal := .next (systemWrite s g 0x468 x)

/-- BISTSUM by a core (R457). -/
def execBistsum (g : Nat) (x : Word) (s : State) : Host.Outcome State Fault Refusal := .next (sysWrite s g 0x462 x)

/-- ARRAY_INJECTOR_ARM by a core: ignored while PERMIT is 0 (R403, R404). -/
def execArrayInjectorArm (g : Nat) (n : BitVec 2) (x : Word) (s : State) : Host.Outcome State Fault Refusal :=
  .next (sysWrite s g (0x440 + 2 * n.toNat) (x ||| (1#64 <<< 63)))

/-- LINK_INJECTOR_ARM (R406). -/
def execLinkInjectorArm (k : Nat) (n : BitVec 2) (x : Word) (s : State) : Host.Outcome State Fault Refusal :=
  .next (writeLinj s k (2 * n.toNat) (x ||| (1#64 <<< 63)))

/-! ### The launch queue (R76) -/

/-- The low word of an entry with its RW fields from `x` (HANDLE, GRAPH, PHASE, PRIO, WHOLE). -/
def queueLow (w : BitVec 256) (x : Word) : BitVec 256 := qSet w 0 59 (x.toNat % 2 ^ 59)

/-- A finished entry leaves the queue but stays counted in its graph and phase (R71). -/
def retireEntry (x : Part) (e : Nat) : Part :=
  let w := queueEntry x e
  { x with gone := x.gone ++ [(qGraph w, qPhase w, qOrd w)] }

/-- The entry waits with the next enqueue order. A graph whose entries have all finished begins a new instance, which a cancel of its
phase reaches as the others of the phase (R73). -/
def enqueueEntry (x : Part) (e : Nat) (v : Word) : Part :=
  let w := queueLow (queueEntry x e) v
  let n := qGraph w
  let fresh := (graphCounts x n).all (·.2.2.2)
  let w := qSet (qSet (qSet (qSet w 59 3 1) 72 4 0) 80 16 x.enq) 176 64 x.enq
  let x := setQueue x e w
  let kept := if fresh then x.cancInst.filter (fun k => k ≠ (1, n)) else x.cancInst
  { x with enq := (x.enq + 1) % 2 ^ 64
           cancInst := if kept.contains (2, qPhase w) ∧ kept.contains (1, n) = false then kept ++ [(1, n)] else kept }

/-- LAUNCH_QUEUE_ENQUEUE: bytes [7:0] with a nonzero HANDLE. -/
def execLaunchQueueEnqueue (p : Nat) (e : RegField) (v : Word) (s : State) : Host.Outcome State Fault Refusal :=
  .next (modPart s p (fun x =>
    let w := queueEntry x e.toNat
    if x.state = 0 ∨ fieldOf v 0 32 = 0 then x
    else match qState w with
    | 0 => enqueueEntry x e.toNat v
    | 3 => enqueueEntry (retireEntry x e.toNat) e.toNat v
    | 4 => enqueueEntry (retireEntry x e.toNat) e.toNat v
    | 5 => setQueue x e.toNat (qSet (qSet (queueLow w v) 56 2 (qPrio w)) 59 3 1)
    | _ => x))

/-- LAUNCH_QUEUE_EMPTY: bytes [7:0] with HANDLE 0; a refused entry then counts as cancelled (R444). -/
def execLaunchQueueEmpty (p : Nat) (e : RegField) (v : Word) (s : State) : Host.Outcome State Fault Refusal :=
  .next (modPart s p (fun x =>
    if x.state = 0 ∨ fieldOf v 0 32 ≠ 0 then x
    else match qState (queueEntry x e.toNat) with
    | 3 => setQueue (retireEntry x e.toNat) e.toNat 0
    | 4 => setQueue (retireEntry x e.toNat) e.toNat 0
    | 5 => setQueue (retireEntry x e.toNat) e.toNat 0
    | _ => x))

/-- LAUNCH_QUEUE_FIELD_WRITE: bytes [23:8] set LAYERS, PREDV and PRED0 to PRED7 of an entry that is neither waiting nor
running. -/
def execLaunchQueueFieldWrite (p : Nat) (e : RegField) (v : BitVec 128) (s : State) : Host.Outcome State Fault Refusal :=
  .next (modPart s p (fun x =>
    let w := queueEntry x e.toNat
    let n := v.toNat
    if x.state = 0 then x
    else match qState w with
    | 1 => x
    | 2 => x
    | _ => setQueue x e.toNat (qSet (qSet (qSet w 64 8 n) 96 8 (n / 2 ^ 32)) 128 48 (n / 2 ^ 64))))

/-! ### The partition window as the host reads it (R336) -/

/-- PSTAT: a partition in state 5, 6 or 7 keeps no die layer (R428). -/
def pstat (x : Part) : Word :=
  BitVec.ofNat 64 (x.state % 8 + (if x.state < 5 then x.layers % 256 else 0) * 2 ^ 8 + (if x.state = 3 ∨ x.state = 4 then x.job % 2 ^ 16 * 2 ^ 16 else 0))

/-- The 8-byte word at offset `o` of the window of partition `p`, which is there while the partition exists (R334). -/
def windowRead (s : State) (p o : Nat) : Word :=
  let x := partOf s p
  if x.state = 0 then 0
  else if o < 8 then pstat x
  else if 0x100 ≤ o ∧ o < 0x120 then
    hostCompletion x ((o - 0x100) / 8)
  else if 0x120 ≤ o ∧ o < 0x128 then frzStat x
  else if 0x140 ≤ o ∧ o < 0x160 then tabGet zeroAt x.chans ((o - 0x140) / 8)
  else if 0x160 ≤ o ∧ o < 0x170 then tabGet zeroAt x.hostMap ((o - 0x160) / 8)
  else if 0x1000 ≤ o ∧ o < 0x1080 then tabGet zeroAt x.mailbox ((o - 0x1000) / 8)
  else if 0x2000 ≤ o ∧ o < 0x2800 then
    BitVec.ofNat 64 (qField (queueEntry x ((o - 0x2000) / 32)) (o % 32 / 8 * 64) 64)
  else if 0x4000 ≤ o ∧ o < 0x4400 then BitVec.ofNat 64 (leNat ((x.report.drop ((o - 0x4000) / 8 * 8)).take 8))
  else if 0x10000 ≤ o ∧ o < 0x1C000 then BitVec.ofNat 64 (mapNat s (p / 8) ((o - 0x10000) / 8 * 8) 8)
  else 0

end Sys2Proof.Machine
end

