-- ==== Sys2Proof/Machine/Scalar.lean ====
section
/-! DEFINITION. Scalar instructions (08, R222 to R226, R229, R230): each reads its operands in phase 2 and sends its
result to land after the latency of its class (R220). -/

namespace Sys2Proof.Machine

/-- Leading zeros, trailing zeros and one bits (R224). -/
def clzW (x : Word) : Nat := if x = 0 then 64 else 63 - Nat.log2 x.toNat
def ctzGo : Nat → Nat → Nat
  | 0, _ => 0
  | k + 1, x => if x % 2 = 1 then 0 else 1 + ctzGo k (x / 2)
def ctzW (x : Word) : Nat := ctzGo 64 x.toNat
def popcGo : Nat → Nat → Nat
  | 0, _ => 0
  | k + 1, x => x % 2 + popcGo k (x / 2)
def popcW (x : Word) : Nat := popcGo 64 x.toNat

/-- The shift amount: bits [5:0] (R222). -/
def shAmt (b : Word) : Nat := b.toNat % 64

/-- Bits [127:64] of the exact product of two integers (R222). -/
def highWord (x : Int) : Word := BitVec.ofInt 64 (x / 2 ^ 64)

/-- Quotients and remainders, truncated toward zero (R223). -/
def divS (a b : Word) : Word := if b = 0 then BitVec.allOnes 64 else BitVec.ofInt 64 (Int.tdiv a.toInt b.toInt)
def divU (a b : Word) : Word := if b = 0 then BitVec.allOnes 64 else BitVec.ofNat 64 (a.toNat / b.toNat)
def remS (a b : Word) : Word := if b = 0 then a else BitVec.ofInt 64 (Int.tmod a.toInt b.toInt)
def remU (a b : Word) : Word := if b = 0 then a else BitVec.ofNat 64 (a.toNat % b.toNat)

/-- 1 when the condition holds, else 0. -/
def boolWord (b : Bool) : Word := if b then 1 else 0

/-- A scalar result `x` of instruction `i` into D after class `cls` (R220), unless its guard is false (R197). -/
def scalarOp (i : Instr) (d : RegField) (m : Md) (cls nominal : Nat) (x : Word) (s : State) :
    Host.Outcome State Fault Refusal :=
  checked s (operandFaults s i) (fun s =>
    if guardMd s m then scalarResult (countOperands s i) d cls nominal x else countOperands s i)

/-- ADD: a + b. -/
def execAdd (d a b : RegField) (m : Md) (s : State) : Host.Outcome State Fault Refusal :=
  scalarOp (.add d a b m) d m 0 1 (sVal s a + sVal s b) s

/-- SUB: a - b. -/
def execSub (d a b : RegField) (m : Md) (s : State) : Host.Outcome State Fault Refusal :=
  scalarOp (.sub d a b m) d m 0 1 (sVal s a - sVal s b) s

/-- MUL: the low 64 bits of the product. -/
def execMul (d a b : RegField) (m : Md) (s : State) : Host.Outcome State Fault Refusal :=
  scalarOp (.mul d a b m) d m 1 3 (sVal s a * sVal s b) s

/-- MULH: bits [127:64] of the signed product. -/
def execMulh (d a b : RegField) (m : Md) (s : State) : Host.Outcome State Fault Refusal :=
  scalarOp (.mulh d a b m) d m 1 3 (highWord ((sVal s a).toInt * (sVal s b).toInt)) s

/-- MULHN: bits [127:64] of the unsigned product. -/
def execMulhn (d a b : RegField) (m : Md) (s : State) : Host.Outcome State Fault Refusal :=
  scalarOp (.mulhn d a b m) d m 1 3 (highWord (((sVal s a).toNat * (sVal s b).toNat : Nat) : Int)) s

/-- DIV (R223). -/
def execDiv (d a b : RegField) (m : Md) (s : State) : Host.Outcome State Fault Refusal :=
  scalarOp (.div d a b m) d m 2 34 (divS (sVal s a) (sVal s b)) s

/-- DIVN (R223). -/
def execDivn (d a b : RegField) (m : Md) (s : State) : Host.Outcome State Fault Refusal :=
  scalarOp (.divn d a b m) d m 2 34 (divU (sVal s a) (sVal s b)) s

/-- REM (R223). -/
def execRem (d a b : RegField) (m : Md) (s : State) : Host.Outcome State Fault Refusal :=
  scalarOp (.rem d a b m) d m 2 34 (remS (sVal s a) (sVal s b)) s

/-- REMN (R223). -/
def execRemn (d a b : RegField) (m : Md) (s : State) : Host.Outcome State Fault Refusal :=
  scalarOp (.remn d a b m) d m 2 34 (remU (sVal s a) (sVal s b)) s

/-- MIN: the lesser, signed. -/
def execMinS (d a b : RegField) (m : Md) (s : State) : Host.Outcome State Fault Refusal :=
  scalarOp (.minS d a b m) d m 0 1 (if (sVal s b).slt (sVal s a) then sVal s b else sVal s a) s

/-- MINN: the lesser, unsigned. -/
def execMinn (d a b : RegField) (m : Md) (s : State) : Host.Outcome State Fault Refusal :=
  scalarOp (.minn d a b m) d m 0 1 (if (sVal s b).ult (sVal s a) then sVal s b else sVal s a) s

/-- MAX: the greater, signed. -/
def execMaxS (d a b : RegField) (m : Md) (s : State) : Host.Outcome State Fault Refusal :=
  scalarOp (.maxS d a b m) d m 0 1 (if (sVal s a).slt (sVal s b) then sVal s b else sVal s a) s

/-- MAXN: the greater, unsigned. -/
def execMaxn (d a b : RegField) (m : Md) (s : State) : Host.Outcome State Fault Refusal :=
  scalarOp (.maxn d a b m) d m 0 1 (if (sVal s a).ult (sVal s b) then sVal s b else sVal s a) s

/-- SLT. -/
def execSlt (d a b : RegField) (m : Md) (s : State) : Host.Outcome State Fault Refusal :=
  scalarOp (.slt d a b m) d m 0 1 (boolWord ((sVal s a).slt (sVal s b))) s

/-- SLTN. -/
def execSltn (d a b : RegField) (m : Md) (s : State) : Host.Outcome State Fault Refusal :=
  scalarOp (.sltn d a b m) d m 0 1 (boolWord ((sVal s a).ult (sVal s b))) s

/-- SEQ. -/
def execSeq (d a b : RegField) (m : Md) (s : State) : Host.Outcome State Fault Refusal :=
  scalarOp (.seq d a b m) d m 0 1 (boolWord (sVal s a == sVal s b)) s

/-- AND. -/
def execAndS (d a b : RegField) (m : Md) (s : State) : Host.Outcome State Fault Refusal :=
  scalarOp (.andS d a b m) d m 0 1 (sVal s a &&& sVal s b) s

/-- OR. -/
def execOrS (d a b : RegField) (m : Md) (s : State) : Host.Outcome State Fault Refusal :=
  scalarOp (.orS d a b m) d m 0 1 (sVal s a ||| sVal s b) s

/-- XOR. -/
def execXorS (d a b : RegField) (m : Md) (s : State) : Host.Outcome State Fault Refusal :=
  scalarOp (.xorS d a b m) d m 0 1 (sVal s a ^^^ sVal s b) s

/-- ANDN: a AND NOT b. -/
def execAndn (d a b : RegField) (m : Md) (s : State) : Host.Outcome State Fault Refusal :=
  scalarOp (.andn d a b m) d m 0 1 (sVal s a &&& ~~~(sVal s b)) s

/-- SHL. -/
def execShl (d a b : RegField) (m : Md) (s : State) : Host.Outcome State Fault Refusal :=
  scalarOp (.shl d a b m) d m 0 1 (sVal s a <<< shAmt (sVal s b)) s

/-- SHR. -/
def execShr (d a b : RegField) (m : Md) (s : State) : Host.Outcome State Fault Refusal :=
  scalarOp (.shr d a b m) d m 0 1 (sVal s a >>> shAmt (sVal s b)) s

/-- SAR. -/
def execSar (d a b : RegField) (m : Md) (s : State) : Host.Outcome State Fault Refusal :=
  scalarOp (.sar d a b m) d m 0 1 ((sVal s a).sshiftRight (shAmt (sVal s b))) s

/-- SEL: a when D is nonzero, else b (R224). -/
def execSel (d a b : RegField) (m : Md) (s : State) : Host.Outcome State Fault Refusal :=
  scalarOp (.sel d a b m) d m 0 1 (if sVal s d ≠ 0 then sVal s a else sVal s b) s

/-- CLZ (R224). -/
def execClz (d a : RegField) (m : Md) (s : State) : Host.Outcome State Fault Refusal :=
  scalarOp (.clz d a m) d m 0 1 (BitVec.ofNat 64 (clzW (sVal s a))) s

/-- CTZ (R224). -/
def execCtz (d a : RegField) (m : Md) (s : State) : Host.Outcome State Fault Refusal :=
  scalarOp (.ctz d a m) d m 0 1 (BitVec.ofNat 64 (ctzW (sVal s a))) s

/-- POPC (R224). -/
def execPopc (d a : RegField) (m : Md) (s : State) : Host.Outcome State Fault Refusal :=
  scalarOp (.popc d a m) d m 0 1 (BitVec.ofNat 64 (popcW (sVal s a))) s

/-- ADDI (R225). -/
def execAddi (d a : RegField) (i : Imm) (s : State) : Host.Outcome State Fault Refusal :=
  scalarOp (.addi d a i) d none 0 1 (sVal s a + immVal i) s

/-- ANDI (R225). -/
def execAndi (d a : RegField) (i : Imm) (s : State) : Host.Outcome State Fault Refusal :=
  scalarOp (.andi d a i) d none 0 1 (sVal s a &&& immVal i) s

/-- ORI (R225). -/
def execOri (d a : RegField) (i : Imm) (s : State) : Host.Outcome State Fault Refusal :=
  scalarOp (.ori d a i) d none 0 1 (sVal s a ||| immVal i) s

/-- XORI (R225). -/
def execXori (d a : RegField) (i : Imm) (s : State) : Host.Outcome State Fault Refusal :=
  scalarOp (.xori d a i) d none 0 1 (sVal s a ^^^ immVal i) s

/-- SHLI (R225). -/
def execShli (d a : RegField) (i : Imm) (s : State) : Host.Outcome State Fault Refusal :=
  scalarOp (.shli d a i) d none 0 1 (sVal s a <<< shAmt (immVal i)) s

/-- SHRI (R225). -/
def execShri (d a : RegField) (i : Imm) (s : State) : Host.Outcome State Fault Refusal :=
  scalarOp (.shri d a i) d none 0 1 (sVal s a >>> shAmt (immVal i)) s

/-- SARI (R225). -/
def execSari (d a : RegField) (i : Imm) (s : State) : Host.Outcome State Fault Refusal :=
  scalarOp (.sari d a i) d none 0 1 ((sVal s a).sshiftRight (shAmt (immVal i))) s

/-- SLTI (R225). -/
def execSlti (d a : RegField) (i : Imm) (s : State) : Host.Outcome State Fault Refusal :=
  scalarOp (.slti d a i) d none 0 1 (boolWord ((sVal s a).slt (immVal i))) s

/-- SLTNI (R225). -/
def execSltni (d a : RegField) (i : Imm) (s : State) : Host.Outcome State Fault Refusal :=
  scalarOp (.sltni d a i) d none 0 1 (boolWord ((sVal s a).ult (immVal i))) s

/-- LI (R226): the immediate, with bit 63 inverted when X is 1. -/
def execLi (x : Bool) (d : RegField) (i : Imm) (s : State) : Host.Outcome State Fault Refusal :=
  scalarOp (.li x d i) d none 0 1 (if x then immVal i ^^^ (1#64 <<< 63) else immVal i) s

/-- AGEN (R229): a + lcN × b. -/
def execAgen (n : BitVec 2) (d a b : RegField) (m : Md) (s : State) : Host.Outcome State Fault Refusal :=
  scalarOp (.agen n d a b m) d m 0 1
    (sVal s a + (lcReg (coreOf s s.cur.g) n.toNat).zeroExtend 64 * sVal s b) s

/-- LCSET (R230): lcN = bits [31:0] of a + imm. -/
def execLcset (n : BitVec 2) (a : RegField) (i : Imm) (s : State) : Host.Outcome State Fault Refusal :=
  checked s (operandFaults s (.lcset n a i)) (fun s =>
    landResult (countOperands s (.lcset n a i)) (landCyc s 0 1) 0 (.lcr n.toNat ((sVal s a + immVal i).truncate 32)))

end Sys2Proof.Machine
end

