-- ==== Sys2Proof/Machine/Vector.lean ====
section
/-! DEFINITION. Vector arithmetic, comparison, conversion, reduction, lane movement, packing and mask instructions (09,
R255 to R266). -/

namespace Sys2Proof.Machine

/-- VADD (R255). -/
def execVadd (f : BitVec 3) (d a b : RegField) (h : Bool) (m : Md) (s : State) : Host.Outcome State Fault Refusal :=
  vecOp (.vadd f d a b h m) h a m (arithCls f) (arithLat f)
    (vecLand s d m (map2 (laneFmt false f) (laneAdd (laneFmt false f)) (vVal s a) (vVal s b))) s

/-- VSUB. -/
def execVsub (f : BitVec 3) (d a b : RegField) (h : Bool) (m : Md) (s : State) : Host.Outcome State Fault Refusal :=
  vecOp (.vsub f d a b h m) h a m (arithCls f) (arithLat f)
    (vecLand s d m (map2 (laneFmt false f) (laneSub (laneFmt false f)) (vVal s a) (vVal s b))) s

/-- VMUL. -/
def execVmul (f : BitVec 3) (d a b : RegField) (h : Bool) (m : Md) (s : State) : Host.Outcome State Fault Refusal :=
  vecOp (.vmul f d a b h m) h a m (arithCls f) (arithLat f)
    (vecLand s d m (map2 (laneFmt false f) (laneMul (laneFmt false f)) (vVal s a) (vVal s b))) s

/-- VFMA: D + A × B. -/
def execVfma (f : BitVec 3) (d a b : RegField) (h : Bool) (m : Md) (s : State) : Host.Outcome State Fault Refusal :=
  vecOp (.vfma f d a b h m) h a m (arithCls f) (arithLat f)
    (vecLand s d m (map3 (laneFmt false f) (laneFma (laneFmt false f) false) (vVal s d) (vVal s a) (vVal s b))) s

/-- VFMS: D - A × B. -/
def execVfms (f : BitVec 3) (d a b : RegField) (h : Bool) (m : Md) (s : State) : Host.Outcome State Fault Refusal :=
  vecOp (.vfms f d a b h m) h a m (arithCls f) (arithLat f)
    (vecLand s d m (map3 (laneFmt false f) (laneFma (laneFmt false f) true) (vVal s d) (vVal s a) (vVal s b))) s

/-- VMIN. -/
def execVmin (f : BitVec 3) (d a b : RegField) (h : Bool) (m : Md) (s : State) : Host.Outcome State Fault Refusal :=
  vecOp (.vmin f d a b h m) h a m (arithCls f) (arithLat f)
    (vecLand s d m (map2 (laneFmt false f) (laneMin (laneFmt false f)) (vVal s a) (vVal s b))) s

/-- VMAX. -/
def execVmax (f : BitVec 3) (d a b : RegField) (h : Bool) (m : Md) (s : State) : Host.Outcome State Fault Refusal :=
  vecOp (.vmax f d a b h m) h a m (arithCls f) (arithLat f)
    (vecLand s d m (map2 (laneFmt false f) (laneMax (laneFmt false f)) (vVal s a) (vVal s b))) s

/-- VABS. -/
def execVabs (f : BitVec 3) (d a : RegField) (h : Bool) (m : Md) (s : State) : Host.Outcome State Fault Refusal :=
  vecOp (.vabs f d a h m) h a m 4 2
    (vecLand s d m (map1 (laneFmt false f) (laneAbs (laneFmt false f)) (vVal s a))) s

/-- VNEG. -/
def execVneg (f : BitVec 3) (d a : RegField) (h : Bool) (m : Md) (s : State) : Host.Outcome State Fault Refusal :=
  vecOp (.vneg f d a h m) h a m 4 2
    (vecLand s d m (map1 (laneFmt false f) (laneNeg (laneFmt false f)) (vVal s a))) s

/-- VADDS. -/
def execVadds (f : BitVec 3) (d a b : RegField) (h : Bool) (m : Md) (s : State) : Host.Outcome State Fault Refusal :=
  vecOp (.vadds f d a b h m) h a m 4 2
    (vecLand s d m (map2 (laneFmt false f) (laneSat (laneFmt false f) (· + ·)) (vVal s a) (vVal s b))) s

/-- VSUBS. -/
def execVsubs (f : BitVec 3) (d a b : RegField) (h : Bool) (m : Md) (s : State) : Host.Outcome State Fault Refusal :=
  vecOp (.vsubs f d a b h m) h a m 4 2
    (vecLand s d m (map2 (laneFmt false f) (laneSat (laneFmt false f) (· - ·)) (vVal s a) (vVal s b))) s

/-- VMULH. -/
def execVmulh (f : BitVec 3) (d a b : RegField) (h : Bool) (m : Md) (s : State) : Host.Outcome State Fault Refusal :=
  vecOp (.vmulh f d a b h m) h a m 4 2
    (vecLand s d m (map2 (laneFmt false f) (laneMulh (laneFmt false f)) (vVal s a) (vVal s b))) s

/-- VMINN. -/
def execVminn (f : BitVec 3) (d a b : RegField) (h : Bool) (m : Md) (s : State) : Host.Outcome State Fault Refusal :=
  vecOp (.vminn f d a b h m) h a m 4 2
    (vecLand s d m (map2 (laneFmt true f) (laneMin (laneFmt true f)) (vVal s a) (vVal s b))) s

/-- VMAXN. -/
def execVmaxn (f : BitVec 3) (d a b : RegField) (h : Bool) (m : Md) (s : State) : Host.Outcome State Fault Refusal :=
  vecOp (.vmaxn f d a b h m) h a m 4 2
    (vecLand s d m (map2 (laneFmt true f) (laneMax (laneFmt true f)) (vVal s a) (vVal s b))) s

/-- VADDSN. -/
def execVaddsn (f : BitVec 3) (d a b : RegField) (h : Bool) (m : Md) (s : State) : Host.Outcome State Fault Refusal :=
  vecOp (.vaddsn f d a b h m) h a m 4 2
    (vecLand s d m (map2 (laneFmt true f) (laneSat (laneFmt true f) (· + ·)) (vVal s a) (vVal s b))) s

/-- VSUBSN. -/
def execVsubsn (f : BitVec 3) (d a b : RegField) (h : Bool) (m : Md) (s : State) : Host.Outcome State Fault Refusal :=
  vecOp (.vsubsn f d a b h m) h a m 4 2
    (vecLand s d m (map2 (laneFmt true f) (laneSat (laneFmt true f) (· - ·)) (vVal s a) (vVal s b))) s

/-- VMULHN. -/
def execVmulhn (f : BitVec 3) (d a b : RegField) (h : Bool) (m : Md) (s : State) : Host.Outcome State Fault Refusal :=
  vecOp (.vmulhn f d a b h m) h a m 4 2
    (vecLand s d m (map2 (laneFmt true f) (laneMulh (laneFmt true f)) (vVal s a) (vVal s b))) s

/-- VCMP (R257). -/
def execVcmp (f : BitVec 3) (cond k : BitVec 3) (a b : RegField) (h : Bool) (m : Md) (s : State) : Host.Outcome State Fault Refusal :=
  vecOp (.vcmp f cond k a b h m) h a m 7 2
    (.mreg k.toNat (laneMask s m) (cmpMask (laneFmt false f) cond (vVal s a) (vVal s b))) s

/-- VCMPN. -/
def execVcmpn (f : BitVec 3) (cond k : BitVec 3) (a b : RegField) (h : Bool) (m : Md) (s : State) : Host.Outcome State Fault Refusal :=
  vecOp (.vcmpn f cond k a b h m) h a m 7 2
    (.mreg k.toNat (laneMask s m) (cmpMask (laneFmt true f) cond (vVal s a) (vVal s b))) s

/-- VSEL (R258). -/
def execVsel (f : BitVec 3) (d a b : RegField) (h : Bool) (m : Md) (s : State) : Host.Outcome State Fault Refusal :=
  vecOp (.vsel f d a b h m) h a m 4 2
    (vecLand s d m (mergeLanes (mReg (coreOf s s.cur.g) f.toNat) (vVal s a) (vVal s b))) s

/-- VAND (R256). -/
def execVand (d a b : RegField) (h : Bool) (m : Md) (s : State) : Host.Outcome State Fault Refusal :=
  vecOp (.vand d a b h m) h a m 4 2
    (vecLand s d m ((vVal s a) &&& (vVal s b))) s

/-- VOR. -/
def execVor (d a b : RegField) (h : Bool) (m : Md) (s : State) : Host.Outcome State Fault Refusal :=
  vecOp (.vor d a b h m) h a m 4 2
    (vecLand s d m ((vVal s a) ||| (vVal s b))) s

/-- VXOR. -/
def execVxor (d a b : RegField) (h : Bool) (m : Md) (s : State) : Host.Outcome State Fault Refusal :=
  vecOp (.vxor d a b h m) h a m 4 2
    (vecLand s d m ((vVal s a) ^^^ (vVal s b))) s

/-- VANDN. -/
def execVandn (d a b : RegField) (h : Bool) (m : Md) (s : State) : Host.Outcome State Fault Refusal :=
  vecOp (.vandn d a b h m) h a m 4 2
    (vecLand s d m ((vVal s a) &&& ~~~(vVal s b))) s

/-- VSHL (R256). -/
def execVshl (f : BitVec 3) (d a b : RegField) (h : Bool) (m : Md) (s : State) : Host.Outcome State Fault Refusal :=
  vecOp (.vshl f d a b h m) h a m 4 2
    (vecLand s d m (map2 (laneFmt false f) (laneShl (laneFmt false f)) (vVal s a) (vVal s b))) s

/-- VSHR. -/
def execVshr (f : BitVec 3) (d a b : RegField) (h : Bool) (m : Md) (s : State) : Host.Outcome State Fault Refusal :=
  vecOp (.vshr f d a b h m) h a m 4 2
    (vecLand s d m (map2 (laneFmt false f) (laneShr (laneFmt false f)) (vVal s a) (vVal s b))) s

/-- VSAR. -/
def execVsar (f : BitVec 3) (d a b : RegField) (h : Bool) (m : Md) (s : State) : Host.Outcome State Fault Refusal :=
  vecOp (.vsar f d a b h m) h a m 4 2
    (vecLand s d m (map2 (laneFmt false f) (laneSar (laneFmt false f)) (vVal s a) (vVal s b))) s

/-- VCVT (R259): in the stochastic mode it pops a Chamois word, whatever its guard (R126). -/
def execVcvt (rm : BitVec 2) (d a : RegField) (h : Bool) (m : Md) (s : State) : Host.Outcome State Fault Refusal :=
  let ins : Instr := .vcvt rm d a h m
  let src := tileFmt (xfOf m % 16)
  let dst := tileFmt (xfOf m / 16 % 16)
  let l := vecLand s d m (cvtLanes src dst rm.toNat (chamoisHead s) (vVal s a))
  let cyc := landCyc s 7 3
  checked s (vecFaults s ins ++ landFaults s s.cur.g cyc l ++ (if rm = 2 then popFaults s else [])) (fun s =>
    let s := if rm = 2 then popChamois s else s
    landGuarded (vecReads s ins h a m) m cyc 7 l)

/-- VRCP (R260). -/
def execVrcp (f : BitVec 3) (d a : RegField) (h : Bool) (m : Md) (s : State) : Host.Outcome State Fault Refusal :=
  vecOp (.vrcp f d a h m) h a m 11 18
    (vecLand s d m (map1 (laneFmt false f) (laneFn (laneFmt false f) rcpV) (vVal s a))) s

/-- VRSQ. -/
def execVrsq (f : BitVec 3) (d a : RegField) (h : Bool) (m : Md) (s : State) : Host.Outcome State Fault Refusal :=
  vecOp (.vrsq f d a h m) h a m 11 18
    (vecLand s d m (map1 (laneFmt false f) (laneFn (laneFmt false f) rsqV) (vVal s a))) s

/-- VSQRT. -/
def execVsqrt (f : BitVec 3) (d a : RegField) (h : Bool) (m : Md) (s : State) : Host.Outcome State Fault Refusal :=
  vecOp (.vsqrt f d a h m) h a m 11 18
    (vecLand s d m (map1 (laneFmt false f) (laneFn (laneFmt false f) sqrtV) (vVal s a))) s

/-- VDIV. -/
def execVdiv (f : BitVec 3) (d a b : RegField) (h : Bool) (m : Md) (s : State) : Host.Outcome State Fault Refusal :=
  vecOp (.vdiv f d a b h m) h a m 11 18
    (vecLand s d m (map2 (laneFmt false f) (laneDiv (laneFmt false f)) (vVal s a) (vVal s b))) s

/-- VEXP2. -/
def execVexp2 (f : BitVec 3) (d a : RegField) (h : Bool) (m : Md) (s : State) : Host.Outcome State Fault Refusal :=
  vecOp (.vexp2 f d a h m) h a m 12 14
    (vecLand s d m (map1 (laneFmt false f) (laneFn (laneFmt false f) exp2V) (vVal s a))) s

/-- VLOG2. -/
def execVlog2 (f : BitVec 3) (d a : RegField) (h : Bool) (m : Md) (s : State) : Host.Outcome State Fault Refusal :=
  vecOp (.vlog2 f d a h m) h a m 12 14
    (vecLand s d m (map1 (laneFmt false f) (laneFn (laneFmt false f) log2V) (vVal s a))) s

/-- VRED (R261): a lane mask replaces inputs, and every lane of D is written. -/
def execVred (f : BitVec 3) (d a : RegField) (op : BitVec 3) (h : Bool) (m : Md) (s : State) : Host.Outcome State Fault Refusal :=
  vecOp (.vred f d a op h m) h a m 9 8
    (.vreg d.toNat (BitVec.allOnes 64) (redLanes (laneFmt false f) op.toNat (laneMask s m) (vVal s a))) s

/-- VSCAN. -/
def execVscan (f : BitVec 3) (d a : RegField) (op : BitVec 3) (h : Bool) (m : Md) (s : State) : Host.Outcome State Fault Refusal :=
  vecOp (.vscan f d a op h m) h a m 10 10
    (.vreg d.toNat (BitVec.allOnes 64) (scanLanes (laneFmt false f) op.toNat (laneMask s m) (vVal s a))) s

/-- VPERM (R262). -/
def execVperm (d a b : RegField) (h : Bool) (m : Md) (s : State) : Host.Outcome State Fault Refusal :=
  vecOp (.vperm d a b h m) h a m 8 3
    (vecLand s d m (permLanes (vVal s a) (vVal s b))) s

/-- VSHUF. -/
def execVshuf (f : BitVec 3) (d a b : RegField) (h : Bool) (m : Md) (s : State) : Host.Outcome State Fault Refusal :=
  vecOp (.vshuf f d a b h m) h a m 8 3
    (vecLand s d m (shufLanes f.toNat (vVal s a) (vVal s b))) s

/-- VBCAST (R263). -/
def execVbcast (d a b : RegField) (h : Bool) (m : Md) (s : State) : Host.Outcome State Fault Refusal :=
  vecOp (.vbcast d a b h m) h a m 8 3
    (vecLand s d m (ofLanes (fun _ => lane (vVal s a) ((sVal s b).toNat % 64)))) s

/-- VSPLAT (R263). -/
def execVsplat (f : BitVec 3) (d a : RegField) (i : Imm) (s : State) : Host.Outcome State Fault Refusal :=
  vecOp (.vsplat f d a i) false a none 8 3
    (vecLand s d none (ofLanes (fun _ => (sVal s a + immVal i).toNat % 2 ^ fmtWidth (laneFmt false f)))) s

/-- VLANE (R263). -/
def execVlane (d a b : RegField) (h : Bool) (m : Md) (s : State) : Host.Outcome State Fault Refusal :=
  vecScalar (.vlane d a b h m) h a d m 8 3 (BitVec.ofNat 64 (lane (vVal s a) ((sVal s b).toNat % 64))) s

/-- VEXT (R262). -/
def execVext (d a b : RegField) (h : Bool) (m : Md) (s : State) : Host.Outcome State Fault Refusal :=
  vecOp (.vext d a b h m) h a m 8 3
    (vecLand s d m (extLanes (xfOf m % 64) (vVal s a) (vVal s b))) s

/-- VINS (R263): one lane of D is written. -/
def execVins (d a b : RegField) (m : Md) (s : State) : Host.Outcome State Fault Refusal :=
  vecOp (.vins d a b m) false a m 8 3
    (.vreg d.toNat (1#64 <<< ((sVal s b).toNat % 64)) (ofLanes (fun _ => (sVal s a).toNat % 2 ^ 32))) s

/-- VDOT (R265). -/
def execVdot (f : BitVec 3) (d a b : RegField) (h : Bool) (m : Md) (s : State) : Host.Outcome State Fault Refusal :=
  vecOp (.vdot f d a b h m) h a m (if f.toNat ≤ 2 then 6 else 4) (if f.toNat ≤ 2 then 4 else 2)
    (vecLand s d m (dotLanes (laneFmt false f) (vVal s d) (vVal s a) (vVal s b))) s

/-- VPACK (R264). -/
def execVpack (w : Bool) (d a b : RegField) (h : Bool) (m : Md) (s : State) : Host.Outcome State Fault Refusal :=
  vecOp (.vpack w d a b h m) h a m 8 3
    (vecLand s d m (packLanes (if w then 8 else 16) (vVal s a) (vVal s b))) s

/-- VUNPACK. -/
def execVunpack (w : Bool) (d a : RegField) (mode : BitVec 2) (h : Bool) (m : Md) (s : State) : Host.Outcome State Fault Refusal :=
  vecOp (.vunpack w d a mode h m) h a m 8 3
    (vecLand s d m (unpackLanes (if w then 8 else 16) mode.toNat (vVal s a))) s

/-- VMOV (R256). -/
def execVmov (d a : RegField) (h : Bool) (m : Md) (s : State) : Host.Outcome State Fault Refusal :=
  vecOp (.vmov d a h m) h a m 4 2
    (vecLand s d m ((vVal s a))) s

/-- MAND (R266). -/
def execMand (d a b : RegField) (m : Md) (s : State) : Host.Outcome State Fault Refusal :=
  vecOp (.mand d a b m) false a m 4 2 (.mreg (d.toNat - 48) (BitVec.allOnes 64) (mVal s a &&& mVal s b)) s

/-- MOR. -/
def execMor (d a b : RegField) (m : Md) (s : State) : Host.Outcome State Fault Refusal :=
  vecOp (.mor d a b m) false a m 4 2 (.mreg (d.toNat - 48) (BitVec.allOnes 64) (mVal s a ||| mVal s b)) s

/-- MXOR. -/
def execMxor (d a b : RegField) (m : Md) (s : State) : Host.Outcome State Fault Refusal :=
  vecOp (.mxor d a b m) false a m 4 2 (.mreg (d.toNat - 48) (BitVec.allOnes 64) (mVal s a ^^^ mVal s b)) s

/-- MNOT. -/
def execMnot (d a : RegField) (m : Md) (s : State) : Host.Outcome State Fault Refusal :=
  vecOp (.mnot d a m) false a m 4 2 (.mreg (d.toNat - 48) (BitVec.allOnes 64) (~~~(mVal s a))) s

/-- MPOP. -/
def execMpop (d a : RegField) (m : Md) (s : State) : Host.Outcome State Fault Refusal :=
  vecScalar (.mpop d a m) false a d m 4 2 (BitVec.ofNat 64 (countOnes (mVal s a))) s

/-- MFIRST. -/
def execMfirst (d a : RegField) (m : Md) (s : State) : Host.Outcome State Fault Refusal :=
  vecScalar (.mfirst d a m) false a d m 4 2 (BitVec.ofNat 64 (firstOne (mVal s a))) s

end Sys2Proof.Machine
end

