-- ==== Sys2Proof/Machine/Dispatch.lean ====
section
/-! DEFINITION. One arm for every instruction and step of the opcode table. -/

namespace Sys2Proof.Machine

def exec (i : Instr) (s : State) : Host.Outcome State Fault Refusal :=
  match i with
  | .add d a b m => Sys2Proof.Machine.execAdd d a b m s
  | .sub d a b m => Sys2Proof.Machine.execSub d a b m s
  | .mul d a b m => Sys2Proof.Machine.execMul d a b m s
  | .mulh d a b m => Sys2Proof.Machine.execMulh d a b m s
  | .mulhn d a b m => Sys2Proof.Machine.execMulhn d a b m s
  | .div d a b m => Sys2Proof.Machine.execDiv d a b m s
  | .divn d a b m => Sys2Proof.Machine.execDivn d a b m s
  | .rem d a b m => Sys2Proof.Machine.execRem d a b m s
  | .remn d a b m => Sys2Proof.Machine.execRemn d a b m s
  | .minS d a b m => Sys2Proof.Machine.execMinS d a b m s
  | .minn d a b m => Sys2Proof.Machine.execMinn d a b m s
  | .maxS d a b m => Sys2Proof.Machine.execMaxS d a b m s
  | .maxn d a b m => Sys2Proof.Machine.execMaxn d a b m s
  | .slt d a b m => Sys2Proof.Machine.execSlt d a b m s
  | .sltn d a b m => Sys2Proof.Machine.execSltn d a b m s
  | .seq d a b m => Sys2Proof.Machine.execSeq d a b m s
  | .andS d a b m => Sys2Proof.Machine.execAndS d a b m s
  | .orS d a b m => Sys2Proof.Machine.execOrS d a b m s
  | .xorS d a b m => Sys2Proof.Machine.execXorS d a b m s
  | .andn d a b m => Sys2Proof.Machine.execAndn d a b m s
  | .shl d a b m => Sys2Proof.Machine.execShl d a b m s
  | .shr d a b m => Sys2Proof.Machine.execShr d a b m s
  | .sar d a b m => Sys2Proof.Machine.execSar d a b m s
  | .sel d a b m => Sys2Proof.Machine.execSel d a b m s
  | .clz d a m => Sys2Proof.Machine.execClz d a m s
  | .ctz d a m => Sys2Proof.Machine.execCtz d a m s
  | .popc d a m => Sys2Proof.Machine.execPopc d a m s
  | .addi d a im => Sys2Proof.Machine.execAddi d a im s
  | .andi d a im => Sys2Proof.Machine.execAndi d a im s
  | .ori d a im => Sys2Proof.Machine.execOri d a im s
  | .xori d a im => Sys2Proof.Machine.execXori d a im s
  | .shli d a im => Sys2Proof.Machine.execShli d a im s
  | .shri d a im => Sys2Proof.Machine.execShri d a im s
  | .sari d a im => Sys2Proof.Machine.execSari d a im s
  | .slti d a im => Sys2Proof.Machine.execSlti d a im s
  | .sltni d a im => Sys2Proof.Machine.execSltni d a im s
  | .li x d im => Sys2Proof.Machine.execLi x d im s
  | .lds z d r im => Sys2Proof.Machine.execLds z d r im s
  | .sts z d r im => Sys2Proof.Machine.execSts z d r im s
  | .agen n d a b m => Sys2Proof.Machine.execAgen n d a b m s
  | .lcset n a im => Sys2Proof.Machine.execLcset n a im s
  | .br im => Sys2Proof.Machine.execBr im s
  | .brc z a im => Sys2Proof.Machine.execBrc z a im s
  | .call d im => Sys2Proof.Machine.execCall d im s
  | .ret a => Sys2Proof.Machine.execRet a s
  | .repeatLoop n a im => Sys2Proof.Machine.execRepeatLoop n a im s
  | .moor o c sigl sigh budget safe => Sys2Proof.Machine.execMoor o c sigl sigh budget safe s
  | .rdvPlain sc g => Sys2Proof.Machine.execRdvPlain sc g s
  | .rdvBar sc g a b => Sys2Proof.Machine.execRdvBar sc g a b s
  | .rdvWm sc g a b => Sys2Proof.Machine.execRdvWm sc g a b s
  | .rdvCmt sc g a b => Sys2Proof.Machine.execRdvCmt sc g a b s
  | .rdvLp sc => Sys2Proof.Machine.execRdvLp sc s
  | .halt => Sys2Proof.Machine.execHalt s
  | .trap z a im => Sys2Proof.Machine.execTrap z a im s
  | .rett => Sys2Proof.Machine.execRett s
  | .resync => Sys2Proof.Machine.execResync s
  | .sysrd d a im => Sys2Proof.Machine.execSysrd d a im s
  | .syswr d a im => Sys2Proof.Machine.execSyswr d a im s
  | .cancel lvl a im => Sys2Proof.Machine.execCancel lvl a im s
  | .winv a b m => Sys2Proof.Machine.execWinv a b m s
  | .vadd f d a b h m => Sys2Proof.Machine.execVadd f d a b h m s
  | .vsub f d a b h m => Sys2Proof.Machine.execVsub f d a b h m s
  | .vmul f d a b h m => Sys2Proof.Machine.execVmul f d a b h m s
  | .vfma f d a b h m => Sys2Proof.Machine.execVfma f d a b h m s
  | .vfms f d a b h m => Sys2Proof.Machine.execVfms f d a b h m s
  | .vmin f d a b h m => Sys2Proof.Machine.execVmin f d a b h m s
  | .vmax f d a b h m => Sys2Proof.Machine.execVmax f d a b h m s
  | .vabs f d a h m => Sys2Proof.Machine.execVabs f d a h m s
  | .vneg f d a h m => Sys2Proof.Machine.execVneg f d a h m s
  | .vadds f d a b h m => Sys2Proof.Machine.execVadds f d a b h m s
  | .vsubs f d a b h m => Sys2Proof.Machine.execVsubs f d a b h m s
  | .vmulh f d a b h m => Sys2Proof.Machine.execVmulh f d a b h m s
  | .vcmp f cond k a b h m => Sys2Proof.Machine.execVcmp f cond k a b h m s
  | .vsel f d a b h m => Sys2Proof.Machine.execVsel f d a b h m s
  | .vand d a b h m => Sys2Proof.Machine.execVand d a b h m s
  | .vor d a b h m => Sys2Proof.Machine.execVor d a b h m s
  | .vxor d a b h m => Sys2Proof.Machine.execVxor d a b h m s
  | .vandn d a b h m => Sys2Proof.Machine.execVandn d a b h m s
  | .vshl f d a b h m => Sys2Proof.Machine.execVshl f d a b h m s
  | .vshr f d a b h m => Sys2Proof.Machine.execVshr f d a b h m s
  | .vsar f d a b h m => Sys2Proof.Machine.execVsar f d a b h m s
  | .vcvt rm d a h m => Sys2Proof.Machine.execVcvt rm d a h m s
  | .vrcp f d a h m => Sys2Proof.Machine.execVrcp f d a h m s
  | .vrsq f d a h m => Sys2Proof.Machine.execVrsq f d a h m s
  | .vsqrt f d a h m => Sys2Proof.Machine.execVsqrt f d a h m s
  | .vdiv f d a b h m => Sys2Proof.Machine.execVdiv f d a b h m s
  | .vexp2 f d a h m => Sys2Proof.Machine.execVexp2 f d a h m s
  | .vlog2 f d a h m => Sys2Proof.Machine.execVlog2 f d a h m s
  | .vred f d a op h m => Sys2Proof.Machine.execVred f d a op h m s
  | .vscan f d a op h m => Sys2Proof.Machine.execVscan f d a op h m s
  | .vperm d a b h m => Sys2Proof.Machine.execVperm d a b h m s
  | .vshuf f d a b h m => Sys2Proof.Machine.execVshuf f d a b h m s
  | .vbcast d a b h m => Sys2Proof.Machine.execVbcast d a b h m s
  | .vsplat f d a im => Sys2Proof.Machine.execVsplat f d a im s
  | .vlane d a b h m => Sys2Proof.Machine.execVlane d a b h m s
  | .vext d a b h m => Sys2Proof.Machine.execVext d a b h m s
  | .vins d a b m => Sys2Proof.Machine.execVins d a b m s
  | .vdot f d a b h m => Sys2Proof.Machine.execVdot f d a b h m s
  | .vpack w d a b h m => Sys2Proof.Machine.execVpack w d a b h m s
  | .vunpack w d a mode h m => Sys2Proof.Machine.execVunpack w d a mode h m s
  | .vld z d r im => Sys2Proof.Machine.execVld z d r im s
  | .vlds f d a b m => Sys2Proof.Machine.execVlds f d a b m s
  | .vldg f d a b m => Sys2Proof.Machine.execVldg f d a b m s
  | .vst z d r im => Sys2Proof.Machine.execVst z d r im s
  | .vsts f d a b m => Sys2Proof.Machine.execVsts f d a b m s
  | .vstx f d a b m => Sys2Proof.Machine.execVstx f d a b m s
  | .vstm f d a b m => Sys2Proof.Machine.execVstm f d a b m s
  | .vmov d a h m => Sys2Proof.Machine.execVmov d a h m s
  | .mand d a b m => Sys2Proof.Machine.execMand d a b m s
  | .mor d a b m => Sys2Proof.Machine.execMor d a b m s
  | .mxor d a b m => Sys2Proof.Machine.execMxor d a b m s
  | .mnot d a m => Sys2Proof.Machine.execMnot d a m s
  | .mpop d a m => Sys2Proof.Machine.execMpop d a m s
  | .mfirst d a m => Sys2Proof.Machine.execMfirst d a m s
  | .vmrd t d a mode m => Sys2Proof.Machine.execVmrd t d a mode m s
  | .vmwr t d a mode m => Sys2Proof.Machine.execVmwr t d a mode m s
  | .vminn f d a b h m => Sys2Proof.Machine.execVminn f d a b h m s
  | .vmaxn f d a b h m => Sys2Proof.Machine.execVmaxn f d a b h m s
  | .vaddsn f d a b h m => Sys2Proof.Machine.execVaddsn f d a b h m s
  | .vsubsn f d a b h m => Sys2Proof.Machine.execVsubsn f d a b h m s
  | .vmulhn f d a b h m => Sys2Proof.Machine.execVmulhn f d a b h m s
  | .vcmpn f cond k a b h m => Sys2Proof.Machine.execVcmpn f cond k a b h m s
  | .mma f tl t z c a b sc m => Sys2Proof.Machine.execMma f tl t z c a b sc m s
  | .mmat f tl t z c a b sc m => Sys2Proof.Machine.execMmat f tl t z c a b sc m s
  | .mmag f tl t z c a b sc m => Sys2Proof.Machine.execMmag f tl t z c a b sc m s
  | .mclr im tl m => Sys2Proof.Machine.execMclr im tl m s
  | .mchk tl a m => Sys2Proof.Machine.execMchk tl a m s
  | .mchkSp a m => Sys2Proof.Machine.execMchkSp a m s
  | .mmarg a b m => Sys2Proof.Machine.execMmarg a b m s
  | .mload tl t c a m => Sys2Proof.Machine.execMload tl t c a m s
  | .mout rm tl t c a b m => Sys2Proof.Machine.execMout rm tl t c a b m s
  | .cpy put im d a sh m => Sys2Proof.Machine.execCpy put im d a sh m s
  | .cpys put im d a sh m => Sys2Proof.Machine.execCpys put im d a sh m s
  | .cpym im d a sh m => Sys2Proof.Machine.execCpym im d a sh m s
  | .cpyt put im d a m => Sys2Proof.Machine.execCpyt put im d a m s
  | .code v im d a sh m => Sys2Proof.Machine.execCode v im d a sh m s
  | .hcpy put ch d a sh m => Sys2Proof.Machine.execHcpy put ch d a sh m s
  | .stageRd d m => Sys2Proof.Machine.execStageRd d m s
  | .stageSet a m => Sys2Proof.Machine.execStageSet a m s
  | .bara n a m => Sys2Proof.Machine.execBara n a m s
  | .atomInt op d a b w m => Sys2Proof.Machine.execAtomInt op d a b w m s
  | .atomOther op d a b w m => Sys2Proof.Machine.execAtomOther op d a b w m s
  | .send im n a sh m => Sys2Proof.Machine.execSend im n a sh m s
  | .recv n a m => Sys2Proof.Machine.execRecv n a m s
  | .rld z im d a ord m => Sys2Proof.Machine.execRld z im d a ord m s
  | .rst z im d a ord m => Sys2Proof.Machine.execRst z im d a ord m s
  | .rred op im d a m => Sys2Proof.Machine.execRred op im d a m s
  | .rrel im m => Sys2Proof.Machine.execRrel im m s
  | .rrelAll m => Sys2Proof.Machine.execRrelAll m s
  | .bcst im d a sh m => Sys2Proof.Machine.execBcst im d a sh m s
  | .drain d sc m => Sys2Proof.Machine.execDrain d sc m s
  | .ratomInt op im d a opt m => Sys2Proof.Machine.execRatomInt op im d a opt m s
  | .ratomOther op im d a opt m => Sys2Proof.Machine.execRatomOther op im d a opt m s
  | .scl n r im => Sys2Proof.Machine.execScl n r im s
  | .sclv n a m => Sys2Proof.Machine.execSclv n a m s
  | .xpack mode d a g m => Sys2Proof.Machine.execXpack mode d a g m s
  | .xunpack mode d a g m => Sys2Proof.Machine.execXunpack mode d a g m s
  | .rndpop packed d m => Sys2Proof.Machine.execRndpop packed d m s
  | .rndseed a m => Sys2Proof.Machine.execRndseed a m s
  | .idle n => Sys2Proof.Machine.execIdle n s
  | .powerOnReset pkg => Sys2Proof.Machine.execPowerOnReset pkg s
  | .createPartition p layers lpivl ctx => Sys2Proof.Machine.execCreatePartition p layers lpivl ctx s
  | .chamoisAppend g => Sys2Proof.Machine.execChamoisAppend g s
  | .resultLanding g l => Sys2Proof.Machine.execResultLanding g l s
  | .matrixReadable g op => Sys2Proof.Machine.execMatrixReadable g op s
  | .marginCheck g op => Sys2Proof.Machine.execMarginCheck g op s
  | .memberShareStart g op => Sys2Proof.Machine.execMemberShareStart g op s
  | .gangCompletionAdd g home off => Sys2Proof.Machine.execGangCompletionAdd g home off s
  | .pieceTransfer op k rd => Sys2Proof.Machine.execPieceTransfer op k rd s
  | .codeFillLanding g op k => Sys2Proof.Machine.execCodeFillLanding g op k s
  | .hcpyPiece op k => Sys2Proof.Machine.execHcpyPiece op k s
  | .serviceAccess g => Sys2Proof.Machine.execServiceAccess g s
  | .stagedWriteLanding f => Sys2Proof.Machine.execStagedWriteLanding f s
  | .remoteRead f => Sys2Proof.Machine.execRemoteRead f s
  | .ratomLanding f => Sys2Proof.Machine.execRatomLanding f s
  | .reductionMerge f e => Sys2Proof.Machine.execReductionMerge f e s
  | .bankAluWrite b => Sys2Proof.Machine.execBankAluWrite b s
  | .commitFlitLanding f => Sys2Proof.Machine.execCommitFlitLanding f s
  | .recallFlitLanding f => Sys2Proof.Machine.execRecallFlitLanding f s
  | .linkFlit f hop => Sys2Proof.Machine.execLinkFlit f hop s
  | .flitLost f => Sys2Proof.Machine.execFlitLost f s
  | .noticeLanding n => Sys2Proof.Machine.execNoticeLanding n s
  | .packageLost pkg => Sys2Proof.Machine.execPackageLost pkg s
  | .peerSetUpdate p x => Sys2Proof.Machine.execPeerSetUpdate p x s
  | .drainComplete g n => Sys2Proof.Machine.execDrainComplete g n s
  | .horizonResume g => Sys2Proof.Machine.execHorizonResume g s
  | .rendezvousRelease r => Sys2Proof.Machine.execRendezvousRelease r s
  | .watermarkCompare r => Sys2Proof.Machine.execWatermarkCompare r s
  | .cancelVisible p lvl x => Sys2Proof.Machine.execCancelVisible p lvl x s
  | .coreIdle g => Sys2Proof.Machine.execCoreIdle g s
  | .launchStaging p => Sys2Proof.Machine.execLaunchStaging p s
  | .launchPointRelease p => Sys2Proof.Machine.execLaunchPointRelease p s
  | .jobStart p => Sys2Proof.Machine.execJobStart p s
  | .thermalTrip k => Sys2Proof.Machine.execThermalTrip k s
  | .thermalRelease k => Sys2Proof.Machine.execThermalRelease k s
  | .podFreeze p r => Sys2Proof.Machine.execPodFreeze p r s
  | .freezeBoundary p => Sys2Proof.Machine.execFreezeBoundary p s
  | .partitionResume p => Sys2Proof.Machine.execPartitionResume p s
  | .dredgerStep g => Sys2Proof.Machine.execDredgerStep g s
  | .dredgerWriteback g off => Sys2Proof.Machine.execDredgerWriteback g off s
  | .timing g sq => Sys2Proof.Machine.execTiming g sq s
  | .deliver op k => Sys2Proof.Machine.execDeliver op k s
  | .cycslip g => Sys2Proof.Machine.execCycslip g s
  | .undoWriteback g => Sys2Proof.Machine.execUndoWriteback g s
  | .handlerEntry g => Sys2Proof.Machine.execHandlerEntry g s
  | .segmentReentry g => Sys2Proof.Machine.execSegmentReentry g s
  | .deferredLanding g => Sys2Proof.Machine.execDeferredLanding g s
  | .tableServiceRequest g => Sys2Proof.Machine.execTableServiceRequest g s
  | .tableEntryWrite k e hi x => Sys2Proof.Machine.execTableEntryWrite k e hi x s
  | .tableEntryRepair k e => Sys2Proof.Machine.execTableEntryRepair k e s
  | .mapPublication pkg bytes inService => Sys2Proof.Machine.execMapPublication pkg bytes inService s
  | .surveyWindow k bytes => Sys2Proof.Machine.execSurveyWindow k bytes s
  | .inServiceSurvey pkg bytes => Sys2Proof.Machine.execInServiceSurvey pkg bytes s
  | .load p => Sys2Proof.Machine.execLoad p s
  | .unload p => Sys2Proof.Machine.execUnload p s
  | .start p => Sys2Proof.Machine.execStart p s
  | .endJob p => Sys2Proof.Machine.execEndJob p s
  | .cancelCommand p => Sys2Proof.Machine.execCancelCommand p s
  | .hold p => Sys2Proof.Machine.execHold p s
  | .release p => Sys2Proof.Machine.execRelease p s
  | .patch p => Sys2Proof.Machine.execPatch p s
  | .attest p => Sys2Proof.Machine.execAttest p s
  | .ckpt p => Sys2Proof.Machine.execCkpt p s
  | .resumeck p => Sys2Proof.Machine.execResumeck p s
  | .rebind p => Sys2Proof.Machine.execRebind p s
  | .freeze p => Sys2Proof.Machine.execFreeze p s
  | .save p => Sys2Proof.Machine.execSave p s
  | .restore p => Sys2Proof.Machine.execRestore p s
  | .resume p => Sys2Proof.Machine.execResume p s
  | .discard p => Sys2Proof.Machine.execDiscard p s
  | .mbrespClear p => Sys2Proof.Machine.execMbrespClear p s
  | .ctxstatClear p => Sys2Proof.Machine.execCtxstatClear p s
  | .firedClear g x => Sys2Proof.Machine.execFiredClear g x s
  | .launchQueueEnqueue p e x => Sys2Proof.Machine.execLaunchQueueEnqueue p e x s
  | .launchQueueEmpty p e x => Sys2Proof.Machine.execLaunchQueueEmpty p e x s
  | .launchQueueFieldWrite p e x => Sys2Proof.Machine.execLaunchQueueFieldWrite p e x s
  | .repairreq g x => Sys2Proof.Machine.execRepairreq g x s
  | .bistsum g x => Sys2Proof.Machine.execBistsum g x s
  | .arrayInjectorArm g n x => Sys2Proof.Machine.execArrayInjectorArm g n x s
  | .linkInjectorArm k n x => Sys2Proof.Machine.execLinkInjectorArm k n x s
  | .systemRegisterWrite t x => Sys2Proof.Machine.execSystemRegisterWrite t x s
  | .illegal g sub pos => Sys2Proof.Machine.execIllegal g sub pos s
  | .unknownCommandCode p ctx => Sys2Proof.Machine.execUnknownCommandCode p ctx s
  | .coreLost g => Sys2Proof.Machine.execCoreLost g s
  | .extendService k mr x => Sys2Proof.Machine.execExtendService k mr x s
  | .tableServiceAnswer g decline => Sys2Proof.Machine.execTableServiceAnswer g decline s

end Sys2Proof.Machine
end

