-- ==== Sys2Proof/Machine/Issue.lean ====
section
/-! DEFINITION. Fetching and issuing a bundle (02, R43, R53, R59; 07, R187 to R199; 15, R354, R355), the control cores'
bundles (12, R339), and what takes place after an issue or at its cycle: performs, events, and the passing of a cycle. -/

namespace Sys2Proof.Machine

/-! ### Fetch -/

/-- The words that the fetch reads, up to the one that ends or stops it. -/
def fetchLen (c : Core) : Nat → Nat → Nat
  | 0, _ => 0
  | n + 1, o =>
    if 0x10000 ≤ o ∨ tabGet (fun _ => false) c.codeValid (o / 4) = false then 0
    else if SlotWord.e (tabGet (zeroAt (w := 32)) c.code (o / 4)) then 1 else fetchLen c n (o + 4) + 1

/-- The record of a fault found at the fetch or in the bundle as a whole. -/
def bundleFault (cls sub slot off word : Nat) : FaultRec :=
  { cls := cls, sub := sub, slot := slot, bundle := off, cmd := 0xFFFF, extent := 0, piece := 0
    addr := if cls = 0x0B then word else 0, detail := if cls = 0x0B then 6 else 0 }

/-- Corrected words of a fetched bundle, whether or not it is one to issue (R397). -/
def fetchReads (s : State) (g : Nat) : State :=
  let off := (coreOf s g).pc
  let n := fetchLen (coreOf s g) 8 off
  countReads s g 6 (((dedup ((List.range n).map (fun i => (off / 4 + i) / 2))).filter (fun k =>
    let b := tabGet (fun _ => 0) (coreOf s g).codeBad k
    decide (b ≠ 0) && decide (b ≠ 1000))).map (errorWord 6))

/-! ### The slots of a bundle -/

/-- Does the slot choose the bundle that follows (R59)? -/
def controlSlot : Instr → Bool
  | .br _ => true | .brc .. => true | .call .. => true | .ret _ => true | .repeatLoop .. => true
  | .halt => true | .rett => true | .resync => true
  | _ => false

/-- Is the slot a rendezvous? -/
def rdvSlot : Instr → Bool
  | .rdvPlain .. => true | .rdvBar .. => true | .rdvWm .. => true | .rdvCmt .. => true | .rdvLp _ => true
  | _ => false

/-- Slots after which the core's next bundle is posted by their own effect, or none follows. -/
def ownIssue (i : Instr) : Bool := rdvSlot i || i = .halt || i = .rett || i = .resync || (match i with
  | .idle _ => true
  | _ => false)

/-- Is a mooring bundle due (R51, R59)? -/
def moorDue (c : Core) : Bool := c.pass.next.isSome || c.pass.id.serial = 0

/-- ILLEGAL 4 of a bundle with no control slot whose successor in code order lies beyond the window (R188). -/
def codeEndFaults (c : Core) (b : Bundle) : List FaultRec :=
  if !(b.slots.any (fun x => controlSlot x.2)) && decide (0xFFFC < c.pc + 4 * b.nwords) then [bundleFault 0x02 4 7 c.pc 0] else []

/-- Faults of the bundle as a whole: no mooring bundle where one is due, or no successor in the window (R188, R354). -/
def bundleFaults (c : Core) (b : Bundle) : List FaultRec :=
  (if moorDue c && !(b.slots.any (fun x => x.2.isMoor)) then [bundleFault 0x02 7 7 c.pc 0] else []) ++ codeEndFaults c b

/-- The slots in the order they are run: HALT looks at what its own bundle leaves outstanding, so it comes last. -/
def slotOrder (l : List (Nat × Instr)) : List (Nat × Instr) :=
  l.filter (fun x => x.2 ≠ .halt) ++ l.filter (fun x => x.2 = .halt)

/-- Does the unit of the slot accept an operation in this cycle (R29, R84, R311)? A dead one has no pace (R460), and the bank ALUs
are no unit of a pace of its own. -/
def accepts (s : State) (slot : Nat) (i : Instr) : Bool :=
  let g := s.cur.g
  decide (slot = 0) || decide (5 < slot) || unitDead s g slot || (match i with
    | .atomInt .. => true
    | .atomOther .. => true
    | .bara .. => true
    | _ => false) || decide (cnow s g % unitPace s g slot = 0)

/-- A slot that raised faults, `fs` with those of the slots before it, takes no effect (R355), but the vector registers that it reads
and its place among the engine operations count for the slots after it. DESIGN CHOICE (log entry 56): it takes no port. -/
def skipSlot (s : State) (i : Instr) (fs : List FaultRec) : State :=
  let s := noteVreads { s with cur := { s.cur with faults := fs } } i
  if fs.any (fun r => r.slot = s.cur.slot && decide (r.cmd ≠ 0xFFFF)) then takeCmd s else s

/-- The slots run one after the other, and the faults of all of them are collected. DESIGN CHOICE (log entry 56): an operation issued
in a cycle in which its unit accepts none has no effect. -/
def runSlots : List (Nat × Instr) → State → Host.Outcome State Fault Refusal
  | [], s => .next s
  | x :: l, s =>
    if accepts s x.1 x.2 = false then runSlots l s
    else
      let s := { s with cur := { s.cur with slot := x.1 } }
      match exec x.2 s with
      | .next t => runSlots l (if t.cur.faults = s.cur.faults then t else skipSlot s x.2 t.cur.faults)
      | .fault r => .fault r
      | .refused r => .refused r

/-- The slot words enter the pass's signature (R55). -/
def signWords (c : Core) (b : Bundle) : Core :=
  if b.slots.any (fun x => x.2.isMoor) then c
  else { c with pass := { c.pass with crc := b.words.foldl crcWord c.pass.crc } }

/-- The state in which the slots of a bundle of core `g` run, with the faults of the bundle as a whole. -/
def enterBundle (s : State) (g : Nat) (b : Bundle) (fs : List FaultRec) : State :=
  let off := (coreOf s g).pc
  { modCore s g (fun c => signWords c b) with cur := ⟨g, 0, off, b.nwords, [], fs⟩ }

/-- The bundle that follows is posted, where the slots do not post it themselves (R43, R59). -/
def finishBundle (g : Nat) (b : Bundle) (t : State) : State :=
  let c := coreOf t g
  let next := match c.pass.next with
    | some (.goto o) => o
    | _ => t.cur.off + 4 * b.nwords
  let t := modCore t g (fun c => { c with pc := next })
  if b.slots.any (fun x => ownIssue x.2) then t
  else postAt t g (paceUp (corePace t g) (cnow t g + 1)) 22 none (.issue g)

/-- The core takes the first of the faults of a cycle; other uncorrectable words that were consumed are counted, and a translation entry
among them is to be repaired (R355, R399, R413). -/
def failBundle (s : State) (g : Nat) (fs : List FaultRec) : State :=
  match firstFault fs with
  | none => s
  | some r =>
    let s := (fs.erase r).foldl (fun s q => countUncorr s g q) (takeFault s g r)
    if fs.any (fun q => q.cls = 0x0B && q.sub = 7) then askRepair s g else s

/-- The corrected operands of a bundle that faults: it has read them (R397). -/
def readBundle (s : State) (g : Nat) (b : Bundle) : State :=
  let cur := s.cur
  { b.slots.foldl (fun s x => countOperands s x.2) { s with cur := ⟨g, 0, (coreOf s g).pc, b.nwords, [], []⟩ } with cur := cur }

/-- A decoded bundle issues at core `g`. -/
def issueSlots (g : Nat) (b : Bundle) (s : State) : Host.Outcome State Fault Refusal :=
  match runSlots (slotOrder b.slots) (enterBundle s g b (bundleFaults (coreOf s g) b)) with
  | .next t => .next (if t.cur.faults = [] then finishBundle g b t else failBundle (readBundle s g b) g t.cur.faults)
  | .fault r => .fault r
  | .refused r => .refused r

/-! ### Control cores (R339) -/

/-- The opcodes of a control core. -/
def controlOp (i : Instr) : Bool :=
  match i.enc.1 / 2 ^ 28 % 8, i.enc.1 / 2 ^ 22 % 64 with
  | 0, o => decide (o ≤ 0x27) || decide (0x2A ≤ o ∧ o ≤ 0x2D) || o = 0x36 || o = 0x38 || o = 0x39
  | _, _ => false

/-- Registers of a control core whose values are still to land. -/
def unlanded (s : State) (g n : Nat) : Bool :=
  s.agenda.any (fun d => match d.ev with
    | .instr (.resultLanding h (.sreg m _)) => h = g && m = n
    | _ => false) ||
  s.cores.any (fun e => e.2.svc.any (fun a => match a with
    | .read _ h m => h = g && m = n
    | _ => false))

/-- A fault stops a control core, its record written. -/
def controlStop (s : State) (g : Nat) (r : FaultRec) : State :=
  modCore s g (fun c => { writeRecord c g (cnow s g) c.pass c.live.lc r with run := .stopped })

/-- One bundle of a control core: it waits until every register it reads has landed; one with no successor in the window is not an
instruction (R188). -/
def issueControl (g : Nat) (s : State) : Host.Outcome State Fault Refusal :=
  let c := coreOf s g
  match fetchBundle c 8 c.pc with
  | .error e => .next (controlStop s g (bundleFault e.1 e.2.1 7 c.pc e.2.2))
  | .ok ws =>
    match decodeBundle ws with
    | .error e => .next (controlStop s g (bundleFault 0x02 e.1 e.2 c.pc 0))
    | .ok b =>
      match b.slots with
      | [(0, i)] =>
        if controlOp i = false then .next (controlStop s g (bundleFault 0x02 1 0 c.pc 0))
        else if (i.srcs.filter (· < 32)).any (unlanded s g) then .next (postAt s g (cnow s g + 1) 22 none (.issue g))
        else
          let s := modCore s g (fun c => { c with pass := { c.pass with next := none } })
          match exec i { s with cur := ⟨g, 0, c.pc, b.nwords, [], codeEndFaults c b⟩ } with
          | .next t =>
            match firstFault t.cur.faults with
            | some r => .next (controlStop s g r)
            | none => .next (finishBundle g b t)
          | .fault r => .fault r
          | .refused r => .refused r
      | _ => .next (controlStop s g (bundleFault 0x02 1 0 c.pc 0))

/-- Faults of a fetch that found no bundle. -/
def fetchFaults (s : State) (g : Nat) (e : Nat × Nat × Nat) : List FaultRec :=
  bundleFault e.1 e.2.1 7 (coreOf s g).pc e.2.2 :: (if e.1 = 0x03 then shownSlips s g else [])

/-- The core issues its next bundle. -/
def issueBundle (g : Nat) (s : State) : Host.Outcome State Fault Refusal :=
  let c := coreOf s g
  if c.run ≠ .running then .next s
  else if isControl g then issueControl g s
  else
    let s := fetchReads s g
    match fetchBundle c 8 c.pc with
    | .error e => .next (failBundle s g (fetchFaults s g e))
    | .ok ws =>
      match decodeBundle ws with
      | .error e => exec (.illegal g e.1 e.2) s
      | .ok b => issueSlots g b s

/-- The ports that the bundle of core `g` takes in this cycle, if one is due, are found by issuing it (R371): what its issue does
is dropped, and the landings of the cycle that meet those ports will wait. -/
def lookAhead (g : Nat) (s : State) : State :=
  let ports := if issueDue s g then (match issueBundle g s with
    | .next x => (coreOf x g).ports.filter (fun r => r.serial ≠ 0)
    | _ => []) else []
  modCore s g (fun c => { c with ahead := (cnow s g, ports) })

/-! ### Faults of a cycle (R355) -/

/-- The bundle of core `g` that is due in this cycle is fetched, and its operands read, for the faults that it raises: it does not
issue, since another fault of its cycle has been found. -/
def dueFaults (s : State) (g : Nat) : State × List FaultRec :=
  let c := coreOf s g
  if c.run ≠ .running ∨ issueDue s g = false ∨ slipsNow s g = true then (s, [])
  else
    let s := fetchReads s g
    match fetchBundle c 8 c.pc with
    | .error e => (s, fetchFaults s g e)
    | .ok ws =>
      match decodeBundle ws with
      | .error e => (s, [bundleFault 0x02 e.1 e.2 c.pc 0])
      | .ok b => (readBundle s g b, match runSlots (slotOrder b.slots) (enterBundle s g b (bundleFaults c b)) with
          | .next t => t.cur.faults
          | _ => [])

/-- The faults that the rest of the cycle would bring core `g` before its issue: BANK of pieces, and a slip at the count C. -/
def laterFaults (s : State) (g : Nat) : List FaultRec :=
  let due := s.agenda.filter (fun d => d.clk = clkOf s g && d.cyc = cnow s g)
  (due.filterMap (fun d => match d.ev with
    | .pieceBank op k sub bank => ((takenPiece s op k sub bank).filter (fun r => r.1 = g)).map (·.2)
    | _ => none)) ++
  (if slipsNow s g then [slipFault s g 2 (coreOf s g).pass (cnow s g)] else [])

/-- The core takes the first of the faults of this cycle: those found, and those that the rest of the cycle would have brought. -/
def foundNow (s : State) (g : Nat) : State :=
  let fs := (coreOf s g).found ++ laterFaults s g
  let r := dueFaults s g
  failBundle (modCore r.1 g (fun c => { c with found := [] })) g (fs ++ r.2)

/-! ### Performs and events -/

/-- A hold latch captures (R91). -/
def captureNow (c : Core) (q : Nat) (x : VReg) : Core :=
  { c with live := { c.live with
      hold := tabSet zeroAt c.live.hold q x
      bad := c.live.bad.filter (fun e => !(decide (badKey 5 (16 + 64 * q) ≤ e.1) && decide (e.1 < badKey 5 (80 + 64 * q)))) } }

/-- A completion register is read and its value lands (R71). -/
def readLate (s : State) (g i d cyc : Nat) (own : Option Src) : State :=
  postAt s g cyc 10 own (.instr (.resultLanding g (.sreg d (sysRead s g i))))

/-- What a perform does at its place in the cycle. -/
def performNow (s : State) (g : Nat) (own : Option Src) (x : Perf) : State :=
  match x with
  | .store ws clear => storeNow s g ws clear
  | .capture q x => modCore s g (fun c => captureNow c q x)
  | .syswr i x => sysWrite s g i x
  | .seed key => seedChamois s g key
  | .winv o n => modCore s g (fun c => clearMarks c o n)
  | .recv n base => modCore s g (fun c => armSlot c n base)
  | .redMerge route line var e v => modCore s g (fun c => redMergeNow c route line var e v)
  | .redRelease all route => modCore s g (fun c => redReleaseNow c all route)
  | .stageSet x => modCore s g (fun c => { c with live := { c.live with stage := x } })
  | .cancel lvl id => cancelFrom s g lvl id
  | .haltClear => haltUnit s g
  | .clearUnit => modCore s g (fun c => setRedo (clearUnit c) 0)
  | .hcpy op => queueHcpy s op
  | .drainDecide n => drainDecideNow s g n
  | .horizonHold _ => holdHorizon s g
  | .arrive kind group scope off a b => arriveRdv s g kind group scope off a b
  | .doneRise => unitDone s g
  | .berthEnd => berthOver s g
  | .lateRead i d cyc => readLate s g i d cyc own
  | .leave resync => leaveHandler s g resync
  | .mstClear es => clearMstNow s g es
  | .count kind arr word n => countError s g kind arr word n
  | .scrub arr n view bad => scrubNow s g arr n view bad

/-- A flit of a gang's stream arrives, unless it was lost on its way. -/
def streamNow (s : State) (f : Nat) : State :=
  match flitOf s f with
  | none => s
  | some x =>
    let s := dropFlit s f
    match x.load with
    | .stream g op off bytes => if x.st % 8 = 0 ∨ x.st % 8 = 3 then streamLand s g op off bytes (x.st % 8 = 3) else s
    | _ => s

/-- An event takes place. -/
def runEvent (d : Due) (s : State) : Host.Outcome State Fault Refusal :=
  match d.ev with
  | .issue g => issueBundle g s
  | .instr i => exec i s
  | .perform g x => .next (performNow s g d.own x)
  | .engineRead g op o l => .next (engineReadAt s g op o l)
  | .moutRow g op x => .next (moutRowAt s g op x)
  | .moutRead g op x => .next (moutReadAt s g op x)
  | .xferLand op => .next (landXfer s op)
  | .pieceBank op k sub bank => .next (pieceBankNow s op k sub bank)
  | .stackAsk op k wait => .next (askStack s op k wait)
  | .ahead g => .next (lookAhead g s)
  | .reply f => .next (replyNow s f)
  | .aluRead b => .next (aluReadNow s b)
  | .streamArrive f => .next (streamNow s f)
  | .faults g => .next (foundNow s g)
  | .contextDone p => .next (contextDone s p)
  | .booted p => .next (imageBooted s p)

/-! ### Time -/

/-- Is the event due now on its clock? A partition that is frozen makes nothing due. -/
def isDue (s : State) (d : Due) : Bool :=
  match d.clk with
  | none => decide (d.cyc ≤ s.now)
  | some p => (partOf s p).live && decide (d.cyc ≤ (partOf s p).tide)

/-- The earlier of two events of one cycle. -/
def sooner (a b : Due) : Bool := decide (a.ph < b.ph) || (decide (a.ph = b.ph) && decide (a.seq < b.seq))

/-- The first event that is due. -/
def nextDue (s : State) : Option Due :=
  (s.agenda.filter (isDue s)).foldl (fun m d => match m with
    | none => some d
    | some e => if sooner d e then some d else some e) none

/-- Is the cycle one in which the dredger walks the cores of layer `l` of package `n` (R400)? -/
def dredgeCycle (s : State) (n l : Nat) : Bool :=
  match partAt s n l with
  | some p =>
    let x := partOf s p
    if x.state = 4 then true else if x.state = 3 then inWindow x.tide else inWindow s.now
  | none => inWindow s.now

/-- The steps that every cycle may bring: random words (R124), queued accesses (R97), the dredger (R400). -/
def cycleEvents (s : State) : List (Nat × Instr) :=
  (s.cores.filter (fun e => e.2.live.rnd.seeded && decide (e.2.live.rnd.queue.length < 8))).map (fun e =>
    (12, .chamoisAppend e.1)) ++
  (s.cores.filter (fun e => decide (e.2.svc ≠ []))).map (fun e => (13, .serviceAccess e.1)) ++
  (s.pkgs.filter (fun e => e.2.alive)).flatMap (fun e =>
    ((List.range 8).filter (dredgeCycle s e.1)).flatMap (fun l =>
      ((512 * e.1 + 384 + l) :: ((List.range 48).map (fun i => 512 * e.1 + 48 * l + i)).filter (goodCore s)).map (fun g =>
        (14, .dredgerStep g))))

/-- Cores whose foreign landings wait where they meet a port of the core's own bundle (R371, R420). -/
def watched (s : State) : List Nat :=
  (s.cores.filter (fun e => e.2.recovery || s.cores.any (fun f => f.2.soft))).map (·.1)

/-- What the outside world causes in phase 1 of this cycle: a result that a unit does not deliver (R377). -/
def duePhase1 (s : State) (x : Nat × Instr) : Bool := decide (x.1 ≤ s.now) && (match x.2 with
  | .timing .. => true
  | _ => false)

/-- Those of the inbox take their place in the cycle, before the landings. -/
def takePhase1 (s : State) : State :=
  (s.inbox.filter (duePhase1 s)).foldl (fun s x => post s none s.now 9 none (.instr x.2))
    { s with inbox := s.inbox.filter (fun x => !duePhase1 s x) }

/-- The cycle ends: the package clock and the tide counters of live partitions advance (R6, R80). -/
def tick (s : State) : State :=
  let s := { s with
    now := s.now + 1
    parts := s.parts.map (fun e => if e.2.live then (e.1, { e.2 with tide := e.2.tide + 1 }) else e) }
  let s := (watched s).foldl (fun s g => postSub s none s.now 10 0xE000 none (.ahead g)) s
  (cycleEvents s).foldl (fun s e => post s none s.now e.1 none (.instr e.2)) (takePhase1 s)

/-- The first instruction of the outside world whose cycle has come. -/
def fromOutside (s : State) : Option (Nat × Instr) := s.inbox.find? (fun x => decide (x.1 ≤ s.now))

end Sys2Proof.Machine
end

