-- ==== Sys2Proof/Machine/Step.lean ====
section
/-! DEFINITION. One step of the machine: the first event that is due takes place; with none, what the outside world does in
this cycle; with none, the cycle ends. -/

namespace Sys2Proof.Machine

/-- The event leaves the agenda. -/
def takeDue (s : State) (d : Due) : State := { s with agenda := s.agenda.erase d }

def step (s : State) : Host.Outcome State Fault Refusal :=
  match nextDue s with
  | some d => runEvent d (takeDue s d)
  | none =>
    match fromOutside s with
    | some x => exec x.2 { s with inbox := s.inbox.erase x }
    | none => .next (tick s)

/-- The words stand in the code window from offset `o`, valid. -/
def placeCode (c : Core) : Nat → List SlotWord → Core
  | _, [] => c
  | o, w :: ws =>
    placeCode { c with
      code := tabSet zeroAt c.code (o / 4) w, codeValid := tabSet (fun _ => false) c.codeValid (o / 4) true
      codeBad := tabDel c.codeBad (o / 8) } (o + 4) ws

/-- Core 0 of a running job on die layer 0 is about to issue the words: what loading and launching a program leaves (see
the assumption log). A mooring bundle is due exactly when the first word is one. -/
def State.withFetchWord (s : State) (nbits w : Nat) : State :=
  let ws := tableWords nbits w
  let moor := match ws with
    | x :: _ => isMoorWord x
    | [] => false
  let pass := { Pass.none with
    id := ⟨0, 0, 0, 0, if moor then 0 else s.seq + 1⟩, m := 0, c := 2 ^ 27, budget := 256 }
  let s := setPart s 0 { partOf s 0 with state := 3, layers := 1, live := true, tide := 0 }
  let s := modCore s 0 (fun c => placeCode { c with run := .running, nvc := 1, entry := some 0, pass := pass } c.pc ws)
  { s with agenda := [⟨some 0, 0, 22 * 65536, s.seq, none, .issue 0⟩], seq := s.seq + 2, inbox := [] }

end Sys2Proof.Machine
end

