-- ==== Sys2Proof/Safety.lean ====
section
/-! DEFINITION. What counts as a safe run, in the terms the statements use. -/

namespace Sys2Proof.Machine

/-- The canonical form of memory: addresses strictly rising, and no cell equal to what an unlisted address reads as. -/
abbrev Memory.wf (m : List Host.Cell) : Prop := tabWf (zeroAt (w := 8)) m

/-- The machine's invariant: memory is canonical. -/
abbrev Inv (s : State) : Prop := Memory.wf s.mem

/-- The state after `k` steps, when none of them stops. -/
def after : Nat → State → Option State
  | 0, s => some s
  | k + 1, s =>
    match step s with
    | .next t => after k t
    | _ => none

/-- A run is safe when every one of its steps goes on and keeps the invariant. -/
def SafeRun (s : State) : Prop := ∀ k, ∃ t, after k s = some t ∧ Inv t

/-! ### The terms of the statements -/

/-- An event that only counts error events (R399). -/
def isCount : Ev → Bool
  | .perform _ (.count ..) => true
  | _ => false

/-- What is due and when, in the order in which it was asked for: clock, cycle, event. Error counts are left out. -/
def dues (s : State) : List (Option Nat × Nat × Ev) :=
  (s.agenda.filter (fun d => !isCount d.ev)).map (fun d => (d.clk, d.cyc, d.ev))

/-- Everything but the agenda and core `g` is as before, every byte of memory reads as before, and core `g` has changed
by `f` alone, but for its port reservations and its list of landings to come. -/
structure KeptBut (g : Nat) (f : Core → Core) (s t : State) : Prop where
  rest : t = { s with agenda := t.agenda, seq := t.seq, cores := t.cores, cur := t.cur }
  unit : t.cur.g = s.cur.g
  others : ∀ h, h ≠ g → coreOf t h = coreOf s h
  core : coreOf t g = { f (coreOf s g) with ports := (coreOf t g).ports, lands := (coreOf t g).lands }
  memory : ∀ a, memByte t a = memByte s a

/-- A result of the issuing core lands at cycle `cyc`. -/
def landingDue (s : State) (cyc : Nat) (l : Landing) : Option Nat × Nat × Ev :=
  (clkOf s s.cur.g, cyc, .instr (.resultLanding s.cur.g l))

/-- A later effect of the issuing slot takes place in its issue cycle. -/
def performDue (s : State) (x : Perf) : Option Nat × Nat × Ev :=
  (clkOf s s.cur.g, cnow s s.cur.g, .perform s.cur.g x)

/-- The instruction goes on to a state in which the issuing core has changed by `f` alone, and these events are due
beside those that were. -/
def Completes (i : Instr) (s : State) (f : Core → Core) (new : List (Option Nat × Nat × Ev)) : Prop :=
  ∃ t, exec i s = .next t ∧ KeptBut s.cur.g f s t ∧ dues t = dues s ++ new

/-- No other result of the core lands in the destination of `l` in cycle `cyc` (R85 gives two such landings no order), and its
port takes it (R89, R90). -/
def Alone (s : State) (cyc : Nat) (l : Landing) : Prop := landingClash s s.cur.g cyc l = false

/-- A scalar instruction: `x` lands in D after `n` cycles of class `cls` stretched by the unit's pace, unless its guard is
false or D is zero, and nothing else happens. -/
def ScalarLands (i : Instr) (d : RegField) (m : Md) (cls n : Nat) (x : Word) (s : State) : Prop :=
  operandFaults s i = [] →
  (guardMd s m = true → d.toNat < 32 → Alone s (landCyc s cls n) (.sreg d.toNat x)) →
  Completes i s id
    (if guardMd s m = true ∧ d.toNat < 32 then [landingDue s (landCyc s cls n) (.sreg d.toNat x)] else [])

/-- What a vector slot makes due, when its guard is true: its latch captures A when H is set (R91), and its result lands
at cycle `c`. -/
def vecDues (s : State) (h : Bool) (a : RegField) (m : Md) (c : Nat) (l : Landing) : List (Option Nat × Nat × Ev) :=
  if guardMd s m = true then
    (if h = true then [performDue s (.capture (latchOf s) (vVal s a))] else []) ++ [landingDue s c l]
  else []

/-- A vector instruction: `l` lands after `n` cycles of class `cls` stretched by the pipe's pace and A is captured when H
is set, unless its guard is false, and nothing else happens. -/
def VecLands (i : Instr) (h : Bool) (a : RegField) (m : Md) (cls n : Nat) (l : Landing) (s : State) : Prop :=
  vecFaults s i ++ landFaults s s.cur.g (landCyc s cls n) l = [] →
  (guardMd s m = true → Alone s (landCyc s cls n) l) →
  Completes i s id (vecDues s h a m (landCyc s cls n) l)

/-- A vector instruction with a scalar result; destination zero discards it (R194). -/
def VecLandsScalar (i : Instr) (h : Bool) (a d : RegField) (m : Md) (cls n : Nat) (x : Word) (s : State) : Prop :=
  vecFaults s i ++ (if d.toNat < 32 then landFaults s s.cur.g (landCyc s cls n) (.sreg d.toNat x) else []) = [] →
  (guardMd s m = true → d.toNat < 32 → Alone s (landCyc s cls n) (.sreg d.toNat x)) →
  Completes i s id (if d.toNat < 32 then vecDues s h a m (landCyc s cls n) (.sreg d.toNat x)
    else if h = true ∧ guardMd s m = true then [performDue s (.capture (latchOf s) (vVal s a))] else [])

/-- The matrix engine takes an operation with properties `op` issued in this cycle; these events are due beside those that
were, and the pass has issued one more engine operation. Registers, tiles, memory and other cores are as before. -/
def EngineTakes (i : Instr) (s : State) (op : MOp → Prop) (new : MOp → List (Option Nat × Nat × Ev)) : Prop :=
  let g := s.cur.g
  ∃ t m, exec i s = .next t ∧
    KeptBut g (fun c => { c with pass := { c.pass with engines := c.pass.engines + 1 }, mops := (coreOf t g).mops }) s t ∧
    m ∈ (coreOf t g).mops ∧ m.c = cnow s g ∧ m.p = unitPace s g 3 ∧ m.st = stretchOf s g 15 ∧ op m ∧
    dues t = dues s ++ new m

/-- The `n` lines of operand `o` are read over the 64 cycles of the operation's occupancy, stretched by its pace (R277). -/
def readsDue (s : State) (m : MOp) (o n : Nat) : List (Option Nat × Nat × Ev) :=
  (List.range n).map (fun l => (clkOf s s.cur.g, m.c + 64 * l / n * m.p, .engineRead s.cur.g m.id o l))

/-- The operation's cells are readable at Lr, 78 cycles of the pace after its issue (R84, R279). -/
def readableDue (s : State) (m : MOp) : List (Option Nat × Nat × Ev) :=
  [(clkOf s s.cur.g, m.c + 78 * m.p + m.st, .instr (.matrixReadable s.cur.g m.id))]

/-- The operation's check is complete at Lc, 86 cycles of the pace after its issue (R84, R279). -/
def checkDue (s : State) (m : MOp) : List (Option Nat × Nat × Ev) :=
  [(clkOf s s.cur.g, m.c + 86 * m.p + m.st, .instr (.marginCheck s.cur.g m.id))]

/-- The pass has issued one more engine operation (R356, CMD). -/
def engaged (c : Core) : Core := { c with pass := { c.pass with engines := c.pass.engines + 1 } }

/-- What the issue of an operation at core `g` leaves as it was: the core's registers, tiles, shadows, code window, scale
rows, system registers and receive slots; every other core; every byte of memory, owner tags, the partitions and the table. -/
structure Untouched (g : Nat) (s t : State) : Prop where
  live : (coreOf t g).live = (coreOf s g).live
  shadow : (coreOf t g).shadow = (coreOf s g).shadow
  code : (coreOf t g).code = (coreOf s g).code ∧ (coreOf t g).codeValid = (coreOf s g).codeValid
  units : (coreOf t g).scale = (coreOf s g).scale ∧ (coreOf t g).sys = (coreOf s g).sys ∧ (coreOf t g).recv = (coreOf s g).recv
  others : ∀ h, h ≠ g → coreOf t h = coreOf s h
  memory : ∀ a, memByte t a = memByte s a
  machine : t.tags = s.tags ∧ t.parts = s.parts ∧ t.table = s.table

/-- An engine operation goes on to a state with these properties, and leaves the rest of the machine as it was. -/
def Starts (i : Instr) (s : State) (ok : State → Prop) : Prop :=
  ∃ t, exec i s = .next t ∧ Untouched s.cur.g s t ∧
    (coreOf t s.cur.g).pass.engines = (coreOf s s.cur.g).pass.engines + 1 ∧ (∀ e ∈ dues s, e ∈ dues t) ∧ ok t

/-- An event of the issuing core is due at a cycle. -/
def DueAt (s t : State) (cyc : Nat) (e : Ev) : Prop := (clkOf s s.cur.g, cyc, e) ∈ dues t

/-- The read half of piece `k` is due at cycle `rd`; a stack is asked for it by a request that departs at `ask` (R104, R312). -/
def ReadDue (s t : State) (op k : Nat) (ask : Option Nat) (rd : Nat) : Prop :=
  match ask with
  | none => DueAt s t rd (.instr (.pieceTransfer op k true))
  | some dep => DueAt s t dep (.stackAsk op k (rd - dep))

/-- The two halves of piece `k` of transfer `x`, which departs at `d`, are due at these cycles, the read half and the write half; or
a piece no later than it meets a taken port of the core's slice in its cycle, beside the ports of the pieces before it, and BANK is
due then (R378, R379). -/
def PieceDue (s t : State) (x : Xfer) (d k : Nat) (ask : Option Nat) (rd : Nat) (wr : Option Nat) : Prop :=
  (∃ j, j ≤ k ∧ ∃ u ∈ portUses s.cur.g x d j, ∃ c, portClash t s.cur.g u.1 u.2.1 u.2.2 = some c ∧
    DueAt s t u.2.1 (.pieceBank x.id j c.1 c.2)) ∨
  (ReadDue s t x.id k ask rd ∧ ∀ c, wr = some c → DueAt s t c (.instr (.pieceTransfer x.id k false)))

/-- The DRAINs that an access's order places beside it: release before it, acquire after it, each decided after the fence
cost of its scope (R176, R420), under a number of its own for the L slot and for the Q slot. `weak`: an acquire that a failed
comparison withdraws. -/
def OrdersDrains (s t : State) (ord scope : Nat) (weak : Bool) : Prop :=
  let n := 16 * cnow s s.cur.g + if s.cur.slot = 5 then 9 else 8
  let at_ := cnow s s.cur.g + fenceCost s s.cur.g scope
  (2 ≤ ord → DueAt s t at_ (.perform s.cur.g (.drainDecide (n - 7)))) ∧
  (ord % 2 = 1 → DueAt s t at_ (.perform s.cur.g (.drainDecide (if weak = true then n + 4 else n + 2))))

/-- The timetable of R312 for piece `k` of `n`, to or from home `h`, from departure `d` at pace `p`, with the landing `land`:
when it is read, and when it is written in a slice of the issuing core. -/
def timetable (g h d n p lout lback land : Nat) (put : Bool) (k : Nat) : Nat × Option Nat :=
  let stack := land - (n - 1) * p + k * p
  let far := if isStack h = true then stack - lout else d + lout + k * p
  if put = true then (d + k * p, if h = g then some far else none)
  else (far, some (if isStack h = true then stack else d + lout + lback + k * p))

/-- The core's pass has chosen what follows its final bundle (R59). -/
def chooses (x : Next) (c : Core) : Core := { c with pass := { c.pass with next := some x } }

/-- A result of the core's pass is to land when the next mooring bundle issues (R220). -/
def atMooring (l : Landing) (c : Core) : Core := { c with pass := { c.pass with atMoor := c.pass.atMoor ++ [l] } }

/-- The lines of the bytes have joined the lines the pass has written (R56). -/
def counts (offs : List Nat) (c : Core) : Core :=
  { c with pass := { c.pass with lines := dedup (c.pass.lines ++ linesOf offs) } }

/-- The `n` bytes of `v`, the least significant first, at offsets from `x`. -/
def IsBytes (ws : List (Nat × Byte)) (x n : Nat) (v : Nat) : Prop :=
  ws.length = n ∧ ∀ k, k < n → ws[k]? = some (x + k, BitVec.ofNat 8 (v / 2 ^ (8 * k)))

/-- The least significant byte of `v` is the byte of memory at `a`, and so on for `n` bytes; the rest of `v` is 0. -/
def ReadsAs (s : State) (a n : Nat) (v : Word) : Prop :=
  ∀ k, k < 8 → v.extractLsb' (8 * k) 8 = if k < n then memByte s (a + k) else 0

/-- The event goes on to a state with this property. -/
def Goes (i : Instr) (s : State) (ok : State → Prop) : Prop := ∃ t, exec i s = .next t ∧ ok t

/-- The bytes of `ws` stand in memory, the last of those with one address; every other byte reads as before. -/
def Writes (s t : State) (ws : List (Nat × Byte)) : Prop :=
  ∀ a, memByte t a = ((ws.reverse.find? (fun w => w.1 = a)).map (·.2)).getD (memByte s a)

/-- Bytes at offsets of a slice, as bytes of memory. -/
def inSlice (g : Nat) (ws : List (Nat × Byte)) : List (Nat × Byte) := ws.map (fun w => (sliceAddr g w.1, w.2))

/-- Core `g` has taken a fault of this class and subclass: it no longer runs its pass, and FREC0 holds the two (R356). -/
def TakesFault (t : State) (g cls sub : Nat) : Prop :=
  (coreOf t g).run ≠ .running ∧ fieldOf (sysGet (coreOf t g) 0x408) 0 8 = cls ∧ fieldOf (sysGet (coreOf t g) 0x408) 8 8 = sub

/-- A fault with these properties is found at core `g` at place `ph` of this cycle, where the first of those found there is taken
(R355). -/
def Finds (s t : State) (g ph : Nat) (ok : FaultRec → Prop) : Prop :=
  ∃ r, ok r ∧ (coreOf t g).found = (coreOf s g).found ++ [r] ∧ (coreOf t g).run = (coreOf s g).run ∧
    ∃ d ∈ t.agenda, d.clk = clkOf s g ∧ d.cyc = cnow s g ∧ d.ph = ph * 65536 + 0xFFFF ∧ d.ev = .faults g

/-- The instruction finds a fault with these properties at its issue, and its core takes it: nothing else of the core or of memory
has changed before that but the count of its engine operations. -/
def Raises (i : Instr) (s : State) (ok : FaultRec → Prop) : Prop :=
  ∃ r u, exec i s = .next (takeFault u s.cur.g r) ∧ ok r ∧ r.slot = s.cur.slot ∧ r.bundle = s.cur.off ∧ dues u = dues s ∧
    u.mem = s.mem ∧ ∀ h, coreOf u h = if h = s.cur.g then { coreOf s h with pass := (coreOf u h).pass } else coreOf s h

/-- The margins of entry `e` of core `g` are these, in margin format `mk`, and its MST is 1. -/
def MarginsLanded (t : State) (g e mk : Nat) (ms : Margins) : Prop :=
  (∀ w, w < 256 → margWord (coreOf t g) e w = (marginWords mk ms).getD w 0) ∧ dMst (dirEntry (coreOf t g) e) = true

/-- MCHKCNT counts one comparison more (R287). -/
def Compared (s t : State) (g : Nat) : Prop :=
  fieldOf (sysGet (coreOf t g) 0x121) 0 32 = (fieldOf (sysGet (coreOf s g) 0x121) 0 32 + 1) % 2 ^ 32

/-- A correction of core `g` is counted and logged for entry `e`, row `i` and column `n` (R287, R392). -/
def Corrected (s t : State) (g e i n : Nat) : Prop :=
  let k := fieldOf (sysGet (coreOf s g) 0x418) 0 32
  fieldOf (sysGet (coreOf t g) 0x121) 32 16 = (fieldOf (sysGet (coreOf s g) 0x121) 32 16 + 1) % 2 ^ 16 ∧
    fieldOf (sysGet (coreOf t g) 0x418) 0 32 = (k + 1) % 2 ^ 32 ∧
    (e < 64 → fieldOf (sysGet (coreOf t g) (0x410 + k % 8)) 0 6 = e ∧ fieldOf (sysGet (coreOf t g) (0x410 + k % 8)) 6 6 = i ∧
      fieldOf (sysGet (coreOf t g) (0x410 + k % 8)) 12 6 = n)

/-- Element (i, n) of the tile of format `fmt` at offset `base` of core `g`'s slice holds the code `x`, and no other byte of memory
has changed (R118, R389). -/
def ElemRestored (s t : State) (g base fmt i n x : Nat) : Prop :=
  let b := (64 * i + n) * elemWidth fmt
  let a := sliceAddr g (base + b / 8)
  let k := max 1 (elemWidth fmt / 8)
  leNat (memBytes t a k) / 2 ^ (b % 8) % 2 ^ elemWidth fmt = x % 2 ^ elemWidth fmt ∧
    (∀ y, (∀ j, j < k → y ≠ a + j) → memByte t y = memByte s y)

/-- The register files and tiles of every core are as before. -/
def SameFiles (s t : State) : Prop := ∀ h,
  (coreOf t h).live.s = (coreOf s h).live.s ∧ (coreOf t h).live.v = (coreOf s h).live.v ∧
  (coreOf t h).live.m = (coreOf s h).live.m ∧ (coreOf t h).live.acc = (coreOf s h).live.acc

/-- The sender of flit `f` is told of it, with this reason (R417): a notice that names its operation is due at the sender at the
scheduled landing at the home plus the way back, one about a commit after the way back, and one across a dead link within the
horizon of the scope. Nothing is told of an operation that was cancelled. -/
def Told (s t : State) (f : Flit) (r : Nat) : Prop := ∀ o, f.ref = some o → ∃ n ∈ t.notes, n.ref = o ∧ n.reason = r ∧
  (clkOf s o.core,
    if pathDead t f.path = true then cnow s o.core + scopeHorizon s o.core (homeScope o.core o.home)
    else if isCommit f = true then cnow s o.core + f.lback
    else max (cnow s o.core) (cnow s o.core + f.land - cnow s f.core + if f.home = o.core then 0 else f.lback),
    .instr (.noticeLanding n.id)) ∈ dues t

/-- A landing of another core at offset `o`, a write or a bank-ALU operation, finds its port free: no other landing has it,
and where landings give way to the core's own accesses, none of those has it (R371, R378, R420). -/
def Free (s : State) (h o : Nat) (alu soft : Bool) : Prop :=
  landingTaken (coreOf s h) (bankOf o) (if alu = true then cnow s h + 2 else cnow s h) = false ∧
  (defers s h soft = true → ownTaken (coreOf s h) (bankOf o) (o / 64) (cnow s h) alu = false)

end Sys2Proof.Machine
end

