-- ==== Sys2Proof/Certificates/Slice0/Obligations.lean ====
section
/-! DEFINITION. The statements for the provers. -/

open Sys2Proof Sys2Proof.Machine

/-- R220, R222 (08): the result of each two-operand scalar instruction, its latency class, and its frame.
A false guard or destination zero leaves nothing to land. -/
def Obligations.ScalarRegisterResults : Prop :=
  ∀ (d a b : RegField) (m : Md) (s : State),
    let x := sVal s a
    let y := sVal s b
    let one (p : Prop) [Decidable p] : Word := if p then 1 else 0
    ScalarLands (.add d a b m) d m 0 1 (x + y) s ∧
    ScalarLands (.sub d a b m) d m 0 1 (x - y) s ∧
    ScalarLands (.mul d a b m) d m 1 3 (BitVec.ofInt 64 (x.toInt * y.toInt)) s ∧
    ScalarLands (.mulh d a b m) d m 1 3 (BitVec.ofInt 64 (x.toInt * y.toInt / 2 ^ 64)) s ∧
    ScalarLands (.mulhn d a b m) d m 1 3 (BitVec.ofNat 64 (x.toNat * y.toNat / 2 ^ 64)) s ∧
    ScalarLands (.minS d a b m) d m 0 1 (if x.toInt ≤ y.toInt then x else y) s ∧
    ScalarLands (.minn d a b m) d m 0 1 (if x.toNat ≤ y.toNat then x else y) s ∧
    ScalarLands (.maxS d a b m) d m 0 1 (if y.toInt ≤ x.toInt then x else y) s ∧
    ScalarLands (.maxn d a b m) d m 0 1 (if y.toNat ≤ x.toNat then x else y) s ∧
    ScalarLands (.slt d a b m) d m 0 1 (one (x.toInt < y.toInt)) s ∧
    ScalarLands (.sltn d a b m) d m 0 1 (one (x.toNat < y.toNat)) s ∧
    ScalarLands (.seq d a b m) d m 0 1 (one (x = y)) s ∧
    ScalarLands (.andS d a b m) d m 0 1 (x &&& y) s ∧
    ScalarLands (.orS d a b m) d m 0 1 (x ||| y) s ∧
    ScalarLands (.xorS d a b m) d m 0 1 (x ^^^ y) s ∧
    ScalarLands (.andn d a b m) d m 0 1 (x &&& ~~~y) s ∧
    ScalarLands (.shl d a b m) d m 0 1 (BitVec.ofNat 64 (x.toNat * 2 ^ (y.toNat % 64))) s ∧
    ScalarLands (.shr d a b m) d m 0 1 (BitVec.ofNat 64 (x.toNat / 2 ^ (y.toNat % 64))) s ∧
    ScalarLands (.sar d a b m) d m 0 1 (BitVec.ofInt 64 (x.toInt / 2 ^ (y.toNat % 64))) s

/-- R223 (08): DIV, DIVN, REM and REMN for every pair of operands, landing after 34 cycles of the divider's pace. -/
def Obligations.DivisionResults : Prop :=
  ∀ (d a b : RegField) (m : Md) (s : State),
    let x := sVal s a
    let y := sVal s b
    ScalarLands (.div d a b m) d m 2 34
      (if y = 0 then BitVec.ofInt 64 (-1)
       else if x.toInt = -2 ^ 63 ∧ y.toInt = -1 then BitVec.ofInt 64 (-2 ^ 63)
       else BitVec.ofInt 64 (x.toInt.tdiv y.toInt)) s ∧
    ScalarLands (.divn d a b m) d m 2 34
      (if y = 0 then BitVec.ofNat 64 (2 ^ 64 - 1) else BitVec.ofNat 64 (x.toNat / y.toNat)) s ∧
    ScalarLands (.rem d a b m) d m 2 34
      (if y = 0 then x
       else if x.toInt = -2 ^ 63 ∧ y.toInt = -1 then 0
       else BitVec.ofInt 64 (x.toInt - x.toInt.tdiv y.toInt * y.toInt)) s ∧
    ScalarLands (.remn d a b m) d m 2 34
      (if y = 0 then x else BitVec.ofNat 64 (x.toNat - x.toNat / y.toNat * y.toNat)) s ∧
    (0 ≤ x.toInt → 0 ≤ x.toInt - x.toInt.tdiv y.toInt * y.toInt) ∧
    (x.toInt ≤ 0 → x.toInt - x.toInt.tdiv y.toInt * y.toInt ≤ 0)

/-- R224 (08): SEL takes a when D is not 0 at its issue, else b; CLZ, CTZ and POPC count; code 0x1B of class S is no
instruction. -/
def Obligations.SelectAndCountResults : Prop :=
  ∀ (d a b : RegField) (m : Md) (s : State),
    let x := sVal s a
    let bits (k : Nat) : Word := BitVec.ofNat 64 k
    ScalarLands (.sel d a b m) d m 0 1 (if sVal s d ≠ 0 then x else sVal s b) s ∧
    (∃ k, ScalarLands (.clz d a m) d m 0 1 (bits k) s ∧ k ≤ 64 ∧ (∀ i, 64 - k ≤ i → i < 64 → x.getLsbD i = false) ∧
      (k < 64 → x.getLsbD (63 - k) = true)) ∧
    (∃ k, ScalarLands (.ctz d a m) d m 0 1 (bits k) s ∧ k ≤ 64 ∧ (∀ i, i < k → x.getLsbD i = false) ∧
      (k < 64 → x.getLsbD k = true)) ∧
    ScalarLands (.popc d a m) d m 0 1 (bits ((List.range 64).filter (fun i => x.getLsbD i)).length) s ∧
    (∀ (w : Nat) (ks : List Nat), (fieldsOf w).cls = 0 → (fieldsOf w).opc = 0x1B → decodeSlot w ks = .error 1)

/-- R225, R226, R229 (08): the immediate forms, LI and AGEN.

R230 (08): LCSET writes a loop counter alone. -/
def Obligations.ScalarImmediateResults : Prop :=
  (∀ (d a b : RegField) (m : Md) (i : Imm) (n : BitVec 2) (s : State),
    let x := sVal s a
    let y : Word := BitVec.ofInt 64 i.toInt
    let one (p : Prop) [Decidable p] : Word := if p then 1 else 0
    ScalarLands (.addi d a i) d none 0 1 (x + y) s ∧
    ScalarLands (.andi d a i) d none 0 1 (x &&& y) s ∧
    ScalarLands (.ori d a i) d none 0 1 (x ||| y) s ∧
    ScalarLands (.xori d a i) d none 0 1 (x ^^^ y) s ∧
    ScalarLands (.shli d a i) d none 0 1 (BitVec.ofNat 64 (x.toNat * 2 ^ (y.toNat % 64))) s ∧
    ScalarLands (.shri d a i) d none 0 1 (BitVec.ofNat 64 (x.toNat / 2 ^ (y.toNat % 64))) s ∧
    ScalarLands (.sari d a i) d none 0 1 (BitVec.ofInt 64 (x.toInt / 2 ^ (y.toNat % 64))) s ∧
    ScalarLands (.slti d a i) d none 0 1 (one (x.toInt < y.toInt)) s ∧
    ScalarLands (.sltni d a i) d none 0 1 (one (x.toNat < y.toNat)) s ∧
    ScalarLands (.li false d i) d none 0 1 y s ∧
    ScalarLands (.li true d i) d none 0 1 (y ^^^ 0x8000000000000000#64) s ∧
    ScalarLands (.agen n d a b m) d m 0 1
      (x + BitVec.ofNat 64 ((lcReg (coreOf s s.cur.g) n.toNat).toNat) * sVal s b) s) ∧
  (∀ (n : BitVec 2) (a : RegField) (i : Imm) (s : State),
    let l : Landing := .lcr n.toNat (BitVec.ofInt 32 ((sVal s a).toInt + i.toInt))
    operandFaults s (.lcset n a i) = [] → Alone s (landCyc s 0 1) l →
    Completes (.lcset n a i) s id [landingDue s (landCyc s 0 1) l])

/-- R59, R61, R231 to R234 (02, 08): what the control slots choose to follow the final bundle, the link of CALL and the
counter of REPEAT, which land when the next mooring bundle issues. Nothing else changes. -/
def Obligations.BranchOutcomes : Prop :=
  ∀ (z : Bool) (d a : RegField) (i : Imm) (n : BitVec 2) (s : State), isControl s.cur.g = false →
    let x := sVal s a
    let taken := decide (x ≠ 0) != z
    let after := s.cur.off + 4 * s.cur.n
    let lc := (lcReg (coreOf s s.cur.g) n.toNat).toNat
    let bound := max 1 (min (2 ^ 32 - 1) (x.toInt + i.toInt))
    (operandFaults s (.br i) = [] → Completes (.br i) s (chooses (.goto i.toInt.toNat)) []) ∧
    (operandFaults s (.brc z a i) = [] → (taken = false → after ≤ 0xFFFC) →
      Completes (.brc z a i) s (chooses (if taken = true then .goto i.toInt.toNat else .seqNext)) []) ∧
    (operandFaults s (.call d i) = [] → after ≤ 0xFFFC →
      Completes (.call d i) s (fun c => if d.toNat < 32 then
          atMooring (.sreg d.toNat (BitVec.ofNat 64 after)) (chooses (.goto i.toInt.toNat) c)
        else chooses (.goto i.toInt.toNat) c) []) ∧
    (operandFaults s (.ret a) = [] → x.toNat < 2 ^ 16 → x.toNat % 4 = 0 →
      Completes (.ret a) s (chooses (.goto x.toNat)) []) ∧
    (operandFaults s (.repeatLoop n a i) = [] → ((lc : Int) + 1 < bound ∨ after ≤ 0xFFFC) →
      Completes (.repeatLoop n a i) s (fun c =>
        if (lc : Int) + 1 < bound then
          chooses (.goto (coreOf s s.cur.g).pass.off) (atMooring (.lcr n.toNat (BitVec.ofNat 32 (lc + 1))) c)
        else chooses .seqNext (atMooring (.lcr n.toNat 0) c)) [])

/-- R227 (08): LDS reads 1, 2, 4 or 8 bytes, the lowest address least significant, zero-extended, at BASE + imm × size.

R228 (08): STS writes the low bytes of D in phase 3 of its issue cycle, at BASE + imm × size; at its issue no byte of
memory changes, and its line is counted (R56). -/
def Obligations.ScalarMemory : Prop :=
  (∀ (z : BitVec 2) (d r : RegField) (i : Imm) (s : State), isControl s.cur.g = false →
    let g := s.cur.g
    let n : Nat := 2 ^ z.toNat
    let x : Int := (sVal s r).toNat + i.toInt * n
    let offs := (List.range n).map (x.toNat + ·)
    operandFaults s (.lds z d r i) = [] → 0 ≤ x → x + n ≤ 2 ^ 21 → x % n = 0 →
    readPortFaults s g (linesOf offs) (cnow s g) false = [] → loadFaults s g offs = [] →
    ∃ v, ReadsAs s (sliceAddr g x.toNat) n v ∧
      ((d.toNat < 32 → Alone s (landCyc s 3 4) (.sreg d.toNat v)) →
        Completes (.lds z d r i) s id (if d.toNat < 32 then [landingDue s (landCyc s 3 4) (.sreg d.toNat v)] else []))) ∧
  (∀ (z : BitVec 2) (d r : RegField) (i : Imm) (s : State), isControl s.cur.g = false →
    let g := s.cur.g
    let n : Nat := 2 ^ z.toNat
    let x : Int := (sVal s r).toNat + i.toInt * n
    let offs := (List.range n).map (x.toNat + ·)
    operandFaults s (.sts z d r i) = [] → 0 ≤ x → x + n ≤ 2 ^ 21 → x % n = 0 →
    writePortFaults s g offs (cnow s g) = [] → budgetFaults s offs = [] →
    ∃ ws, IsBytes ws x.toNat n (sVal s d).toNat ∧
      Completes (.sts z d r i) s (counts offs) [performDue s (.store ws true)])

/-- R339 (12): LDS and STS of a control core read and write its private memory, which no other unit has, a store at once (assumption
log 45, the model's reading: a control core's accesses take effect at once).

R339 (12): SYSRD and SYSWR of a control core name an address: the system space is read and written at once, main memory
too, with the latency of class 0 (assumption log 45, the model's reading), and an access to a scratchpad joins that core's queue of
the service window (R97). -/
def Obligations.ControlCores : Prop :=
  (∀ (z : BitVec 2) (d r : RegField) (i : Imm) (s : State), isControl s.cur.g = true →
    let g := s.cur.g
    let n : Nat := 2 ^ z.toNat
    let x : Int := (sVal s r).toNat + i.toInt * n
    0 ≤ x → x + n ≤ 2 ^ 20 → x % n = 0 →
    (operandFaults s (.lds z d r i) = [] → ∃ v, ReadsAs s (privAddr g x.toNat) n v ∧
      ((d.toNat < 32 → Alone s (landCyc s 3 4) (.sreg d.toNat v)) →
        Completes (.lds z d r i) s id (if d.toNat < 32 then [landingDue s (landCyc s 3 4) (.sreg d.toNat v)] else []))) ∧
    (operandFaults s (.sts z d r i) = [] →
      ∃ t, exec (.sts z d r i) s = .next t ∧ t = { s with mem := t.mem } ∧
        (∀ k, k < n → memByte t (privAddr g (x.toNat + k)) = BitVec.ofNat 8 ((sVal s d).toNat / 2 ^ (8 * k))) ∧
        ∀ a, (∀ k, k < n → a ≠ privAddr g (x.toNat + k)) → memByte t a = memByte s a)) ∧
  (∀ (d a : RegField) (i : Imm) (s : State), isControl s.cur.g = true →
    let g := s.cur.g
    let x := (sVal s a + BitVec.ofInt 64 i.toInt).toNat
    let far := g / 512 * 512 + x / 2 ^ 30 % 512
    let home := x / 2 ^ 30
    let lands (v : Word) : Prop := (d.toNat < 32 → Alone s (landCyc s 0 1) (.sreg d.toNat v)) →
      Completes (.sysrd d a i) s id (if d.toNat < 32 then [landingDue s (landCyc s 0 1) (.sreg d.toNat v)] else [])
    let queues (ins : Instr) (q : Svc) : Prop := ∃ t, exec ins s = .next t ∧ (coreOf t home).svc = (coreOf s home).svc ++ [q] ∧
      (coreOf t home).live = (coreOf s home).live ∧ (∀ h, h ≠ home → coreOf t h = coreOf s h) ∧ dues t = dues s ∧
      ∀ y, memByte t y = memByte s y
    controlAddr s g x = true →
    (operandFaults s (.sysrd d a i) = [] →
      (spaceOf x = 7 → lands (systemRead s far (x / 8 % 2 ^ 27))) ∧
      (spaceOf x = 1 → ∃ v, ReadsAs s x 8 v ∧ lands v) ∧
      (spaceOf x = 0 → queues (.sysrd d a i) (.read (x % 2 ^ 30) g d.toNat))) ∧
    (operandFaults s (.syswr d a i) = [] →
      (spaceOf x = 7 → ∃ t, exec (.syswr d a i) s = .next t ∧
        dues t = dues (systemWrite s far (x / 8 % 2 ^ 27) (sVal s d)) ∧
        ∀ h n, sysGet (coreOf t h) n = sysGet (coreOf (systemWrite s far (x / 8 % 2 ^ 27) (sVal s d)) h) n) ∧
      (spaceOf x = 1 → ∃ t, exec (.syswr d a i) s = .next t ∧ dues t = dues s ∧ t.cores = s.cores ∧
        (∀ k, k < 8 → memByte t (x + k) = BitVec.ofNat 8 ((sVal s d).toNat / 2 ^ (8 * k))) ∧
        ∀ y, (∀ k, k < 8 → y ≠ x + k) → memByte t y = memByte s y) ∧
      (spaceOf x = 0 → queues (.syswr d a i)
        (.write (x % 2 ^ 30) ((List.range 8).map (fun k => BitVec.ofNat 8 ((sVal s d).toNat / 2 ^ (8 * k)))) (ctxTag s home) false))))

/-- R56, R161, R177, R360 (02, 05, 06, 15): a store's bytes are in memory after its phase 3, the last of those that name one
byte standing, and no other byte of the machine's memory changes; its lines have their owner tag, and each has an entry in
the undo log with the bytes it held when the pass first wrote it. With an injector of R405 armed a written word may take a
flipped bit, so none is. -/
def Obligations.StoreTakesPlace : Prop :=
  ∀ (g : Nat) (ws : List (Nat × Byte)) (clear : Bool) (own : Option Src) (s : State), anyArmed (coreOf s g) = false →
    let t := performNow s g own (.store ws clear)
    (∀ a, memByte t a = match (ws.filter (fun w => sliceAddr g w.1 = a)).getLast? with
      | some w => w.2
      | none => memByte s a) ∧
    (∀ w ∈ ws, tagOf t (sliceAddr g w.1) = ctxTag s g) ∧
    (∀ w ∈ ws, ∃ u ∈ (coreOf t g).pass.undo, u.off = w.1 / 64 * 64 ∧
      ((coreOf s g).pass.undo.any (fun u => u.off = w.1 / 64 * 64) = false →
        ∀ j, j < 64 → u.bytes.extractLsb' (8 * j) 8 = memByte s (sliceAddr g (u.off + j)))) ∧
    (coreOf t g).live.s = (coreOf s g).live.s ∧ (coreOf t g).live.v = (coreOf s g).live.v

/-- R51, R54, R55, R57 (02): a mooring bundle begins a pass. What waited for it lands; the new pass counts from this cycle;
the shadow takes the registers, and in a handler the second shadow does (R368); the commit flits of the pass that ended
depart (R172); a slip is looked for C cycles on (R376). No byte of memory changes, and no other core. -/
def Obligations.MoorBeginsPass : Prop :=
  ∀ (o : BitVec 19) (c sigl : BitVec 28) (sigh : BitVec 4) (budget : BitVec 9) (safe : Bool) (s : State),
    let g := s.cur.g
    let old := (coreOf s g).pass
    let now := cnow s g
    (old.id.serial = 0 ∨ old.next = some .haltUnit ∨ (passCount old now = old.c ∧ crcFinal old.crc = old.sig)) →
    ∃ t, exec (.moor o c sigl sigh budget safe) s = .next t ∧
      let k := coreOf t g
      let from_ := old.atMoor.foldl landCore (coreOf s g)
      (k.pass.id.core = g ∧ k.pass.id.vid = from_.vid ∧ k.pass.id.seg = o.toNat) ∧
      (k.pass.off = s.cur.off ∧ k.pass.m = now ∧ k.pass.held = 0 ∧ k.pass.c = c.toNat ∧ k.pass.sig = sigh ++ sigl ∧
        k.pass.budget = budget.toNat ∧ k.pass.safe = safe) ∧
      (k.pass.next = none ∧ k.pass.lines = [] ∧ k.pass.undo = [] ∧ k.pass.homes = [] ∧ k.pass.atMoor = []) ∧
      k.live = from_.live ∧
      (let kept : Live := { from_.live with bad := from_.live.bad.filter (fun e => e.2 = 1000) }
       if inhibited from_ = true then k.shadow2 = kept ∧ k.shadow = from_.shadow else k.shadow = kept ∧ k.shadow2 = from_.shadow2) ∧
      (clkOf s g, now + c.toNat, .instr (.cycslip g)) ∈ dues t ∧
      (old.id.serial ≠ 0 → ∀ h ∈ old.homes, ∃ f ∈ t.flits, f.home = h.home ∧ f.load = .commit old.id h.nrec ∧ f.dep = now ∧
        f.land = now + h.lout ∧ (clkOf s g, now, .instr (.linkFlit f.id 0)) ∈ dues t) ∧
      (∀ h, h ≠ g → coreOf t h = coreOf s h) ∧ ∀ a, memByte t a = memByte s a

/-- R64, R236 to R240 (02, 08): an RDV of any kind takes its operands and its core arrives in phase 3 of its cycle; until
then nothing changes.

R62, R64 (02): a core that arrives at a rendezvous no member has reached opens an instance and is held there; a plain
one that it completes is released at the first cycle the pace allows after the arrival and the rendezvous cost. -/
def Obligations.RendezvousArrival : Prop :=
  (∀ (sc : BitVec 3) (n a b : RegField) (s : State),
    let arrive (kind : Nat) (group : Nat) (x y : Word) := performDue s (.arrive kind group sc.toNat s.cur.off x y)
    (rdvFaults s (.rdvPlain sc n) 0 n.toNat sc.toNat 0 = [] →
      Completes (.rdvPlain sc n) s id [arrive 0 n.toNat 0 0]) ∧
    (rdvFaults s (.rdvBar sc n a b) 1 n.toNat sc.toNat (sVal s a) = [] →
      Completes (.rdvBar sc n a b) s id [arrive 1 n.toNat (sVal s a) (sVal s b)]) ∧
    (rdvFaults s (.rdvWm sc n a b) 2 n.toNat sc.toNat (sVal s a) = [] →
      Completes (.rdvWm sc n a b) s id [arrive 2 n.toNat (sVal s a) (sVal s b)]) ∧
    (rdvFaults s (.rdvCmt sc n a b) 3 n.toNat sc.toNat (sVal s a) = [] →
      Completes (.rdvCmt sc n a b) s id [arrive 3 n.toNat (sVal s a) (sVal s b)]) ∧
    (inhibited (coreOf s s.cur.g) = false →
      Completes (.rdvLp sc) s id [arrive 4 64 0 0])) ∧
  (∀ (g kind group scope off : Nat) (a b : Word) (own : Option Src) (s : State) (ms : List Nat),
    kind < 4 → groupMembers s g group = some ms → g ∈ ms → openRdv s (rdvPart s g ms) group ms = none →
    s.rdvs.all (fun r => decide (r.id < s.seq)) = true →
    let t := performNow s g own (.arrive kind group scope off a b)
    (coreOf t g).run = .held s.seq (cnow s g) ∧
    (∃ r ∈ t.rdvs, r.id = s.seq ∧ r.part = rdvPart s g ms ∧ r.kind = kind ∧ r.group = group ∧ r.scope = scope ∧
      r.members = ms ∧ r.arrivals = [(g, cnow s g, kind * 8 + scope)]) ∧
    (kind = 0 → ms = [g] → rdvFailed s ⟨s.seq, rdvPart s g ms, 0, group, scope, ms, [], 0, 0, none, 0, false⟩ = false →
      (some (rdvPart s g ms), paceUp (max 1 (corePace s g)) (cnow s g + rdvCost s g scope),
        .instr (.rendezvousRelease s.seq)) ∈ dues t) ∧
    (∀ h, h ≠ g → coreOf t h = coreOf s h) ∧ ∀ x, memByte t x = memByte s x)

/-- R46, R47, R71, R235 (02, 08): HALT, with nothing outstanding and its pass ended as declared, ends the unit: DONE rises in
its cycle, the launch counts it where nothing of the core lands later, and the clear follows in phase 3.

R47 (02): the clear of HALT leaves every scalar, vector and mask register, latch, loop counter, accumulator and margin
of the accumulators zero, the directory without a valid entry, the Chamois generator unseeded and the stage counter 0.

R46, R71 (02): what the later effects of HALT are. The rise of DONE counts the unit for its launch, in its cycle. The end of the
berth list takes the core out of the launch when no unit is left and nothing of it lands later; with the last core the queue entry is
done, or cancelled.

R46, R47, R74, R442 (02, 18): the clear of HALT takes place in phase 3 of its cycle. With a unit left in the berth list the core
then has its VID and the image's entry, and its next bundle issues in the next cycle its pace allows, or, where it is a stopped unit
that is resumed, the registers and the offset of its record. With none the core's commits depart in the next cycle, and it is idle
after its last landing. -/
def Obligations.HaltEndsTheUnit : Prop :=
  (∀ s : State,
    let g := s.cur.g
    let c := coreOf s g
    inhibited c = false → c.live.red = [] →
    (∀ l ∈ c.lands, l.2.2 = true → l.2.1 ≤ cnow s g) →
    (c.pass.id.serial = 0 ∨ (passCount c.pass (cnow s g + corePace s g) = c.pass.c ∧ crcFinal c.pass.crc = c.pass.sig)) →
    Completes .halt s (chooses .haltUnit) [performDue s .doneRise, performDue s .berthEnd, performDue s .haltClear]) ∧
  (∀ c : Core, anyArmed c = false →
    let k := clearUnit c
    (∀ n, sReg k n = 0 ∧ vReg k n = 0 ∧ mReg k n = 0 ∧ holdReg k n = 0 ∧ lcReg k n = 0) ∧
    (∀ t i j, accCell k t i j = 0) ∧ (∀ e w, e < 8 → w < 256 → margWord k e w = 0) ∧
    (∀ e, e < 8 → dirEntry k e = dirDefault e) ∧ (∀ e, 8 ≤ e → dValid (dirEntry k e) = false) ∧
    k.live.rnd = ⟨0, 0, [], false⟩ ∧ k.live.stage = 0 ∧ k.live.red = [] ∧
    k.code = c.code ∧ k.codeValid = c.codeValid ∧ k.sys = c.sys) ∧
  (∀ (g : Nat) (own : Option Src) (s : State) (p e : Nat) (l : Launch),
    let c := coreOf s g
    partOfCore s g = some p → c.entry = some e → launchOf s g = some l →
    (let t := performNow s g own .doneRise
     t = setPart s p { partOf s p with launches := (partOf s p).launches.map (fun l =>
       if l.entry = e then { l with done := l.done + 1, finished := l.finished ++ [c.vid] } else l) }) ∧
    (c.berth ≠ [] ∨ (∃ d ∈ c.lands, cnow s g < d.2.1) → performNow s g own .berthEnd = s) ∧
    (c.berth = [] → (∀ d ∈ c.lands, d.2.1 ≤ cnow s g) →
      let t := performNow s g own .berthEnd
      (partOf t p).launches = (partOf s p).launches.map (fun x =>
        if x.entry = l.entry then { x with cores := l.cores.filter (· ≠ g) } else x) ∧
      (l.cores = [g] → l.stopped = [] →
        queueEntry (partOf t p) l.entry = qSet (queueEntry (partOf s p) l.entry) 59 3 (if l.canc = true then 4 else 3)) ∧
      t.cores = s.cores ∧ t.agenda = s.agenda ∧ ∀ a, memByte t a = memByte s a)) ∧
  (∀ (g : Nat) (own : Option Src) (s : State),
    let c := coreOf s g
    let t := performNow s g own .haltClear
    let k := coreOf t g
    (∀ v rest, c.berth = v :: rest → k.vid = v ∧ k.berth = rest ∧ k.run = c.run ∧
      (clkOf s g, paceUp (corePace s g) (cnow s g + 1), .issue g) ∈ dues t ∧
      (c.resume.find? (fun u => u.1.vid = v) = none →
        k.pc = c.entryOff ∧ k.live = (clearUnit c).live ∧ redoOf k = 0 ∧ ∀ a, memByte t a = memByte s a) ∧
      (∀ u o, c.resume.find? (fun u => u.1.vid = v) = some (u, o) → k.pc = o ∧ k.live.s = u.s ∧ k.live.lc = u.lc)) ∧
    (c.berth = [] → k.run = .ending ∧ k.pass = Pass.none ∧ k.live = (clearUnit c).live ∧ redoOf k = 0 ∧
      (∀ h ∈ c.pass.homes, ∃ f ∈ t.flits, f.home = h.home ∧ f.load = .commit c.pass.id h.nrec ∧ f.dep = cnow s g + 1) ∧
      (∃ l, cnow s g ≤ l ∧ (∀ d ∈ c.lands, d.2.1 ≤ l) ∧ (clkOf s g, l + 1, .instr (.coreIdle g)) ∈ dues t ∧
        (cnow s g < l → (clkOf s g, l, .perform g .berthEnd) ∈ dues t)) ∧
      ∀ a, memByte t a = memByte s a))

/-- R242 (08): TRAP with a condition that does not hold has no effect.

R242, R356, R361, R367 (08, 15): TRAP whose condition holds takes the exception: the record has class 0x01, the
slot, the bundle and DETAIL imm mod 2^16; ROLLS rises; the core is rolling back; the undo begins in the next cycle; and
with TRAPENT enabled and REDO within REDOMAX the handler is entered at the first cycle the pace allows from d + 8 + k. That the
record is written in d, and that REDO rises and the entry is due whatever the handler's first word is, is assumption log 26, the
model's reading.

R242, R373, R422 (08, 15, 17): a TRAP that is taken with TRAPENT disabled, in a handler, or with REDO past REDOMAX stops the core:
the record is written and the undo follows, STOP is set, no handler's entry is due, the core joins the failed peers of its partition,
and the partition is to freeze for it. -/
def Obligations.Traps : Prop :=
  (∀ (z : Bool) (a : RegField) (i : Imm) (s : State),
    (decide (sVal s a ≠ 0) != z) = false → operandFaults s (.trap z a i) = [] → Completes (.trap z a i) s id []) ∧
  (∀ (z : Bool) (a : RegField) (i : Imm) (s : State),
    let g := s.cur.g
    let c := coreOf s g
    let d := cnow s g
    (decide (sVal s a ≠ 0) != z) = true → operandFaults s (.trap z a i) = [] → c.run = .running →
    inhibited c = false → trapEnabled c = true → redoOf c ≤ redoMax c →
    ∃ t, exec (.trap z a i) s = .next t ∧
      let k := coreOf t g
      k.run = .rolling ∧
      sysGet k 0x408 = BitVec.ofNat 64 (1 + s.cur.slot * 2 ^ 16 + g % 512 * 2 ^ 24 + g / 512 * 2 ^ 33 + c.vid * 2 ^ 48) ∧
      sysGet k 0x409 = BitVec.ofNat 64 (c.pass.id.seg + s.cur.off % 2 ^ 16 * 2 ^ 32 + 0xFFFF * 2 ^ 48) ∧
      sysGet k 0x40E = BitVec.ofNat 64 d ∧ sysGet k 0x40F = BitVec.ofInt 64 (i.toInt % 2 ^ 16) ∧
      fieldOf (sysGet k 0x402) 0 32 = (fieldOf (sysGet c 0x402) 0 32 + 1) % 2 ^ 32 ∧
      redoOf k = redoOf c + 1 ∧
      (clkOf s g, d + 1, .instr (.undoWriteback g)) ∈ dues t ∧
      (clkOf s g, paceUp (corePace s g) (d + 8 + c.pass.undo.length), .instr (.handlerEntry g)) ∈ dues t ∧
      (∀ e ∈ dues t, e.2.2 ≠ .issue g) ∧
      k.live = c.live ∧ k.shadow = c.shadow ∧ (∀ h, h ≠ g → coreOf t h = coreOf s h) ∧ ∀ x, memByte t x = memByte s x) ∧
  (∀ (z : Bool) (a : RegField) (i : Imm) (s : State),
    let g := s.cur.g
    let c := coreOf s g
    (decide (sVal s a ≠ 0) != z) = true → operandFaults s (.trap z a i) = [] → c.run = .running →
    trapEnabled c = false ∨ inhibited c = true ∨ redoMax c < redoOf c →
    ∃ t, exec (.trap z a i) s = .next t ∧
      let k := coreOf t g
      k.run = .stopped ∧ fieldOf (sysGet k 0x401) 1 1 = 1 ∧ fieldOf (sysGet k 0x408) 0 8 = 1 ∧
      sysGet k 0x40E = BitVec.ofNat 64 (cnow s g) ∧ redoOf k = redoOf c ∧
      (clkOf s g, cnow s g + 1, .instr (.undoWriteback g)) ∈ dues t ∧
      (∀ e ∈ dues t, e.2.2 = .instr (.handlerEntry g) → e ∈ dues s) ∧ (∀ e ∈ dues t, e.2.2 ≠ .issue g) ∧
      (∀ p, partOfCore s g = some p → Peer.core g ∈ (partOf t p).failed ∧
        (3 ≤ (partOf s p).state → (partOf t p).reasons.getLsbD 2 = true)) ∧
      k.live = c.live ∧ ∀ x, memByte t x = memByte s x)

/-- R361 (15): each cycle of the undo writes back the last entry of the log, all 64 bytes; with none left the registers of
the pass's entry return.

R367, R368 (15): the handler's entry sets INH, and the core's next bundle issues at the handler's offset in this cycle,
outside any pass; with no valid code there the core stops (R373; that it stops at this entry is assumption log 26, the model's
reading). -/
def Obligations.UndoAndHandlerEntry : Prop :=
  (∀ (g : Nat) (s : State),
    let c := coreOf s g
    (∀ u l, c.pass.undo = l ++ [u] → u.off % 64 = 0 → (c.zone = [] ∧ c.bases = []) →
      ∃ t, exec (.undoWriteback g) s = .next t ∧ (coreOf t g).pass.undo = l ∧
        (∀ j, j < 64 → memByte t (sliceAddr g (u.off + j)) = u.bytes.extractLsb' (8 * j) 8) ∧
        (∀ a, (∀ j, j < 64 → a ≠ sliceAddr g (u.off + j)) → memByte t a = memByte s a) ∧
        (clkOf s g, cnow s g + 1, .instr (.undoWriteback g)) ∈ dues t) ∧
    (c.pass.undo = [] →
      ∃ t, exec (.undoWriteback g) s = .next t ∧ (coreOf t g).live = (if inhibited c = true then c.shadow2 else c.shadow) ∧
        dues t = dues s ∧ (∀ h, h ≠ g → coreOf t h = coreOf s h) ∧ ∀ x, memByte t x = memByte s x)) ∧
  (∀ (g : Nat) (s : State),
    let o := handlerOff (coreOf s g)
    ∃ t, exec (.handlerEntry g) s = .next t ∧
      let k := coreOf t g
      inhibited k = true ∧ k.pc = o ∧ k.pass = Pass.none ∧ k.live = (coreOf s g).live ∧
      (tabGet (fun _ => false) (coreOf s g).codeValid (o / 4) = true →
        k.run = .running ∧ dues t = dues s ++ [(clkOf s g, cnow s g, .issue g)] ∧ ∀ h, h ≠ g → coreOf t h = coreOf s h) ∧
      (tabGet (fun _ => false) (coreOf s g).codeValid (o / 4) = false → k.run = .stopped) ∧
      ∀ x, memByte t x = memByte s x)

/-- R368 to R370 (15): RETT and RESYNC in a handler end it, in phase 3 (assumption log 26, the model's reading): INH clears and the
faulted pass's registers return, and the core re-enters the faulted segment, RESYNC at a multiple of a tide from that segment's start.
Outside a handler they raise OPERAND 7.

R355, R365, R369 to R371, R461 (15): at the re-entry the core waits on for a table service it asked for, or takes a fault that was
held or a slip of the handler's last pass (assumption log 44 and 56, the model's choices), or runs the faulted segment again from its
mooring bundle as a recovery run, the pass of the handler committing (log 26). A deferred landing is written in the first cycle whose
port is free, and waits one more cycle otherwise. -/
def Obligations.LeavingAHandler : Prop :=
  (∀ (s : State) (rl : Roll) (resync : Bool),
    let g := s.cur.g
    let i : Instr := if resync = true then .resync else .rett
    let next : Next := .handlerEnd resync
    (inhibited (coreOf s g) = true → Completes i s (chooses next) [performDue s (.leave resync)]) ∧
    (inhibited (coreOf s g) = false → ∃ r, exec i s = .next (takeFault (noteFaults s [r]) g r) ∧ r.cls = 0x0A ∧ r.sub = 7) ∧
    ((coreOf s g).roll = some rl →
      let t := performNow s g none (.leave resync)
      let lo := max (cnow s g + 1) (rl.d + bigHorizon s g)
      inhibited (coreOf t g) = false ∧ (coreOf t g).live = (coreOf s g).shadow ∧
      (coreOf t g).run = .reenter resync (cnow s g) ∧
      ∃ r, (clkOf s g, r, .instr (.segmentReentry g)) ∈ dues t ∧ lo ≤ r ∧
        (resync = true → r < lo + 4096 ∧ r % 4096 = rl.pass.m % 4096) ∧
        (resync = false → r = paceUp (corePace s g) lo))) ∧
  (∀ (g : Nat) (s : State),
    let c := coreOf s g
    (∀ resync a rl, c.run = .reenter resync a → c.roll = some rl →
      (fieldOf (sysGet c 0x451) 0 1 = 1 → Goes (.segmentReentry g) s (fun t => t.cores = s.cores ∧ t.mem = s.mem ∧
        (clkOf s g, (if resync = true then cnow s g + 4096 else paceUp (corePace s g) (cnow s g + 1)),
          .instr (.segmentReentry g)) ∈ dues t)) ∧
      (fieldOf (sysGet c 0x451) 0 1 = 0 → ∀ f, firstFault (c.heldFaults ++ handlerSlips s g c.pass a rl.pass.off) = some f →
        f.cls < 2 ^ 8 → Goes (.segmentReentry g) s (fun t => TakesFault t g f.cls (f.sub % 2 ^ 8) ∧ Writes s t [])) ∧
      (fieldOf (sysGet c 0x451) 0 1 = 0 → c.heldFaults = [] → handlerSlips s g c.pass a rl.pass.off = [] → Goes (.segmentReentry g) s (fun t =>
        (coreOf t g).run = .running ∧ (coreOf t g).pc = rl.pass.off ∧ (coreOf t g).roll = none ∧ (coreOf t g).recovery = true ∧
        (coreOf t g).pass = redonePass rl ∧ (coreOf t g).live = c.live ∧ (clkOf s g, cnow s g, .issue g) ∈ dues t ∧
        (c.pass.id.serial ≠ 0 → ∀ h ∈ c.pass.homes, ∃ f ∈ t.flits, f.home = h.home ∧ f.load = .commit c.pass.id h.nrec) ∧
        (∀ h, h ≠ g → coreOf t h = coreOf s h) ∧ Writes s t []))) ∧
    ((∀ resync a, c.run ≠ .reenter resync a) → exec (.segmentReentry g) s = .next s) ∧
    (∀ a op k x bs bad, c.deferred = [(a, .pieceTransfer op k false)] → xferOf s op = some x → x.g = g → x.cancelled = false →
      pieceData x k = some (bs, bad) → anyArmed c = false →
      let o := pieceOff x k
      let taken := ownTaken c (bankOf o) (o / 64) (cnow s g) false || landingTaken c (bankOf o) (cnow s g)
      (taken = false → Goes (.deferredLanding g) s (fun t => SameFiles s t ∧ (coreOf t g).deferred = [] ∧
        (coreOf t g).deferEnd = max c.deferEnd (cnow s g) ∧
        Writes s t (inSlice g (maskedBytes x o bs)))) ∧
      (taken = true → Goes (.deferredLanding g) s (fun t => SameFiles s t ∧ Writes s t [] ∧
        (coreOf t g).deferred = c.deferred ∧ (clkOf s g, cnow s g + 1, .instr (.deferredLanding g)) ∈ dues t))))

/-- R249, R255, R256 (09): the result of the element-wise arithmetic, shifts and logic in each lane: an integer result modulo
2^w or saturated, a floating one rounded once from the exact value (R113). It lands in the lanes the mask enables. -/
def Obligations.VectorArithmeticResults : Prop :=
  ∀ (f : BitVec 3) (d a b : RegField) (h : Bool) (m : Md) (s : State),
    let res (i : Instr) (cls n : Nat) (r : Nat → Nat) : Prop :=
      VecLands i h a m cls n (.vreg d.toNat (laneMask s m) (ofLanes r)) s
    let F := laneFmt false f
    let N := laneFmt true f
    let w := fmtWidth F
    let x := laneIn F (vVal s a)
    let y := laneIn F (vVal s b)
    let z := laneIn F (vVal s d)
    let pick (flt : Nat → Nat) (int : Nat → Int) (i : Nat) : Nat := if fmtIsInt F = true then wrapInt w (int i) else flt i
    let cls := if f = 0 then 6 else if f = 1 ∨ f = 2 then 5 else 4
    let lat := if f = 0 then 4 else if f = 1 ∨ f = 2 then 3 else 2
    res (.vadd f d a b h m) cls lat (pick (fun i => roundNE (addV (valOf F (x i)) (valOf F (y i))) F)
      (fun i => intVal F (x i) + intVal F (y i))) ∧
    res (.vsub f d a b h m) cls lat (pick (fun i => roundNE (addV (valOf F (x i)) (negV (valOf F (y i)))) F)
      (fun i => intVal F (x i) - intVal F (y i))) ∧
    res (.vmul f d a b h m) cls lat (pick (fun i => roundNE (mulV (valOf F (x i)) (valOf F (y i))) F)
      (fun i => intVal F (x i) * intVal F (y i))) ∧
    res (.vfma f d a b h m) cls lat (pick (fun i => roundNE (addV (mulV (valOf F (x i)) (valOf F (y i))) (valOf F (z i))) F)
      (fun i => intVal F (z i) + intVal F (x i) * intVal F (y i))) ∧
    res (.vfms f d a b h m) cls lat
      (pick (fun i => roundNE (addV (negV (mulV (valOf F (x i)) (valOf F (y i)))) (valOf F (z i))) F)
        (fun i => intVal F (z i) - intVal F (x i) * intVal F (y i))) ∧
    res (.vmin f d a b h m) cls lat (pick (fun i => fminC F (x i) (y i)) (fun i => min (intVal F (x i)) (intVal F (y i)))) ∧
    res (.vmax f d a b h m) cls lat (pick (fun i => fmaxC F (x i) (y i)) (fun i => max (intVal F (x i)) (intVal F (y i)))) ∧
    res (.vminn f d a b h m) 4 2 (fun i => if fmtIsInt N = true then min (laneIn N (vVal s a) i) (laneIn N (vVal s b) i)
      else fminC N (laneIn N (vVal s a) i) (laneIn N (vVal s b) i)) ∧
    res (.vmaxn f d a b h m) 4 2 (fun i => if fmtIsInt N = true then max (laneIn N (vVal s a) i) (laneIn N (vVal s b) i)
      else fmaxC N (laneIn N (vVal s a) i) (laneIn N (vVal s b) i)) ∧
    res (.vabs f d a h m) 4 2 (pick (fun i => if isNaN (valOf F (x i)) = true then defaultNaN F else x i % 2 ^ (w - 1))
      (fun i => (intVal F (x i)).natAbs)) ∧
    res (.vneg f d a h m) 4 2 (pick (fun i => if isNaN (valOf F (x i)) = true then defaultNaN F
      else x i ^^^ 2 ^ (w - 1)) (fun i => -intVal F (x i))) ∧
    (3 ≤ f.toNat →
      res (.vadds f d a b h m) 4 2 (fun i => wrapInt w (max (-2 ^ (w - 1)) (min (2 ^ (w - 1) - 1) (intVal F (x i) + intVal F (y i))))) ∧
      res (.vsubs f d a b h m) 4 2 (fun i => wrapInt w (max (-2 ^ (w - 1)) (min (2 ^ (w - 1) - 1) (intVal F (x i) - intVal F (y i))))) ∧
      res (.vaddsn f d a b h m) 4 2 (fun i => min (2 ^ w - 1) (x i + y i)) ∧
      res (.vsubsn f d a b h m) 4 2 (fun i => x i - y i) ∧
      res (.vmulh f d a b h m) 4 2 (fun i => wrapInt w (intVal F (x i) * intVal F (y i) / 2 ^ w)) ∧
      res (.vmulhn f d a b h m) 4 2 (fun i => x i * y i / 2 ^ w) ∧
      res (.vshl f d a b h m) 4 2 (fun i => x i * 2 ^ (y i % w) % 2 ^ w) ∧
      res (.vshr f d a b h m) 4 2 (fun i => x i / 2 ^ (y i % w)) ∧
      res (.vsar f d a b h m) 4 2 (fun i => wrapInt w (intVal F (x i) / 2 ^ (y i % w)))) ∧
    res (.vand d a b h m) 4 2 (fun i => lane (vVal s a) i &&& lane (vVal s b) i) ∧
    res (.vor d a b h m) 4 2 (fun i => lane (vVal s a) i ||| lane (vVal s b) i) ∧
    res (.vxor d a b h m) 4 2 (fun i => lane (vVal s a) i ^^^ lane (vVal s b) i) ∧
    res (.vandn d a b h m) 4 2 (fun i => lane (vVal s a) i &&& (2 ^ 32 - 1 - lane (vVal s b) i)) ∧
    res (.vmov d a h m) 4 2 (lane (vVal s a))

/-- R258, R262 to R264 (09): selection, lane movement, broadcasts, insertion and packing. VLANE's result is scalar. -/
def Obligations.LaneMovementResults : Prop :=
  ∀ (f : BitVec 3) (w : Bool) (mode : BitVec 2) (im : Imm) (d a b : RegField) (h : Bool) (m : Md) (s : State),
    let land (i : Instr) (h : Bool) (m : Md) (l : Word) (x : VReg) : Prop := VecLands i h a m 8 3 (.vreg d.toNat l x) s
    let all := laneMask s m
    let x := lane (vVal s a)
    let y := lane (vVal s b)
    let both (i : Nat) : Nat := if i < 64 then x i else y (i - 64)
    let u := if w = true then 8 else 16
    VecLands (.vsel f d a b h m) h a m 4 2 (.vreg d.toNat all
      (ofLanes (fun i => if (mReg (coreOf s s.cur.g) f.toNat).getLsbD i = true then x i else y i))) s ∧
    land (.vperm d a b h m) h m all (ofLanes (fun i => x (y i % 64))) ∧
    land (.vshuf 0 d a b h m) h m all (ofLanes (fun i => if i % 2 = 0 then x (i / 2) else y (i / 2))) ∧
    land (.vshuf 1 d a b h m) h m all (ofLanes (fun i => if i % 2 = 0 then x (32 + i / 2) else y (32 + i / 2))) ∧
    land (.vshuf 2 d a b h m) h m all (ofLanes (fun i => both (2 * i))) ∧
    land (.vshuf 3 d a b h m) h m all (ofLanes (fun i => both (2 * i + 1))) ∧
    land (.vshuf 4 d a b h m) h m all (ofLanes (fun i => x (63 - i))) ∧
    land (.vext d a b h m) h m all (ofLanes (fun i => both (i + xfOf m % 64))) ∧
    land (.vbcast d a b h m) h m all (ofLanes (fun _ => x ((sVal s b).toNat % 64))) ∧
    land (.vsplat f d a im) false none (BitVec.allOnes 64)
      (ofLanes (fun _ => (sVal s a + BitVec.ofInt 64 im.toInt).toNat % 2 ^ fmtWidth (laneFmt false f))) ∧
    land (.vins d a b m) false m (1#64 <<< ((sVal s b).toNat % 64)) (ofLanes (fun _ => (sVal s a).toNat % 2 ^ 32)) ∧
    land (.vpack w d a b h m) h m all
      (ofElems u (fun k => (if k < 1024 / u then elem (2 * u) (vVal s a) k else elem (2 * u) (vVal s b) (k - 1024 / u)) % 2 ^ u)) ∧
    land (.vunpack w d a mode h m) h m all (ofElems (2 * u) (fun k =>
      let e := elem u (vVal s a) (k + mode.toNat % 2 * (1024 / u))
      if 2 ≤ mode.toNat ∧ 2 ^ (u - 1) ≤ e then e + (2 ^ (2 * u) - 2 ^ u) else e)) ∧
    VecLandsScalar (.vlane d a b h m) h a d m 8 3 (BitVec.ofNat 64 (x ((sVal s b).toNat % 64))) s

/-- R257, R259 to R261, R265 (09): comparisons, conversion, the correctly rounded functions, reductions, scans and dot
products. A stochastic VCVT pops the Chamois queue, whatever its guard (R126). VEXP2 and VLOG2 are rounded from the approximation of
assumption log 46, the model's choice. -/
def Obligations.VectorFunctionResults : Prop :=
  ∀ (f cond k op : BitVec 3) (rm : BitVec 2) (d a b : RegField) (h : Bool) (m : Md) (s : State),
    let F := laneFmt false f
    let N := laneFmt true f
    let all := laneMask s m
    let x (G : Fmt) := laneIn G (vVal s a)
    let y (G : Fmt) := laneIn G (vVal s b)
    let src := tileFmt (xfOf m % 16)
    let dst := tileFmt (xfOf m / 16 % 16)
    let res (i : Instr) (cls n : Nat) (r : Nat → Nat) : Prop := VecLands i h a m cls n (.vreg d.toNat all (ofLanes r)) s
    let mask (i : Instr) (r : Nat → Bool) : Prop :=
      ∃ v : Word, (∀ j, j < 64 → v.getLsbD j = r j) ∧ VecLands i h a m 7 2 (.mreg k.toNat all v) s
    let input (i : Nat) : Nat := if all.getLsbD i = true then x F i else redIdentity F op.toNat
    mask (.vcmp f cond k a b h m) (fun i => compareVals cond.toNat (valOf F (x F i)) (valOf F (y F i))) ∧
    mask (.vcmpn f cond k a b h m) (fun i => compareVals cond.toNat (valOf N (x N i)) (valOf N (y N i))) ∧
    (rm ≠ 2 → res (.vcvt rm d a h m) 7 3 (fun i => convert src dst (x src i) rm.toNat 0)) ∧
    (let l : Landing := .vreg d.toNat all (ofLanes (fun i => convert src dst (x src i) 2
        (laneBits ((coreOf s s.cur.g).live.rnd.queue.headD 0) i)))
     (coreOf s s.cur.g).live.rnd.queue ≠ [] →
     vecFaults s (.vcvt 2 d a h m) ++ landFaults s s.cur.g (landCyc s 7 3) l = [] →
     (guardMd s m = true → Alone s (landCyc s 7 3) l) →
     Completes (.vcvt 2 d a h m) s
       (fun c => { c with live := { c.live with rnd := { c.live.rnd with queue := c.live.rnd.queue.tail } } })
       (vecDues s h a m (landCyc s 7 3) l)) ∧
    res (.vrcp f d a h m) 11 18 (fun i => roundNE (rcpV (valOf F (x F i))) F) ∧
    res (.vrsq f d a h m) 11 18 (fun i => roundNE (rsqV (valOf F (x F i))) F) ∧
    res (.vsqrt f d a h m) 11 18 (fun i => roundNE (sqrtV (valOf F (x F i))) F) ∧
    res (.vdiv f d a b h m) 11 18 (fun i => roundNE (divV (valOf F (x F i)) (valOf F (y F i))) F) ∧
    res (.vexp2 f d a h m) 12 14 (fun i => roundNE (exp2V (valOf F (x F i))) F) ∧
    res (.vlog2 f d a h m) 12 14 (fun i => roundNE (log2V (valOf F (x F i))) F) ∧
    VecLands (.vred f d a op h m) h a m 9 8 (.vreg d.toNat (BitVec.allOnes 64)
      (ofLanes (fun _ => (upSweep (redOp F op.toNat) ((List.range 64).map input)).getD 63 0))) s ∧
    VecLands (.vscan f d a op h m) h a m 10 10 (.vreg d.toNat (BitVec.allOnes 64)
      (ofLanes (fun i => (downSweep (redOp F op.toNat) (upSweep (redOp F op.toNat) ((List.range 64).map input))).getD i 0))) s ∧
    (f = 1 ∨ f = 2 → res (.vdot f d a b h m) 6 4 (fun i =>
      let p (k : Nat) := mulV (valOf F (elem 16 (vVal s a) (2 * i + k))) (valOf F (elem 16 (vVal s b) (2 * i + k)))
      roundNE (addV (addV (valOf .f32 (lane (vVal s d) i)) (p 0)) (p 1)) .f32)) ∧
    (f = 4 → res (.vdot f d a b h m) 4 2 (fun i =>
      let p (k : Nat) : Int := signed 16 (elem 16 (vVal s a) (2 * i + k)) * signed 16 (elem 16 (vVal s b) (2 * i + k))
      wrapInt 32 (signed 32 (lane (vVal s d) i) + p 0 + p 1))) ∧
    (f = 5 → res (.vdot f d a b h m) 4 2 (fun i =>
      let p (k : Nat) : Int := signed 8 (elem 8 (vVal s a) (4 * i + k)) * signed 8 (elem 8 (vVal s b) (4 * i + k))
      wrapInt 32 (signed 32 (lane (vVal s d) i) + p 0 + p 1 + p 2 + p 3)))

/-- R266 (09): mask operations; MPOP counts the one bits and MFIRST finds the lowest, or gives 64. -/
def Obligations.MaskResults : Prop :=
  ∀ (d a b : RegField) (m : Md) (s : State),
    let res (i : Instr) (x : Word) : Prop := VecLands i false a m 4 2 (.mreg (d.toNat - 48) (BitVec.allOnes 64) x) s
    let x := mReg (coreOf s s.cur.g) (a.toNat - 48)
    let y := mReg (coreOf s s.cur.g) (b.toNat - 48)
    res (.mand d a b m) (x &&& y) ∧ res (.mor d a b m) (x ||| y) ∧ res (.mxor d a b m) (x ^^^ y) ∧ res (.mnot d a m) (~~~x) ∧
    VecLandsScalar (.mpop d a m) false a d m 4 2 (BitVec.ofNat 64 ((List.range 64).filter (fun i => x.getLsbD i)).length) s ∧
    ∃ n : Nat, VecLandsScalar (.mfirst d a m) false a d m 4 2 (BitVec.ofNat 64 n) s ∧
      (x = 0 → n = 64) ∧ (x ≠ 0 → n < 64 ∧ x.getLsbD n = true ∧ ∀ i, i < n → x.getLsbD i = false)

/-- R267 to R269 (09): vector loads deliver each element, zero-extended, in its lane after class 13: 64 consecutive ones at
BASE + imm × bytes, those at A + i × B, or those at A + lane i of B. -/
def Obligations.VectorLoads : Prop :=
  ∀ (z : BitVec 2) (f : BitVec 3) (d r a b : RegField) (i : Imm) (m : Md) (s : State),
    let g := s.cur.g
    let cyc := landCyc s 13 5
    let load (ins : Instr) (m : Md) (es : List (Nat × Int)) (n : Nat) (bad : List FaultRec) : Prop :=
      vecFaults s ins ++ landFaults s g cyc (.vreg d.toNat 0 0) ++ loadElemFaults s m es n bad = [] →
      ∃ x : VReg, (∀ e ∈ es, ∀ k, k < 4 →
          lane x e.1 / 2 ^ (8 * k) % 256 = if k < n then (memByte s (sliceAddr g (e.2.toNat + k))).toNat else 0) ∧
        ((guardMd s m = true → Alone s cyc (.vreg d.toNat (laneMask s m) x)) →
          Completes ins s id (if guardMd s m = true then [landingDue s cyc (.vreg d.toNat (laneMask s m) x)] else []))
    let lanes := (List.range 64).filter (fun j => (laneMask s m).getLsbD j)
    let A : Int := (sVal s a).toNat
    let rows := lanes.map (fun (j : Nat) => (j, A + (j : Int) * (sVal s b).toInt))
    let at_ := lanes.map (fun (j : Nat) => (j, A + (lane (vVal s b) j : Int)))
    let n : Nat := 2 ^ z.toNat
    let x : Int := (sVal s r).toNat + i.toInt * (64 * n : Nat)
    let w : Nat := fmtWidth (laneFmt false f) / 8
    (z ≠ 3 → load (.vld z d r i) none ((List.range 64).map (fun (j : Nat) => (j, x + (j : Int) * n))) n
      (offsetFaults s [x] 64 (64 * n))) ∧
    load (.vlds f d a b m) m rows w (offsetFaults s (rows.map (·.2)) w w) ∧
    load (.vldg f d a b m) m at_ w (offsetFaults s (at_.map (·.2)) w w)

/-- R267, R268, R270 (09): vector stores write each enabled element's low bytes in phase 3, in ascending lane order; at the
issue their lines are counted and no byte of memory changes. What the store of phase 3 does to MST is StoreMeetsRegions.

R154, R271 (05, 09): VSTM writes its elements in phase 3, with a store that leaves MST as it is (StoreMeetsRegions); two cycles
later the margins of the tile take the differences of the elements in its filled region. Where the elements of several entries are
named, the tile is the lowest of them (assumption log 56, the model's choice).

R153, R154, R228, R270, R271 (05, 08, 09): StoreMeetsRegions. What the store that a scalar or vector store brings in phase 3 does to
MST: with its clear flag, as for STS, VST, VSTS and VSTX, MST is cleared in the same cycle in each valid entry whose filled region holds
a written byte, and in no other; without it, as for VSTM, no MST is. -/
def Obligations.VectorStores : Prop :=
  (∀ (z : BitVec 2) (f : BitVec 3) (d r a b : RegField) (i : Imm) (m : Md) (s : State),
    let store (ins : Instr) (m : Md) (es : List (Nat × Int)) (n : Nat) (bad : List FaultRec) : Prop :=
      vecFaults s ins ++ storeElemFaults s m es n bad = [] →
      if guardMd s m = true ∧ es ≠ [] then
        Completes ins s (counts (es.flatMap (fun e => (List.range n).map (fun k => e.2.toNat + k))))
          [performDue s (.store (es.flatMap (fun e => (List.range n).map (fun k =>
            (e.2.toNat + k, BitVec.ofNat 8 (lane (vVal s d) e.1 / 2 ^ (8 * k)))))) true)]
      else Completes ins s id []
    let lanes := (List.range 64).filter (fun j => (laneMask s m).getLsbD j)
    let A : Int := (sVal s a).toNat
    let rows := lanes.map (fun (j : Nat) => (j, A + (j : Int) * (sVal s b).toInt))
    let at_ := lanes.map (fun (j : Nat) => (j, A + (lane (vVal s b) j : Int)))
    let n : Nat := 2 ^ z.toNat
    let x : Int := (sVal s r).toNat + i.toInt * (64 * n : Nat)
    let w : Nat := fmtWidth (laneFmt false f) / 8
    (z ≠ 3 → store (.vst z d r i) none ((List.range 64).map (fun (j : Nat) => (j, x + (j : Int) * n))) n
      (offsetFaults s [x] 64 (64 * n))) ∧
    store (.vsts f d a b m) m rows w (offsetFaults s (rows.map (·.2)) w w) ∧
    store (.vstx f d a b m) m at_ w (offsetFaults s (at_.map (·.2)) w w)) ∧
  (∀ (f : BitVec 3) (d a b : RegField) (m : Md) (s : State) (e : Nat),
    let g := s.cur.g
    let n : Nat := fmtWidth (laneFmt false f) / 8
    let lanes := (List.range 64).filter (fun j => (laneMask s m).getLsbD j)
    let es := lanes.map (fun (j : Nat) => (j, ((sVal s a).toNat : Int) + (j : Int) * (sVal s b).toInt))
    let w := dirEntry (coreOf s g) e
    vecFaults s (.vstm f d a b m) ++ vstmFaults s m es n ++ oldReadFaults s m es n ++ storeElemFaults s m es n [] = [] →
    (guardMd s m = false ∨ es = [] → Completes (.vstm f d a b m) s id []) ∧
    (guardMd s m = true → es ≠ [] → vstmEntry s es n = some e →
      ∃ ws, (∀ q, q ∈ ws ↔ ∃ x ∈ es, let k := (x.2.toNat - dBase w) / n
          k / 64 < dRows w ∧ k % 64 < dCols w ∧ q = (k / 64, k % 64, leNat (memBytes s (sliceAddr g x.2.toNat) n),
            lane (vVal s d) x.1 % 2 ^ (8 * n))) ∧
        Completes (.vstm f d a b m) s (counts (es.flatMap (fun x => (List.range n).map (fun k => x.2.toNat + k))))
          [performDue s (.store (es.flatMap (fun x => (List.range n).map (fun k =>
            (x.2.toNat + k, BitVec.ofNat 8 (lane (vVal s d) x.1 / 2 ^ (8 * k)))))) false),
           landingDue s (cnow s g + 2) (.vstm e ws)])) ∧
  (∀ (g : Nat) (ws : List (Nat × Byte)) (own : Option Src) (s : State) (p : Nat),
    let c := coreOf s g
    let es := ((List.range 56).map (· + 8)).filter (fun e =>
      dValid (dirEntry c e) && ws.any (fun w => inRegion (dirEntry c e) w.1))
    clkOf s g = some p → (partOf s p).live = true →
    (∀ clear, (coreOf (performNow s g own (.store ws clear)) g).live.dir = c.live.dir) ∧
    (es ≠ [] → (some p, cnow s g, .perform g (.mstClear es)) ∈ dues (performNow s g own (.store ws true))) ∧
    (∀ k n l, (k, n, .perform g (.mstClear l)) ∈ dues (performNow s g own (.store ws false)) → (k, n, .perform g (.mstClear l)) ∈ dues s) ∧
    ∀ l : List Nat, let t := performNow s g own (.mstClear l)
      (∀ e, dirEntry (coreOf t g) e = if e ∈ l then withField (dirEntry c e) 5 1 0 else dirEntry c e) ∧
      (∀ h, h ≠ g → coreOf t h = coreOf s h) ∧ ∀ a, memByte t a = memByte s a)

/-- R275, R277 to R281 (10): MMA and MMAT at issue. The engine takes the multiply with its operand formats, tile and flags;
it starts from zero, from the running sum it continues, or from the tile's cells. The 128 lines of A and of B are read over
its occupancy, the cells land at Lr and with C the check at Lc. With a false guard the engine is held and nothing lands. That the
starting cells and margins are those of the issue is assumption log 36, the model's reading.

R288 to R290, R365, R447 to R449 (10, 15): MMAG at its gang's leader. Its own share joins the engine; the stream of B is
read line by line, each other member's share starts its skew later, and with SC the scale rows of B are sent to each. A
redone pass whose stream was sent before sends nothing. With a false guard the engine is held and nothing else happens. That the
scale rows depart at the leader's issue cycle is assumption log 29, the model's reading. -/
def Obligations.MultipliesIssue : Prop :=
  (∀ (f tl : BitVec 3) (t z c sc mat : Bool) (a b : RegField) (m : Md) (s : State),
    let g := s.cur.g
    let i : Instr := if mat = true then .mmat f tl t z c a b sc m else .mma f tl t z c a b sc m
    let ao := (sVal s a).toNat
    let bo := (sVal s b).toNat
    let now := cnow s g
    let core := coreOf s g
    let w := dirEntry core tl.toNat
    let groups := [ao / 2 ^ 19, bo / 2 ^ 19]
    let common (x : MOp) : Prop := x.kind = 0 ∧ x.fmt = f.toNat ∧ x.tile = tl.toNat ∧ x.mat = mat ∧ x.t = t ∧ x.z = z ∧
      x.chk = c ∧ x.sc = sc ∧ x.aOff = ao ∧ x.bOff = bo ∧ x.cols = 1 ∧ x.guard = guardMd s m
    operandFaults s i = [] → deadFaults s = [] → engineFaults s g now = [] → (guardMd s m = false → (tilePlaced ao 8192 = true ∧ tilePlaced bo 8192 = true ∧ ao / 2 ^ 19 ≠ bo / 2 ^ 19 →
        holdFaults s g now (unitPace s g 3) groups = []) →
      EngineTakes i s common (fun _ => [])) ∧
    (guardMd s m = true → multiplyFaults s f.toNat tl.toNat z c ao bo 8192 = [] → holdFaults s g now (unitPace s g 3) groups = [] →
      declFaults s g (multiplyOp s 0 f.toNat tl.toNat mat t z c sc true ao bo 1) = [] →
      EngineTakes i s (fun x => common x ∧
        (z = true → x.cells = [] ∧ x.chained = none) ∧
        (z = false → x.chained = (chainOf core tl.toNat now).map (·.id) ∧
          (chainOf core tl.toNat now = none → ∀ k, k < 4096 → tabGet zeroAt x.cells k =
            if k / 64 < dRows w ∧ k % 64 < dCols w then accCell core tl.toNat (k / 64) (k % 64) else 0)) ∧
        (sc = true → x.scales = core.scale))
        (fun x => readsDue s x 0 128 ++ readsDue s x 1 128 ++ readableDue s x ++ (if c = true then checkDue s x else [])))) ∧
  (∀ (f tl : BitVec 3) (t z c sc : Bool) (a b : RegField) (md : Modifier) (s : State) (x : Gang),
    let g := s.cur.g
    let i : Instr := .mmag f tl t z c a b sc md
    let ao := (sVal s a).toNat
    let bo := (sVal s b).toNat
    let now := cnow s g
    let cols := 2 ^ (md.xf.toNat / 2 ^ 13 % 4)
    let p := gangPace s x
    let groups := [ao / 2 ^ 19, bo / 2 ^ 19]
    operandFaults s i = [] → deadFaults s = [] → engineFaults s g now = [] → gangOf s g (md.xf.toNat / 2 ^ 15 % 16) = some x → gangFaults s (some x) cols (guardOf s md) = [] →
    (guardOf s md = false → (tilePlaced ao 8192 = true ∧ tilePlaced bo (8192 * cols) = true ∧ ao / 2 ^ 19 ≠ bo / 2 ^ 19 →
        holdFaults s g now p groups = []) →
      ∃ u m, exec i s = .next u ∧ m ∈ (coreOf u g).mops ∧ m.kind = 0 ∧ m.c = now ∧ m.p = p ∧ m.guard = false ∧
        dues u = dues s ∧ u.flits = s.flits ∧ (coreOf u g).pass.engines = (coreOf s g).pass.engines + 1 ∧
        (coreOf u g).live = (coreOf s g).live ∧ (∀ h, h ≠ g → coreOf u h = coreOf s h) ∧ ∀ y, memByte u y = memByte s y) ∧
    (guardOf s md = true → multiplyFaults s f.toNat tl.toNat z c ao bo (8192 * cols) = [] → holdFaults s g now p groups = [] →
    declFaults s g (multiplyOp s 0 f.toNat tl.toNat false t z c sc true ao bo cols) = [] →
    ∃ u m, exec i s = .next u ∧ m ∈ (coreOf u g).mops ∧
      (m.kind = 0 ∧ m.c = now ∧ m.p = p ∧ m.fmt = f.toNat ∧ m.tile = tl.toNat ∧ m.cols = cols ∧ m.aOff = ao ∧ m.bOff = bo ∧
        m.bar = (if md.xf.getLsbD 19 = true then some (md.xf.toNat % 2 ^ 13 * 256) else none)) ∧
      (∀ e ∈ readsDue s m 0 128 ++ readableDue s m ++ (if c = true then checkDue s m else []), e ∈ dues u) ∧
      (∀ l, l < 128 * cols → (clkOf s g, now + 64 * (l % 128) / 128 * p, .engineRead g m.id 1 l) ∈ dues u) ∧
      (coreOf u g).pass.engines = (coreOf s g).pass.engines + 1 ∧
      ((coreOf s g).pass.mmagSkip = [] → ∃ n, (coreOf u g).pass.mmags = (coreOf s g).pass.mmags ++ [n] ∧ m.gang = some (g, 0, n) ∧
        (∀ l, l < 128 * cols → (clkOf s g, now + 64 * (l % 128) / 128 * p, .engineRead g n 2 l) ∈ dues u) ∧
        (∀ k h sk, x.members[k]? = some (h, sk) → k ≠ 0 →
          (clkOf s h, now + sk, .instr (.memberShareStart h n)) ∈ dues u ∧
          (sc = true → ∀ r, r < 2 * mmSubs f.toNat → ∃ fl ∈ u.flits, fl.home = h ∧ fl.dep = now ∧
            fl.land = now + intraCores s g h ∧
            fl.load = .stream h n (64 * (128 + r)) (leBytes 64 (tabGet zeroAt (coreOf s g).scale (8 + r)).toNat)))) ∧
      (∀ n l, (coreOf s g).pass.mmagSkip = n :: l → m.gang = some (g, 0, n) ∧ (coreOf u g).pass.mmagSkip = l ∧
        u.flits = s.flits ∧ ∀ e ∈ dues u, e ∈ dues s ∨ ∀ h k, e.2.2 ≠ .instr (.memberShareStart h k)) ∧
      (coreOf u g).live = (coreOf s g).live ∧ (∀ h, h ≠ g → coreOf u h = coreOf s h) ∧ ∀ y, memByte u y = memByte s y))

/-- R293 to R298 (10): MCLR, MLOAD, MOUT, MMARG, MCHK and MCHK.sp at issue: what the engine takes, which lines it reads and
in which cycles, and what lands at Lr and at Lc. With a false guard nothing is read and nothing lands. -/
def Obligations.TileInstructionsIssue : Prop :=
  ∀ (tl : BitVec 3) (int t c : Bool) (rm : BitVec 2) (a b : RegField) (m : Md) (s : State),
    let g := s.cur.g
    let now := cnow s g
    let p := unitPace s g 3
    let x := (sVal s a).toNat
    let d := sVal s b
    let e := x % 64
    let w := dirEntry (coreOf s g) e
    let acc := dirEntry (coreOf s g) tl.toNat
    let lines (fmt : Nat) := tileBytes fmt / 64
    let base (i : Instr) : Prop := operandFaults s i = [] ∧ deadFaults s = [] ∧ engineFaults s g now = []
    let takes (i : Instr) (op : MOp → Prop) (new : MOp → List (Option Nat × Nat × Ev)) : Prop :=
      EngineTakes i s (fun o => o.guard = guardMd s m ∧ op o) (fun o => if guardMd s m = true then new o else [])
    let noWindow := occupancyFaults s g now p 0 = []
    (base (.mclr int tl m) → (guardMd s m = true → tileFaults s g tl.toNat now false = []) →
      takes (.mclr int tl m) (fun o => o.kind = 1 ∧ o.tile = tl.toNat ∧ o.fmt = if int = true then 14 else 13)
        (readableDue s)) ∧
    (base (.mload tl t c a m) → 8 ≤ e → dValid w = true → (guardMd s m = true → tileFaults s g tl.toNat now false = []) →
      holdFaults s g now p [dBase w / 2 ^ 19] = [] →
      takes (.mload tl t c a m) (fun o => o.kind = 2 ∧ o.tile = tl.toNat ∧ o.t = t ∧ o.chk = c ∧ o.entry = e ∧ o.aOff = dBase w ∧
          o.fmt = dFmt w ∧ o.nrow = dRows w ∧ o.ncol = dCols w)
        (fun o => readsDue s o 0 (lines (dFmt w)) ++ readableDue s o ++ checkDue s o)) ∧
    (base (.mmarg a b m) → noWindow → (guardMd s m = true → marginFaults s g (d.toNat % 64) now = []) → d.toNat % 64 < 8 →
      1 ≤ descRows d → descRows d ≤ 64 → 1 ≤ descCols d → descCols d ≤ 64 →
      takes (.mmarg a b m) (fun o => o.kind = 4 ∧ o.entry = d.toNat % 64 ∧ o.nrow = descRows d ∧ o.ncol = descCols d)
        (checkDue s)) ∧
    (base (.mmarg a b m) → 8 ≤ d.toNat % 64 → descFmt d ≤ 12 → tilePlaced x (tileBytes (descFmt d)) = true →
      holdFaults s g now p [x / 2 ^ 19] = [] → 1 ≤ descRows d → descRows d ≤ 64 → 1 ≤ descCols d → descCols d ≤ 64 →
      takes (.mmarg a b m) (fun o => o.kind = 4 ∧ o.entry = d.toNat % 64 ∧ o.aOff = x ∧ o.fmt = descFmt d ∧
          o.nrow = descRows d ∧ o.ncol = descCols d)
        (fun o => readsDue s o 0 (lines (descFmt d)) ++ checkDue s o)) ∧
    (base (.mchk tl a m) → noWindow → (guardMd s m = true → marginFaults s g tl.toNat now = []) →
      takes (.mchk tl a m) (fun o => o.kind = 5 ∧ o.tile = tl.toNat) (checkDue s)) ∧
    (base (.mchkSp a m) → 8 ≤ e → dValid w = true → holdFaults s g now p [dBase w / 2 ^ 19] = [] →
      takes (.mchkSp a m) (fun o => o.kind = 6 ∧ o.entry = e ∧ o.aOff = dBase w ∧ o.fmt = dFmt w ∧ o.nrow = dRows w ∧ o.ncol = dCols w)
        (fun o => readsDue s o 0 (lines (dFmt w)) ++ checkDue s o)) ∧
    (base (.mout rm tl t c a b m) → noWindow → 8 ≤ descEntry d → descFmt d ≤ 12 → tilePlaced x (tileBytes (descFmt d)) = true →
      (guardMd s m = true → marginFaults s g tl.toNat now = []) →
      (∀ k, k < 64 → windowShut s g (now + 78 * p + stretchOf s g 15 - (63 - k) * p) = false) →
      takes (.mout rm tl t c a b m) (fun o => o.kind = 3 ∧ o.tile = tl.toNat ∧ o.rm = rm.toNat ∧ o.t = t ∧ o.chk = c ∧ o.aOff = x ∧
          o.entry = descEntry d ∧ o.fmt = descFmt d ∧ o.nrow = dRows acc ∧ o.ncol = dCols acc)
        (fun o => readableDue s o ++ (if c = true then checkDue s o else []) ++
          (if t = true then [(clkOf s g, now, .moutRead g o.id 0)]
           else (List.range 64).map (fun k => (clkOf s g, now + k * p, .moutRead g o.id k))) ++
          (List.range 64).map (fun k => (clkOf s g, now + 78 * p + stretchOf s g 15 - (63 - k) * p, .moutRow g o.id k))))

/-- R272 (09): VMRD delivers a row of an accumulator's cells, their low half, high half or conversion; VMWR sends a row to
land in its cells. Both after class 8. An operation between its Lr and Lc notes that the row was read (R391), whatever the guard of
the VMRD (assumption log 43, the model's reading of R197). -/
def Obligations.AccumulatorRows : Prop :=
  ∀ (k : BitVec 3) (d a : RegField) (mode : BitVec 2) (m : Md) (s : State),
    let g := s.cur.g
    let c := coreOf s g
    let row := (sVal s a).toNat % 64
    let now := cnow s g
    let cyc := landCyc s 8 3
    let cell (i : Nat) : Word := accCell c k.toNat row i
    let fmt := dFmt (dirEntry c k.toNat)
    let value (i : Nat) : Nat := if mode = 0 then (cell i).toNat % 2 ^ 32 else if mode = 1 then (cell i).toNat / 2 ^ 32
      else if fmt = 14 then wrapInt 32 (max (-2 ^ 31) (min (2 ^ 31 - 1) (cell i).toInt)) else roundNE (valOf .f64 (cell i).toNat) .f32
    let r : Landing := .vreg d.toNat (laneMask s m) (ofLanes value)
    let w : Landing := .accRow k.toNat row mode.toNat (laneMask s m) (vVal s d)
    (vecFaults s (.vmrd k d a mode m) ++ startFaults s 1 (rowBads c k.toNat row (laneMask s m)) ++ landFaults s g cyc r = [] →
      (guardMd s m = true → Alone s cyc r) →
      Completes (.vmrd k d a mode m) s (fun c => { c with mops := c.mops.map (fun o =>
          if writesCells o = true ∧ o.tile = k.toNat ∧ opLr o ≤ now ∧ now < opLc o then { o with seen := o.seen ++ [row] } else o) })
        (if guardMd s m = true then [landingDue s cyc r] else [])) ∧
    (vecFaults s (.vmwr k d a mode m) ++ (if guardMd s m = true then vmwrFaults s g k.toNat cyc else []) = [] →
      (guardMd s m = true → Alone s cyc w) →
      Completes (.vmwr k d a mode m) s id (if guardMd s m = true then [landingDue s cyc w] else []))

/-- R300 to R305, R125, R126 (04, 10): the X unit's results: scale rows from memory and from a vector, four-bit packing and
unpacking, the head word of the Chamois queue, which RNDPOP removes whatever its guard, and the seed.

R124 to R126 (04): in a live cycle a seeded queue of fewer than eight words takes the next word of its key; any other is
left as it is. A seed empties the queue and begins a sequence at word 0. -/
def Obligations.ScaleAndRandomResults : Prop :=
  (∀ (n : BitVec 4) (q : BitVec 3) (mode : BitVec 2) (packed : Bool) (d a : RegField) (i : Imm) (m : Md) (s : State),
    let g := s.cur.g
    let v := vVal s a
    let lands (ins : Instr) (f : Core → Core) (cyc : Nat) (l : Landing) : Prop := (guardMd s m = true → Alone s cyc l) →
      Completes ins s f (if guardMd s m = true then [landingDue s cyc l] else [])
    (let x : Int := (sVal s a).toNat + i.toInt * 64
     operandFaults s (.scl n a i) ++ deadFaults s = [] → 0 ≤ x → x + 64 ≤ 2 ^ 21 → x % 64 = 0 →
     readPortFaults s g [x.toNat / 64] (cnow s g) false = [] → loadFaults s g ((List.range 64).map (x.toNat + ·)) = [] →
     ∃ r : BitVec 512, (∀ k, k < 64 → r.extractLsb' (8 * k) 8 = memByte s (sliceAddr g (x.toNat + k))) ∧
       (Alone s (landCyc s 14 2) (.srow n.toNat r) →
         Completes (.scl n a i) s id [landingDue s (landCyc s 14 2) (.srow n.toNat r)])) ∧
    (vecFaults s (.sclv n a m) = [] →
      ∃ r : BitVec 512, (∀ k, k < 64 → (r.extractLsb' (8 * k) 8).toNat = lane v k % 256) ∧
        lands (.sclv n a m) id (landCyc s 14 2) (.srow n.toNat r)) ∧
    (vecFaults s (.xpack mode d a q m) ++ landFaults s g (landCyc s 8 3) (.vreg d.toNat 0 0) = [] →
      ∃ x : VReg, (∀ k, k < 64 → elem 4 x (64 * q.toNat + k) = if mode = 0 then lane v k % 16
          else if mode = 1 then wrapInt 4 (max (-8) (min 7 (signed 32 (lane v k)))) else min (lane v k) 15) ∧
        lands (.xpack mode d a q m) id (landCyc s 8 3) (.vreg d.toNat (0xFF#64 <<< (8 * q.toNat)) x)) ∧
    (vecFaults s (.xunpack mode d a q m) ++ landFaults s g (landCyc s 8 3) (.vreg d.toNat 0 0) = [] →
      lands (.xunpack mode d a q m) id (landCyc s 8 3) (.vreg d.toNat (BitVec.allOnes 64) (ofLanes (fun k =>
        let e := elem 4 v (64 * q.toNat + k)
        if mode ≠ 0 ∧ 8 ≤ e then e + (2 ^ 32 - 16) else e)))) ∧
    (operandFaults s (.rndpop packed d m) ++ deadFaults s = [] → (coreOf s g).live.rnd.queue ≠ [] →
      let w := (coreOf s g).live.rnd.queue.headD 0
      lands (.rndpop packed d m)
        (fun c => { c with live := { c.live with rnd := { c.live.rnd with queue := c.live.rnd.queue.tail } } }) (landCyc s 4 2)
        (.vreg d.toNat (BitVec.allOnes 64) (if packed = true then w.zeroExtend 2048
          else ofLanes (fun k => w.toNat / 2 ^ (16 * k) % 2 ^ 16)))) ∧
    (operandFaults s (.rndseed a m) ++ deadFaults s = [] →
      Completes (.rndseed a m) s id (if guardMd s m = true then [performDue s (.seed (sVal s a))] else []))) ∧
  (∀ (g : Nat) (key : Word) (own : Option Src) (s : State),
    let r := (coreOf s g).live.rnd
    let live := ((partOfCore s g).map (fun p => (partOf s p).live)).getD false
    (∃ t, exec (.chamoisAppend g) s = .next t ∧
      (coreOf t g).live.rnd = (if live = true ∧ r.seeded = true ∧ r.queue.length < 8 then
        { r with n := r.n + 1, queue := r.queue ++ [chamoisWord r.key r.n] } else r) ∧
      (coreOf t g).live.s = (coreOf s g).live.s ∧ (∀ h, h ≠ g → coreOf t h = coreOf s h) ∧
      dues t = dues s ∧ ∀ a, memByte t a = memByte s a) ∧
    (coreOf (performNow s g own (.seed key)) g).live.rnd = ⟨key, 0, [], true⟩ ∧
    ∀ (n : Word) (j : Nat), j < 16 → (chamoisWord key n).extractLsb' (64 * j) 64 =
      mix64 (mix64 (16 * n + BitVec.ofNat 64 j) ^^^ key))

/-- R308 (11): a run is cut at the lines of both sides: its pieces follow one another without a gap on either side, none
crosses a line boundary of either, and together they are the run.

R157, R312, R356, R418 (05, 11, 15, 17): a piece at its cycles. Its first half reads: at the core for a put, at the far
side for a get; the bytes wait in the core's own landing buffer, or depart at once as a flit. Its second half writes
the bytes the mask enables into the slice of the issuing core, under its owner tag. A piece of a get that has not come is
found missing in that cycle: DELIVER, which names it, is found in phase 1, and the transfer is cancelled. -/
def Obligations.PiecesMove : Prop :=
  (∀ (n : Nat) (lo fa : Int),
    let ps := cutRun n lo fa n
    (ps.map (fun p => p.2.2)).sum = n ∧
    (∀ (k : Nat) (a b : Int) (l : Nat), ps[k]? = some (a, b, l) → 0 < l ∧ a / 64 = (a + l - 1) / 64 ∧ b / 64 = (b + l - 1) / 64 ∧
      a = lo + (((ps.take k).map (fun p => p.2.2)).sum : Nat) ∧ b = fa + (((ps.take k).map (fun p => p.2.2)).sum : Nat)) ∧
    ps.length ≤ n) ∧
  (∀ (op k : Nat) (x : Xfer) (s : State), xferOf s op = some x → x.cancelled = false →
    let g := x.g
    let p := x.pieces.getD k (0, 0, 0, 0)
    let bytes := memBytes s (if x.put = true then sliceAddr g p.1 else p.2.2.1) p.2.2.2
    let departs (t : State) (clk : Option Nat) (home land : Nat) (l : Load) : Prop := ∃ f ∈ t.flits, f.core = g ∧ f.home = home ∧
      f.dep = cnow s g ∧ f.land = land ∧ f.st = 0 ∧ f.load = l ∧ (clk, timeOn s clk, .instr (.linkFlit f.id 0)) ∈ dues t
    let reads (ok : State → Prop) : Prop := Goes (.pieceTransfer op k true) s (fun t => SameFiles s t ∧ Writes s t [] ∧ ok t)
    (x.kind ≤ 4 → p.1 < 2 ^ 21 → p.2.2.1 % 2 ^ 30 < 2 ^ 21 →
      (x.dst = g → reads (fun t => ∃ y bad, xferOf t op = some y ∧ pieceData y k = some (bytes, bad))) ∧
      (x.dst ≠ g → x.put = true → reads (fun t => ∃ bad,
        if isStack x.dst = true then departs t (clkOf s g) x.dst x.land (.write (maskedBytes x p.2.2.1 bytes) bad none)
        else departs t (clkOf s g) x.dst (cnow s g + x.lout) (.write (maskedBytes x (p.2.2.1 % 2 ^ 30) bytes) bad
          (if x.kind = 3 then some x.entry else none)))) ∧
      (x.dst ≠ g → x.put = false →
        (isStack x.dst = false → ∀ f : Flit, f.home = x.dst → f.tag = x.tag → f.st = 0 → refusal s f 0 = none) →
        reads (fun t => ∃ bad, departs t (if isStack x.dst = true then none else clkOf s g) g (cnow s g + if isStack x.dst = true then x.lout else x.lback)
          (.piece op k bytes bad)))) ∧
    (∀ bs bad, pieceData x k = some (bs, bad) → pieceOff x k < 2 ^ 21 → (coreOf s g).recovery = false →
      anyArmed (coreOf s g) = false →
      Goes (.pieceTransfer op k false) s (fun t => SameFiles s t ∧
        Writes s t (inSlice g (maskedBytes x (pieceOff x k) bs)) ∧
        ∀ w ∈ maskedBytes x (pieceOff x k) bs, tagOf t (sliceAddr g w.1) = x.tag)) ∧
    (x.put = false → x.kind ≠ 4 → x.dst ≠ g → pieceData x k = none →
      Goes (.pieceTransfer op k false) s (fun t => Writes s t [] ∧ (clkOf s g, cnow s g, .instr (.deliver op k)) ∈ dues t)) ∧
    ((coreOf s g).run = .running → Goes (.deliver op k) s (fun t => Writes s t [] ∧
      Finds s t g 17 (fun r => r.cls = 0x0E ∧ r.sub = (if isStack x.dst = true then 1 else 2) ∧ r.piece = k ∧ r.slot = x.src.slot ∧
        r.cmd = x.src.cmd) ∧
      ∃ y, xferOf t op = some y ∧ y.cancelled = true)))

/-- R310 to R314, R319 (11): CPY, CPYS and CPYM at issue. The transfer has the shape's pieces with their far bytes
translated; each moves at its cycle of R312; the transfer lands at Λ. A put into another slice is to be committed there
(R172). With a false guard nothing is moved.

R156, R157, R315 (05, 11): CPYT at issue. The transfer has the tile's lines and the nine lines of its footer; it
lands in margins and directory at Λ. -/
def Obligations.CopiesIssue : Prop :=
  (∀ (put masked full : Bool) (i : BitVec 4) (d a : RegField) (sh : BitVec 3) (md : Modifier) (m : Md) (s : State),
    let g := s.cur.g
    let ins : Instr := if masked = true then .cpym i d a sh md else if full = true then .cpys put i d a sh m else .cpy put i d a sh m
    let out := masked || put
    let mm := if masked = true then some md else m
    let r := routeReg s g i.toNat
    let lo := (sVal s a).toNat
    let fa := (sVal s d).toNat
    let ps := piecesOf s g sh.toNat (full && !masked) lo fa
    let c := cnow s g
    let p := unitPace s g s.cur.slot
    let n := ps.length
    let kind := if masked = true then 2 else if full = true then 1 else 0
    let mask : Word := if masked = true then mReg (coreOf s g) (md.xf.toNat % 8) else BitVec.allOnes 64
    let make := routed s g { newXfer s g kind 0 out (decide (xfOf mm / 2 ^ 19 % 2 = 1)) r with mask := mask } r fa c ps
    operandFaults s ins = [] → deadFaults s = [] → (guardMd s mm = false → Completes ins s engaged []) ∧
    (guardMd s mm = true → (masked = true → lo % 64 = 0 ∧ fa % 64 = 0 ∧ shRun s g sh.toNat % 64 = 0) →
      transferFaults s g (if out = true then 2 else 1) r (decide (s.cur.slot = 4)) sh.toNat lo fa ps make c = [] →
      Starts ins s (fun t => ∃ x ∈ t.xfers, x.g = g ∧ x.kind = kind ∧ x.put = out ∧ x.mask = mask ∧
        x.pieces = ps.map (fun q => (q.1.toNat, (q.2.1 % 2 ^ 48).toNat, translate s g (q.2.1 % 2 ^ 48).toNat, q.2.2)) ∧
        (x.stg = true ↔ ∃ y, mm = some y ∧ y.xf.getLsbD 19 = true) ∧
        x.lout = (if x.dst = g then 1 else rtLout r) ∧ x.lback = (if x.dst = g then 1 else rtLback r) ∧
        x.land = (if isStack x.dst = true then c + 2 * rtLout r + stackBound s x.dst (sizeClass n)
          else c + x.lout + (if out = true then 0 else x.lback) + (n - 1) * p) ∧
        DueAt s t x.land (.xferLand x.id) ∧
        (∀ k q, x.pieces[k]? = some q →
          let w := timetable g (homeOf q.2.2.1) c n p x.lout x.lback x.land out k
          PieceDue s t x c k (if out = false ∧ isStack (homeOf q.2.2.1) = true then some (c + k * p) else none) w.1 w.2) ∧
        (out = true → x.dst ≠ g → isStack x.dst = false → ∃ h ∈ (coreOf t g).pass.homes, h.home = x.dst)))) ∧
  (∀ (put : Bool) (i : BitVec 4) (d a : RegField) (md : Modifier) (s : State),
    let g := s.cur.g
    let ins : Instr := .cpyt put i d a md
    let r := routeReg s g i.toNat
    let lo := (sVal s a).toNat
    let fa := (sVal s d).toNat
    let e := md.xf.toNat % 64
    let fmt := md.xf.toNat / 64 % 16
    let c := cnow s g
    let p := unitPace s g s.cur.slot
    let n := tileBytes fmt / 64
    let stack := decide (rtKind r = 1)
    let tile := tilePieces fmt lo fa
    let ps := if stack = true then tile ++ (List.range 9).map (fun j => ((0 : Int), ((fa + tileBytes fmt + 64 * j : Nat) : Int), 64))
      else tile
    let make := tileXfer s g 0 put (md.xf.getLsbD 19) e fmt r lo fa c
    operandFaults s ins = [] → deadFaults s = [] → (guardOf s md = false → Completes ins s engaged []) ∧
    (guardOf s md = true → lo % 256 = 0 → fa % (if stack = true then 64 else 256) = 0 → capacityFaults s g = [] →
      routeFaults s r = [] → farRange s fa = [] → localFaults s lo tile = [] → tableFaults s g = [] →
      farFaults s g (if put = true then 2 else 1) r true fa ps = [] → firstPortFaults s g make c = [] →
      Starts ins s (fun t => ∃ x ∈ t.xfers, x.g = g ∧ x.kind = 3 ∧ x.put = put ∧ x.entry = e ∧ x.fmt = fmt ∧
        x.stg = md.xf.getLsbD 19 ∧ x.pieces.length = n + 9 ∧
        (∀ k, k < n → x.pieces[k]? = some (lo + 64 * k, (fa + 64 * k) % 2 ^ 48, translate s g ((fa + 64 * k) % 2 ^ 48), 64)) ∧
        x.land = (if isStack x.dst = true then c + 2 * rtLout r + stackBound s x.dst (sizeClass (n + 9))
          else c + (if x.dst = g then 1 else rtLout r) +
            (if put = true then 0 else if x.dst = g then 1 else rtLback r) + (n + 8) * p) ∧
        DueAt s t x.land (.xferLand x.id))))

/-- R99, R316 (03, 11): CODE at issue: lines of main memory, due in every target's code window at the target's landing.

R178, R317, R365 (06, 11, 15): HCPY at issue: the transfer joins the host channel in the end of its cycle. A slot that
the rolled-back instance had issued moves nothing when the redone pass reaches it again. -/
def Obligations.CodeAndHostCopiesIssue : Prop :=
  (∀ (v : BitVec 2) (i : BitVec 4) (d a : RegField) (sh : BitVec 3) (m : Md) (s : State),
    let g := s.cur.g
    let ins : Instr := .code v i d a sh m
    let r := routeReg s g i.toNat
    let o := (sVal s a).toNat
    let fa := (sVal s d).toNat
    let run := shRun s g sh.toNat
    let n := run / 64
    let c := cnow s g
    let p := unitPace s g s.cur.slot
    let gang := gangOf s g (xfOf m % 16)
    let ps : Pieces := (List.range n).map (fun k => ((0 : Int), ((fa + 64 * k : Nat) : Int), 64))
    operandFaults s ins = [] → deadFaults s = [] → (guardMd s m = false → Completes ins s engaged []) ∧
    (guardMd s m = true → capacityFaults s g = [] → routeFaults s r = [] → tableFaults s g = [] →
      64 ≤ run → run ≤ 65536 → run % 64 = 0 → (v = 1 → gang.isSome = true) → o % 64 = 0 → o + run ≤ 2 ^ 16 → fa % 64 = 0 → fa < 2 ^ 48 →
      farFaults s g 8 r true fa ps = [] → isStack (homeOf (translate s g fa)) = true →
      let L := c + 2 * rtLout r + stackBound s (homeOf (translate s g fa)) (sizeClass n)
      Starts ins s (fun t => ∃ x ∈ t.xfers, x.g = g ∧ x.kind = 4 ∧ x.entry = o ∧ x.land = L ∧ x.pieces.length = n ∧
        (∀ k, k < n → x.pieces[k]? = some (0, (fa + 64 * k) % 2 ^ 48, translate s g ((fa + 64 * k) % 2 ^ 48), 64)) ∧
        (∀ k, k < n → ReadDue s t x.id k (some (c + k * p)) (L - (n - 1) * p + k * p - (if x.dst = g then 1 else rtLout r))) ∧
        (∀ q ∈ codeTargets s g v.toNat gang, ∀ k, k < n →
          DueAt s t (L - (n - 1) * p + k * p + q.2) (.instr (.codeFillLanding q.1 x.id k))) ∧
        DueAt s t (L + (((codeTargets s g v.toNat gang).find? (fun q => q.1 = g)).map (·.2)).getD 0) (.xferLand x.id)))) ∧
  (∀ (put : Bool) (ch : BitVec 2) (d a : RegField) (sh : BitVec 3) (m : Md) (s : State),
    let g := s.cur.g
    let ins : Instr := .hcpy put ch d a sh m
    let lo := (sVal s a).toNat
    let fa := (sVal s d).toNat
    let ps := piecesOf s g sh.toNat true lo fa
    let again := decide ((coreOf s g).pass.hcpys < (coreOf s g).pass.hcpySkip)
    operandFaults s ins = [] → deadFaults s = [] → (guardMd s m = false → Completes ins s engaged []) ∧
    (guardMd s m = true → again = true → Completes ins s
      (fun c => { engaged c with pass := { (engaged c).pass with hcpys := c.pass.hcpys + 1 } }) []) ∧
    (guardMd s m = true → again = false → capacityFaults s g = [] → shapeFaults s g sh.toNat ps = [] → farRange s fa = [] →
      localFaults s lo ps = [] → tableFaults s g = [] → windowFaults s g (if put = true ∨ ps = [] then 2 else 1) fa ps = [] →
      Starts ins s (fun t => ∃ x ∈ t.xfers, x.g = g ∧ x.kind = 5 ∧ x.put = put ∧ x.chan = ch.toNat ∧
        x.pieces = ps.map (fun q => (q.1.toNat, (q.2.1 % 2 ^ 48).toNat, translate s g (q.2.1 % 2 ^ 48).toNat, q.2.2)) ∧
        x.sectors = sectorsOf s g x.pieces ∧ DueAt s t (cnow s g) (.perform g (.hcpy x.id)) ∧
        (coreOf t g).pass.hcpys = (coreOf s g).pass.hcpys + 1)))

/-- R158, R159, R318 to R321 (05, 11): the stage counter's forms, ATOM and BARA. An atomic reads now, its new value is
written in phase 1 two cycles on, and the old value lands four cycles on.

R159 (05): the bank ALU's new value on w bytes, for each operation. -/
def Obligations.LocalAtomics : Prop :=
  (∀ (op : BitVec 3) (oth : BitVec 2) (k : BitVec 3) (w : Bool) (d a b : RegField) (m : Md) (s : State),
    let g := s.cur.g
    let c := cnow s g
    let off := (sVal s a).toNat
    (let l : Landing := .sreg d.toNat ((coreOf s g).live.stage.zeroExtend 64)
     operandFaults s (.stageRd d m) ++ deadFaults s = [] →
      (guardMd s m = true → d.toNat < 32 → Alone s (landCyc s 0 1) l) →
      Completes (.stageRd d m) s engaged (if guardMd s m = true ∧ d.toNat < 32 then [landingDue s (landCyc s 0 1) l] else [])) ∧
    (operandFaults s (.stageSet a m) ++ deadFaults s = [] → Completes (.stageSet a m) s engaged
      (if guardMd s m = true then [performDue s (.stageSet ((sVal s a).truncate 32))] else [])) ∧
    (let run (i : Instr) (n : Nat) (new : Word → Word) (dest : Option RegField) (ord : Word → Nat) : Prop :=
       let offs := (List.range n).map (off + ·)
       operandFaults s i = [] →
       (guardMd s m = false → Completes i s engaged []) ∧
       (guardMd s m = true → off + n ≤ 2 ^ 21 → off % n = 0 →
         sameBundleFaults s g off n = [] → readPortFaults s g [off / 64] c true = [] → loadFaults s g offs = [] →
         (writePortFaults s g offs (c + 2)).filter (fun r => r.sub ≠ 8) = [] → budgetFaults s offs = [] →
         ∃ old : Word, ReadsAs s (sliceAddr g off) n old ∧
           ((∀ r, dest = some r → r.toNat < 32 → Alone s (c + 4) (.sreg r.toNat old)) →
             Starts i s (fun t => (coreOf t g).pass.lines = dedup ((coreOf s g).pass.lines ++ linesOf offs) ∧
               OrdersDrains s t (ord old) (xfOf m / 4 % 8) false ∧
               ∃ x ∈ t.bops, x.g = g ∧ x.off = off ∧ x.w = n ∧ x.new = new old ∧ x.inst = none ∧
                 DueAt s t (c + 2) (.instr (.bankAluWrite x.id)) ∧
                 ∀ r, dest = some r → r.toNat < 32 → DueAt s t (c + 4) (.instr (.resultLanding g (.sreg r.toNat old))))))
     let n : Nat := if w = true then 8 else 4
     run (.atomInt op d a b w m) n (fun old => aluOp op.toNat n old (sVal s b) 0) (some d) (fun _ => xfOf m % 4) ∧
     run (.atomOther oth d a b w m) n (fun old => aluOp (8 + oth.toNat) n old (sVal s b) (sVal s d)) (some d)
       (fun old => if oth = 2 ∧ old.toNat ≠ (sVal s d).toNat % 2 ^ (8 * n) ∧ xfOf m / 32 % 2 = 0 then xfOf m % 4 / 2 * 2
         else xfOf m % 4) ∧
     run (.bara k a m) 4 (fun old => aluOp 0 4 old (BitVec.ofNat 64 (k.toNat + 1)) 0) none (fun _ => 0))) ∧
  (∀ (w : Nat) (old x y : Word), w = 4 ∨ w = 8 →
    let b := 8 * w
    let o := old.toNat % 2 ^ b
    let v := x.toNat % 2 ^ b
    let is (op r : Nat) : Prop := (aluOp op w old x y).toNat = r
    is 0 ((o + v) % 2 ^ b) ∧ is 1 (o &&& v) ∧ is 2 (o ||| v) ∧ is 3 (o ^^^ v) ∧
    is 4 (if signed b o ≤ signed b v then o else v) ∧ is 5 (if signed b o ≤ signed b v then v else o) ∧
    is 6 (min o v) ∧ is 7 (max o v) ∧
    is 8 (roundNE (addV (valOf (if w = 4 then .f32 else .f64) o) (valOf (if w = 4 then .f32 else .f64) v)) (if w = 4 then .f32 else .f64)) ∧
    is 9 v ∧ is 10 (if o = y.toNat % 2 ^ b then v else o))

/-- R323 to R325, R418, R420 (11, 17): RLD, RST and RATOM at issue. A flit departs DEP cycles on for the home of the
translated address and lands there after LOUT; the result comes back LBACK after the home has it, and TIMING is due in that
cycle unless it has come. A result that meets another landing of its register, or a full port, is to land a free value (register
number + 128; assumption log 3 and 43, the model's choices). A write or atomic at another slice joins the homes to be committed.

R174, R330, R420 (06, 11, 17): DRAIN's completion is decided after the fence cost of its scope; its status word lands in
that cycle. One whose status word would meet another landing of its register, or a full port, is to land a free value (register
number + 128; assumption log 3 and 43, the model's choices). -/
def Obligations.QuaylineAccessesIssue : Prop :=
  (∀ (z : BitVec 2) (i : BitVec 4) (d a : RegField) (ord : BitVec 2) (op : BitVec 3) (oth : BitVec 2) (opt : BitVec 3) (m : Md)
    (s : State),
    let g := s.cur.g
    let r := routeReg s g i.toNat
    let va := (sVal s a).toNat
    let ga := translate s g va
    let h := homeOf ga
    let dep := cnow s g + xfOf m % 2 ^ 16
    let out := if h = g then 1 else rtLout r
    let back := if h = g then 1 else rtLback r
    let n : Nat := 2 ^ z.toNat
    let bound := stackBound s h 0
    let scope := xfOf m / 2 ^ 16 % 8
    let departs (t : State) (f : Flit) : Prop := f ∈ t.flits ∧ f.core = g ∧ f.home = h ∧ f.dep = dep ∧ f.st = 0 ∧
      DueAt s t dep (.instr (.linkFlit f.id 0))
    let reg (land : Nat) : Nat :=
      if d.toNat < 32 ∧ landingClash s g land (.sreg d.toNat 0) = true then d.toNat + 128 else d.toNat
    let comes (t : State) (sq land : Nat) : Prop := (∃ src, (sq, src, land, reg land) ∈ (coreOf t g).waits) ∧
      DueAt s t land (.instr (.timing g sq))
    let go (ins : Instr) (need w : Nat) (slice : Bool) (ok : State → Prop) : Prop :=
      operandFaults s ins = [] → deadFaults s = [] → (guardMd s m = false → Completes ins s engaged []) ∧
      (guardMd s m = true → unitFaults s g need r va w slice = [] → Starts ins s ok)
    go (.rld z i d a ord m) 1 n false (fun t => ∃ f sq, departs t f ∧ f.load = .readReq ga n sq ∧
      f.land = dep + (if isStack h = true then rtLout r + bound else out) ∧
      comes t sq (f.land + (if isStack h = true then rtLout r else 1 + back)) ∧ OrdersDrains s t ord.toNat scope false) ∧
    go (.rst z i d a ord m) 2 n false (fun t => ∃ f ws, departs t f ∧ f.load = .write ws [] none ∧
      IsBytes ws (if isStack h = true then ga else ga % 2 ^ 30) n (sVal s d).toNat ∧
      f.land = dep + (if isStack h = true then 2 * rtLout r + bound else out) ∧
      (isStack h = false → ∃ x ∈ (coreOf t g).pass.homes, x.home = h) ∧ (∃ w ∈ (coreOf t g).writes, w.2.1 = h) ∧
      OrdersDrains s t ord.toNat scope false) ∧
    (let w : Nat := if xfOf m / 2 ^ 19 % 2 = 1 then 8 else 4
     let atomic (ins : Instr) (op : Nat) (quiet weak : Bool) : Prop := go ins 4 w true (fun t => ∃ f sq, departs t f ∧
       f.load = .atom (ga % 2 ^ 30) op w (sVal s d) (if op = 10 then sReg (coreOf s g) (d.toNat + 1) else 0) sq ∧
       f.land = dep + out ∧ (∃ x ∈ (coreOf t g).pass.homes, x.home = h) ∧
       (quiet = true → sq = none) ∧ (quiet = false → ∃ q, sq = some q ∧ comes t q (f.land + 2 + back)) ∧
       OrdersDrains s t (opt.toNat % 4) scope weak)
     atomic (.ratomInt op i d a opt m) op.toNat (opt.getLsbD 2) false ∧
     atomic (.ratomOther oth i d a opt m) (8 + oth.toNat) (opt.getLsbD 2 && decide (oth ≠ 2))
       (decide (oth = 2) && !opt.getLsbD 2))) ∧
  (∀ (d : RegField) (sc : BitVec 3) (m : Md) (s : State),
    let g := s.cur.g
    let t := cnow s g + fenceCost s g sc.toNat
    let n := 16 * cnow s g
    operandFaults s (.drain d sc m) = [] → deadFaults s = [] →
    ((guardMd s m = true → d.toNat < 32 → Alone s t (.sreg d.toNat 0)) → Completes (.drain d sc m) s
      (fun c => if guardMd s m = true then
        { engaged c with draining := c.draining ++ [(n, sc.toNat, d.toNat, false, c.pass.id.serial)],
                           ops := c.ops.filter (fun o => decide (cnow s g ≤ o.2.1)) ++ [(s.cur.slot, t, c.pass.id.serial)] } else engaged c)
      (if guardMd s m = true then [(clkOf s g, t, .perform g (.drainDecide n))] else [])) ∧
    (guardMd s m = true → d.toNat < 32 → ¬ Alone s t (.sreg d.toNat 0) → ∃ u, exec (.drain d sc m) s = .next u ∧
      (n, sc.toNat, d.toNat + 128, false, (coreOf s g).pass.id.serial) ∈ (coreOf u g).draining ∧
      dues u = dues s ++ [(clkOf s g, t, .perform g (.drainDecide n))] ∧ (coreOf u g).live = (coreOf s g).live ∧
      (∀ h, h ≠ g → coreOf u h = coreOf s h) ∧ ∀ a, memByte u a = memByte s a))

/-- R326, R327 (11): SEND, RECV and BCST at issue. The lines of the run are read one after the other from the departure,
and the transfer lands LOUT after the last; a receive slot is armed in phase 3. -/
def Obligations.SendsIssue : Prop :=
  ∀ (i n : BitVec 4) (d a : RegField) (sh : BitVec 3) (m : Md) (s : State),
    let g := s.cur.g
    let r := routeReg s g i.toNat
    let lo := (sVal s a).toNat
    let dep := cnow s g + xfOf m % 2 ^ 16
    let p := unitPace s g s.cur.slot
    let k := shRun s g sh.toNat / 64
    let begins (ins : Instr) (kind entry : Nat) (homes : List Nat) : Prop :=
      Starts ins s (fun t => ∃ x ∈ t.xfers, x.g = g ∧ x.kind = kind ∧ x.put = true ∧ x.entry = entry ∧ x.pieces.length = k ∧
        (∀ j, j < k → (x.pieces[j]?).map (·.1) = some (lo + 64 * j)) ∧ x.land = dep + rtLout r + (k - 1) * p ∧
        (∀ j, j < k → PieceDue s t x dep j none (dep + j * p) none) ∧ DueAt s t x.land (.xferLand x.id) ∧
        ∀ h ∈ homes, ∃ y ∈ (coreOf t g).pass.homes, y.home = h)
    let common (ins : Instr) : Prop := operandFaults s ins = [] ∧ deadFaults s = []
    let source : Prop := capacityFaults s g = [] ∧ lo % 64 = 0 ∧ lo + 64 * k ≤ 2 ^ 21 ∧ lo < 2 ^ 21 ∧ shRun s g sh.toNat % 64 = 0 ∧
      shRun s g sh.toNat ≤ 65536 ∧ rtValid r = true ∧ (dep = cnow s g → portClash s g lo dep true = none)
    (common (.send i n a sh m) → (guardMd s m = false → Completes (.send i n a sh m) s engaged []) ∧
      (guardMd s m = true → source → rtKind r = 0 → rtNode r < 384 → begins (.send i n a sh m) 6 n.toNat [rtPkg r * 512 + rtNode r])) ∧
    (common (.bcst i d a sh m) → (guardMd s m = false → Completes (.bcst i d a sh m) s engaged []) ∧
      (guardMd s m = true → source → rtKind r = 2 → rtNode r < 8 → (sVal s d).toNat % 64 = 0 → (sVal s d).toNat + 64 * k ≤ 2 ^ 21 →
        begins (.bcst i d a sh m) 7 (sVal s d).toNat (((List.range 48).map (rtPkg r * 512 + rtNode r * 48 + ·)).filter (fun h =>
          goodCore s h = true ∧ h ≠ g)))) ∧
    (common (.recv n a m) → (guardMd s m = true → lo % 64 = 0 ∧ lo < 2 ^ 21) → Completes (.recv n a m) s engaged
      (if guardMd s m = true then [performDue s (.recv n.toNat lo)] else []))

/-- R328, R329 (11): RRED merges its operand into the reduction buffer in phase 3; RREL and RREL.all send each line they
release, one a cycle of the lighter's pace, and empty the buffer of them in phase 3.

R328, R329 (11): what the merge and the release do to the buffer: a line of the key takes the element, merged with one
it holds; released lines leave it. -/
def Obligations.Reductions : Prop :=
  (∀ (op : BitVec 3) (i : BitVec 4) (d a : RegField) (all : Bool) (m : Md) (s : State),
    let g := s.cur.g
    let c := coreOf s g
    let r := routeReg s g i.toNat
    let x := translate s g (sVal s a).toNat
    let w : Nat := if op = 1 ∨ op = 3 then 8 else 4
    let red : Instr := .rred op i d a m
    let rel : Instr := if all = true then .rrelAll m else .rrel i m
    let ls := c.live.red.filter (fun l => all || decide (l.route = i.toNat))
    let dep := cnow s g + xfOf m % 2 ^ 16
    let p := unitPace s g 5
    (operandFaults s red = [] → deadFaults s = [] → (guardMd s m = true → unitFaults s g 4 r (sVal s a).toNat w true = [] ∧
        (c.live.red.length < 32 ∨ redHas c i.toNat (x / 64) op.toNat = true)) →
      Completes red s engaged (if guardMd s m = true then
        [performDue s (.redMerge i.toNat (x / 64) op.toNat (x % 64 / w) (BitVec.ofNat 64 ((sVal s d).toNat % 2 ^ (8 * w))))] else [])) ∧
    (operandFaults s rel = [] → deadFaults s = [] → (guardMd s m = false → Completes rel s engaged []) ∧
      (guardMd s m = true → (all = false → rtValid r = true) →
        (∀ l ∈ ls, l.line / 2 ^ 24 ≠ g → rtValid (routeReg s g l.route) = true) →
        Starts rel s (fun t => DueAt s t (cnow s g) (.perform g (.redRelease all (if all = true then 0 else i.toNat))) ∧
          ∀ j l, ls[j]? = some l → ∃ f ∈ t.flits, f.core = g ∧ f.home = l.line / 2 ^ 24 ∧ f.dep = dep + j * p ∧
            f.land = dep + j * p + (if f.home = g then 1 else rtLout (routeReg s g l.route)) ∧
            (∃ o n, f.load = .merge o n (l.elems.map (fun e => (l.line % 2 ^ 24 * 64 + e.1 * n, e.2)))) ∧
            DueAt s t f.dep (.instr (.linkFlit f.id 0)))))) ∧
  (∀ (c : Core) (route line var e : Nat) (v : Word) (all : Bool),
    let w := (redAlu var).2
    let has (l : RedLine) : Prop := l.route = route ∧ l.line = line ∧ l.var = var
    (c.live.red.all (fun l => decide (l.elems.Pairwise (fun p q => p.1 < q.1))) = true →
      ∃ l ∈ (redMergeNow c route line var e v).live.red, has l ∧
        ∃ x, (e, x) ∈ l.elems ∧
          ((∀ o ∈ c.live.red, has o → ∀ q ∈ o.elems, q.1 ≠ e) → x = v) ∧
          (∀ o y, o ∈ c.live.red → has o → (e, y) ∈ o.elems → c.live.red.Pairwise (fun p q => ¬ (has p ∧ has q)) →
            x = aluOp (redAlu var).1 w y v 0)) ∧
    (∀ l, l ∈ (redReleaseNow c all route).live.red ↔ l ∈ c.live.red ∧ all = false ∧ l.route ≠ route))

/-- R244 to R247, R71, R241, R190 (02, 03, 07, 08): SYSRD lands what its register reads, a completion register after every
change of the cycle (LaterEffects), and a free value where it meets another landing or a full port (assumption log 3 and 43, the
model's choices); SYSWR, CANCEL and WINV act in phase 3; IDLE puts off the next bundle.

R244, R245 (08): what SYSWR and WINV do in phase 3: a register's RW fields take the value's, its other fields stay, and
no other register changes; the marks of the words named are cleared. -/
def Obligations.SystemAccesses : Prop :=
  (∀ (d a b : RegField) (i : Imm) (lvl : BitVec 2) (m : Md) (k : BitVec 24) (s : State), isControl s.cur.g = false →
    let g := s.cur.g
    let n := (sVal s a + BitVec.ofInt 64 i.toInt).toNat % 2 ^ 27
    let l : Landing := .sreg d.toNat (sysRead s g n)
    (operandFaults s (.sysrd d a i) ++ sysFaults s n = [] → (n < 0x100 ∨ 0x104 ≤ n) →
      (d.toNat < 32 → Alone s (landCyc s 0 1) l) →
      Completes (.sysrd d a i) s id (if d.toNat < 32 then [landingDue s (landCyc s 0 1) l] else [])) ∧
    (operandFaults s (.sysrd d a i) = [] → 0x100 ≤ n → n < 0x104 → (d.toNat < 32 → Alone s (landCyc s 0 1) (.sreg d.toNat 0)) →
      Completes (.sysrd d a i) s id (if d.toNat < 32 then [performDue s (.lateRead n d.toNat (landCyc s 0 1))] else [])) ∧
    (operandFaults s (.sysrd d a i) ++ sysFaults s n = [] → d.toNat < 32 → ¬ Alone s (landCyc s 0 1) (.sreg d.toNat 0) →
      ∃ t, exec (.sysrd d a i) s = .next t ∧ t.fresh = s.fresh + 1 ∧
        dues t = dues s ++ [landingDue s (landCyc s 0 1) (.sreg d.toNat (Config.freeWord s.fresh))] ∧
        (coreOf t g).live = (coreOf s g).live ∧ (∀ h, h ≠ g → coreOf t h = coreOf s h) ∧ ∀ x, memByte t x = memByte s x) ∧
    (operandFaults s (.syswr d a i) = [] →
      Completes (.syswr d a i) s id [performDue s (.syswr n (sVal s d))]) ∧
    (operandFaults s (.cancel lvl a i) = [] → inhibited (coreOf s g) = false →
      Completes (.cancel lvl a i) s id [performDue s (.cancel lvl.toNat (n % 2 ^ 16))]) ∧
    (operandFaults s (.winv a b m) = [] →
      Completes (.winv a b m) s id (if guardMd s m = true then
        [performDue s (.winv ((sVal s a).toNat / 4 % 2 ^ 14 * 4) ((sVal s b).toNat / 4 % 2 ^ 15 * 4))] else [])) ∧
    (Completes (.idle k) s id
      [(clkOf s g, paceUp (corePace s g) (cnow s g + k.toNat + 1), .issue g)])) ∧
  (∀ (g n o len : Nat) (x : Word) (own : Option Src) (s : State),
    (n ∉ [0x451, 0x430, 0x462, 0x468] → (n < 0x440 ∨ 0x448 ≤ n) →
      let t := performNow s g own (.syswr n x)
      sysGet (coreOf t g) n = (sysGet (coreOf s g) n &&& ~~~(writeMask n)) ||| (x &&& writeMask n) ∧
      (∀ k, k ≠ n → sysGet (coreOf t g) k = sysGet (coreOf s g) k) ∧ (coreOf t g).live = (coreOf s g).live ∧
      (∀ h, h ≠ g → coreOf t h = coreOf s h) ∧ ∀ a, memByte t a = memByte s a) ∧
    (let t := performNow s g own (.winv o len)
     (∀ w, tabGet (fun _ => false) (coreOf t g).codeValid w =
        (tabGet (fun _ => false) (coreOf s g).codeValid w && !(decide (o ≤ 4 * w) && decide (4 * w < o + len)))) ∧
     (coreOf t g).code = (coreOf s g).code ∧ (coreOf t g).live = (coreOf s g).live ∧ ∀ a, memByte t a = memByte s a))

/-- R82, R154, R220, R249, R254, R272, R301 (03, 05, 08, 09, 10): a register is its 64 lanes, and a result that lands writes
its destination and nothing else: a scalar register (one beyond s31 discards it), the enabled lanes of a vector register or
bits of a mask, a loop counter, a scale row. No injector is armed (R405).

R154, R272 (05, 09): what the landings of VMWR and of VSTM do. An enabled lane's cell takes its low half, its high half
or the converted value, and MST of the tile is 0; the margins of an integer tile rise by the differences of its elements,
modulo 2^32, and those of a float tile by the exact sum of the differences, rounded once, or become the default NaN where an element
is no number. No other cell, margin or register changes.

R85 (03) gives two landings in one destination in one cycle no order, and R89 no value to a third scalar landing: the model lands
a free value there (assumption log 3 and 43, the model's choices). -/
def Obligations.ResultsLand : Prop :=
  ((∀ (r : Nat → Nat) (i : Nat), i < 64 → lane (ofLanes r) i = r i % 2 ^ 32) ∧ (∀ x : VReg, ofLanes (lane x) = x) ∧
  ∀ (g : Nat) (l : Landing) (s : State), anyArmed (coreOf s g) = false →
    ∃ t, exec (.resultLanding g l) s = .next t ∧ dues t = dues s ∧ (∀ h, h ≠ g → coreOf t h = coreOf s h) ∧
      (∀ a, memByte t a = memByte s a) ∧
      let c := coreOf s g
      let k := coreOf t g
      match l with
      | .sreg n x => (∀ j, sReg k j = if j = n ∧ n < 32 then x else sReg c j) ∧ k.live.v = c.live.v ∧ k.live.m = c.live.m ∧
          k.live.lc = c.live.lc ∧ k.live.acc = c.live.acc ∧ k.live.dir = c.live.dir ∧ k.live.marg = c.live.marg ∧ k.sys = c.sys
      | .vreg n b x => (∀ j i, i < 64 → lane (vReg k j) i = if j = n ∧ b.getLsbD i = true then lane x i else lane (vReg c j) i) ∧
          k.live.s = c.live.s ∧ k.live.m = c.live.m ∧ k.live.acc = c.live.acc ∧ k.live.dir = c.live.dir ∧
          k.live.marg = c.live.marg ∧ k.sys = c.sys
      | .mreg n b x => (∀ j i, (mReg k j).getLsbD i = if j = n ∧ b.getLsbD i = true then x.getLsbD i else (mReg c j).getLsbD i) ∧
          k.live.s = c.live.s ∧ k.live.v = c.live.v ∧ k.live.acc = c.live.acc ∧ k.live.dir = c.live.dir ∧ k.sys = c.sys
      | .lcr n x => (∀ j, lcReg k j = if j = n then x else lcReg c j) ∧ k.live.s = c.live.s ∧ k.live.v = c.live.v ∧
          k.live.m = c.live.m ∧ k.sys = c.sys
      | .srow n x => (∀ j, tabGet zeroAt k.scale j = if j = n then x else tabGet zeroAt c.scale j) ∧ k.live = c.live ∧ k.sys = c.sys
      | .accRow _ _ _ _ _ => k.live = (landCore c l).live ∧ k.sys = c.sys
      | .vstm _ _ => k = landCore c l) ∧
  (∀ c : Core, anyArmed c = false →
  (∀ (k row : Nat) (mode : BitVec 2) (l : Word) (x : VReg), k < 8 → row < 64 →
    let t := landCore c (.accRow k row mode.toNat l x)
    let fmt := dFmt (dirEntry c k)
    (∀ i, i < 64 → accCell t k row i =
      if l.getLsbD i = false then accCell c k row i
      else if mode = 0 then (accCell c k row i).extractLsb' 32 32 ++ BitVec.ofNat 32 (lane x i)
      else if mode = 1 then BitVec.ofNat 32 (lane x i) ++ (accCell c k row i).extractLsb' 0 32
      else if fmt = 14 then BitVec.ofInt 64 (signed 32 (lane x i))
      else BitVec.ofNat 64 (roundNE (valOf .f32 (lane x i)) .f64)) ∧
    (∀ j r i, r < 64 → i < 64 → (j ≠ k ∨ r ≠ row) → accCell t j r i = accCell c j r i) ∧
    dMst (dirEntry t k) = false ∧ (∀ e, e ≠ k → dirEntry t e = dirEntry c e) ∧
    t.live.s = c.live.s ∧ t.live.v = c.live.v ∧ t.live.marg = c.live.marg) ∧
  (∀ (e : Nat) (ws : List (Nat × Nat × Nat × Nat)),
    let fmt := tileFmt (dFmt (dirEntry c e))
    let k := landCore c (.vstm e ws)
    let number (v : Val) : Prop := v ≠ .nan ∧ ∀ b, v ≠ .inf b
    let diff (p : Nat × Nat × Nat × Nat → Bool) : Val := (ws.filter p).foldl
      (fun a w => addV a (addV (arrayVal fmt w.2.2.2) (negV (arrayVal fmt w.2.2.1)))) (.fin false 0 1 0)
    let moves (j : Nat) (p : Nat × Nat × Nat × Nat → Bool) : Prop :=
      (ws.filter p = [] → margWord k e j = margWord c e j) ∧
      (ws.filter p ≠ [] → (∀ w ∈ ws.filter p, number (arrayVal fmt w.2.2.1) ∧ number (arrayVal fmt w.2.2.2)) →
        (margWord k e j).toNat = roundNE (addV (valOf .f32 (margWord c e j).toNat) (diff p)) .f32) ∧
      (¬ (∀ w ∈ ws.filter p, number (arrayVal fmt w.2.2.1) ∧ number (arrayVal fmt w.2.2.2)) →
        (margWord k e j).toNat = defaultNaN .f32)
    fmtIsInt fmt = false → (∀ w ∈ ws, w.1 < 64 ∧ w.2.1 < 64) →
    (∀ r, r < 64 → moves r (fun w => w.1 = r) ∧ moves (64 + r) (fun w => w.2.1 = r)) ∧
    (∀ r, 128 ≤ r → r < 256 → margWord k e r = margWord c e r) ∧ (∀ t r, t ≠ e → r < 256 → margWord k t r = margWord c t r)) ∧
  (∀ (e : Nat) (ws : List (Nat × Nat × Nat × Nat)),
    let fmt := tileFmt (dFmt (dirEntry c e))
    let k := landCore c (.vstm e ws)
    let sum (p : Nat × Nat × Nat × Nat → Bool) : Int :=
      (ws.filter p).foldl (fun t w => t + (intVal fmt w.2.2.2 - intVal fmt w.2.2.1)) 0
    fmtIsInt fmt = true → (∀ w ∈ ws, w.1 < 64 ∧ w.2.1 < 64) →
    (∀ r, r < 64 → margWord k e r = margWord c e r + BitVec.ofInt 32 (sum (fun w => w.1 = r))) ∧
    (∀ r, r < 64 → margWord k e (64 + r) = margWord c e (64 + r) + BitVec.ofInt 32 (sum (fun w => w.2.1 = r))) ∧
    (∀ r, 128 ≤ r → r < 256 → margWord k e r = margWord c e r) ∧
    (∀ t r, t ≠ e → r < 256 → margWord k t r = margWord c t r) ∧
    k.live.s = c.live.s ∧ k.live.v = c.live.v ∧ k.live.acc = c.live.acc ∧ k.live.dir = c.live.dir)) ∧
  (∀ (d a b : RegField) (s : State), d.toNat < 32 → operandFaults s (.add d a b none) = [] →
    ¬ Alone s (landCyc s 0 1) (.sreg d.toNat 0) →
    ∃ t, exec (.add d a b none) s = .next t ∧ t.fresh = s.fresh + 1 ∧
      dues t = dues s ++ [landingDue s (landCyc s 0 1) (.sreg d.toNat (Config.freeWord s.fresh))] ∧
      (∀ h, h ≠ s.cur.g → coreOf t h = coreOf s h) ∧ (coreOf t s.cur.g).live = (coreOf s s.cur.g).live ∧
      ∀ a, memByte t a = memByte s a)

/-- R279, R282, R283, R294, R295 (10): what lands at Lr. A multiply's cells are its starting cells (or zero) accumulated with
the products of its rows and columns, and its entry becomes valid; MCLR's cells and margins are zero; MLOAD's cells are
its source's elements, zero outside the filled region. No other tile changes.

R157, R277, R290, R296, R398, R448 (05, 10, 16, 19): the engine reads a line of an operand as memory has it in that cycle, and
poison in it is UNCORR; a member takes a line of B from its gang buffer, and where that does not hold it is late. MOUT reads the filled
cells of a row, or of every row when it transposes, and takes the others as zero; it writes each row converted, its columns as rows
when it transposes; and at Lr its destination has the tile's margins, or with MST 0 those of the cells, and a valid entry with MST 1. -/
def Obligations.MatrixResultsLand : Prop :=
  (∀ (g op : Nat) (m : MOp) (s : State), mopOf s g op = some m → anyArmed (coreOf s g) = false → m.tile < 8 →
    let c := coreOf s g
    let lands (cell : Nat → Nat → Word) (dir : Word) : Prop := ∃ t, exec (.matrixReadable g op) s = .next t ∧
      let k := coreOf t g
      (∀ i n, i < 64 → n < 64 → accCell k m.tile i n = cell i n) ∧ dirEntry k m.tile = dir ∧
      (∀ j i n, j ≠ m.tile → i < 64 → n < 64 → accCell k j i n = accCell c j i n) ∧ (∀ e, e ≠ m.tile → dirEntry k e = dirEntry c e) ∧
      k.live.s = c.live.s ∧ k.live.v = c.live.v ∧ (∀ h, h ≠ g → coreOf t h = coreOf s h) ∧ ∀ a, memByte t a = memByte s a
    (m.kind = 0 → m.late = false → (∀ l n st, m.gang = some (l, n, st) → n = 0) →
      lands (fun i n => BitVec.ofNat 64 (accumulate (mmInt m.fmt) (if m.z = true then 0 else (tabGet zeroAt m.cells (i * 64 + n)).toNat)
        ((aRows m).getD i [] |>.zipWith mulV ((bCols m 0).getD n [])))) (multiplyEntry c m)) ∧
    (m.kind = 1 → lands (fun _ _ => 0) (mkDir true m.fmt true 64 64 0) ∧
      ∀ t, exec (.matrixReadable g op) s = .next t → ∀ w, w < 256 → margWord (coreOf t g) m.tile w = 0) ∧
    (m.kind = 2 → lands (fun i n =>
        let x := if m.t = true then n else i
        let y := if m.t = true then i else n
        if x < m.nrow ∧ y < m.ncol then mloadCell m.fmt (lineElem m.fmt m.aLines 0 x y) else 0)
      (mkDir true (if m.fmt ≤ 6 ∨ 13 = m.fmt then 13 else 14) (dMst (dirEntry c m.tile)) (if m.t = true then m.ncol else m.nrow)
        (if m.t = true then m.nrow else m.ncol) 0)) ∧
    (∀ (start : Nat) (ps : List Val), accumulate true start ps =
      wrapInt 64 (signed 64 start + (ps.map intOfVal).sum))) ∧
  (∀ (g op : Nat) (m : MOp) (s : State) (d : Due), mopOf s g op = some m →
    let c := coreOf s g
    let goes (e : Ev) (ok : State → Prop) : Prop := d.ev = e → ∃ t, runEvent d s = .next t ∧ (∀ a, memByte t a = memByte s a) ∧ ok t
    let isLine (x : BitVec 512) (a : Nat) : Prop := ∀ k, k < 64 → x.extractLsb' (8 * k) 8 = memByte s (sliceAddr g (a + k))
    let member : Prop := ∃ l k st, m.gang = some (l, k, st) ∧ k ≠ 0
    let uncorr (t : State) (sub w arr : Nat) : Prop := Finds s t g 17 (fun f =>
      f.cls = 0x0B ∧ f.sub = sub ∧ f.addr = w ∧ f.detail = BitVec.ofNat 64 arr ∧ f.bundle = m.src.bundle)
    (∀ o l, o < 2 → (o = 1 → ¬ member) →
      let a := (if o = 0 then m.aOff else m.bOff) + 64 * l
      let offs := (List.range 64).map (a + ·)
      (poisonRead s g offs = none → goes (.engineRead g op o l) (fun t => ∃ q, mopOf t g op = some q ∧ (coreOf t g).found = c.found ∧
        isLine (tabGet zeroAt (if o = 0 then q.aLines else q.bLines) l) a ∧
        (∀ j, j ≠ l → tabGet zeroAt (if o = 0 then q.aLines else q.bLines) j = tabGet zeroAt (if o = 0 then m.aLines else m.bLines) j) ∧
        (if o = 0 then q.bLines = m.bLines else q.aLines = m.aLines))) ∧
      (∀ sub w arr, poisonRead s g offs = some (sub, w, arr) → c.run = .running →
        goes (.engineRead g op o l) (fun t => uncorr t sub w arr))) ∧
    (∀ l st k ld, m.gang = some (ld, k, st) → k ≠ 0 →
      (tabGet (fun _ => 0) c.gangTag l = st + 1 → l ∉ c.gangBad → goes (.engineRead g op 1 l) (fun t => ∃ q,
        mopOf t g op = some q ∧ q.late = m.late ∧ ∀ j, tabGet zeroAt q.bLines j = if j = l then tabGet zeroAt c.gangBuf l
          else tabGet zeroAt m.bLines j)) ∧
      (tabGet (fun _ => 0) c.gangTag l = st + 1 → l ∈ c.gangBad → c.run = .running →
        goes (.engineRead g op 1 l) (fun t => uncorr t 2 l 9)) ∧
      (tabGet (fun _ => 0) c.gangTag l ≠ st + 1 →
        goes (.engineRead g op 1 l) (fun t => ∃ q, mopOf t g op = some q ∧ q.late = true))) ∧
    (m.tile < 8 → cellBads c m.tile = [] → ∀ x, x < 64 →
      let w := dirEntry c m.tile
      goes (.moutRead g op x) (fun t => ∃ q, mopOf t g op = some q ∧ ∀ i n, i < 64 → n < 64 →
        tabGet zeroAt q.cells (i * 64 + n) =
          if m.t = true ∨ i = x then (if i < dRows w ∧ n < dCols w then accCell c m.tile i n else 0)
          else tabGet zeroAt m.cells (i * 64 + n))) ∧
    (anyArmed c = false → ∀ x, x < 64 → d.ev = .moutRow g op x → ∃ t ws, runEvent d s = .next t ∧
      ws.length = rowBytes m.fmt ∧ Writes s t (inSlice g ws) ∧ SameFiles s t ∧
      (∀ k, k < rowBytes m.fmt → (ws.getD k (0, 0)).1 = m.aOff + x * rowBytes m.fmt + k) ∧
      ∀ y, y < 64 → leNat (ws.map (·.2)) / 2 ^ (elemWidth m.fmt * y) % 2 ^ elemWidth m.fmt =
        moutCode m (dFmt (dirEntry c m.tile)) (tabGet zeroAt m.cells (if m.t = true then y * 64 + x else x * 64 + y)) %
          2 ^ elemWidth m.fmt) ∧
    (m.kind = 3 → anyArmed c = false → m.entry < 64 →
      let w := dirEntry c m.tile
      let ms := if dMst w = true then storedMargins c m.tile (marginKind (dFmt w)) else (moutGrid m (dFmt w)).margins
      let f := List.map (moutMargin (dFmt w) m.fmt)
      (dMst w = true → slotBads c m.tile = []) →
      ∃ t, exec (.matrixReadable g op) s = .next t ∧
        MarginsLanded t g m.entry (marginKind m.fmt) (if m.t = true then (f ms.2, f ms.1) else (f ms.1, f ms.2)) ∧
        dirEntry (coreOf t g) m.entry = mkDir true m.fmt true (if m.t = true then m.ncol else m.nrow)
          (if m.t = true then m.nrow else m.ncol) m.aOff ∧
        (coreOf t g).live.acc = c.live.acc ∧ (coreOf t g).live.s = c.live.s ∧ ∀ a, memByte t a = memByte s a))

/-- R285, R286, R297, R298, R381, R382, R393 (10, 16): what a check does at Lc. Margins that agree are counted and land with
MST 1, and margins asked for land; a check that fails and locates no element takes MARGIN of its tile.

R285, R387 to R390, R392 (10, 16): the check of a declared operand. Where MST was 0 at the issue its margins land, unless the
entry no longer names the sub-tile or a write has met it. Where it was 1 they are compared: an element that is located and restored
is rewritten in the slice, its margins land, it is counted and logged, and MARGIN 4 is raised; else MARGIN 3.

R285, R286, R292, R390, R391, R394 (10, 16): the check of a multiply or of a member's share, after those of its operands: the
result is compared with its prediction, counted, corrected where an element is located and restored, and its margins land. The first
of the leader's MARGIN 5, the operands' faults and its own is found; with none the gang's completion adds are due.

R286, R295, R296, R298, R390 (10, 16): the checks of MLOAD, MOUT and MCHK.sp at Lc: with MST 0 the margins formed land; with
MST 1 they are compared and counted; a located element is corrected, and any other disagreement is found as MARGIN. MLOAD's tile then
takes its own margins. That the entry's MST and margins are those at Lc, and that nothing happens where the entry no longer names the
tile, is assumption log 56, the model's choice. -/
def Obligations.MarginChecks : Prop :=
  (∀ (g op : Nat) (m : MOp) (s : State), mopOf s g op = some m → anyArmed (coreOf s g) = false →
    let c := coreOf s g
    let landed (t : State) (e : Nat) (mk : Nat) (ms : Margins) : Prop := MarginsLanded t g e mk ms
    let counted (t : State) : Prop := Compared s t g
    let quiet (t : State) : Prop := (coreOf t g).live.s = c.live.s ∧ (coreOf t g).live.v = c.live.v ∧ (coreOf t g).live.acc = c.live.acc ∧
      (coreOf t g).run = c.run ∧ (∀ h, h ≠ g → coreOf t h = coreOf s h) ∧ dues t = dues s ∧ ∀ a, memByte t a = memByte s a
    (m.kind = 0 → m.decls = [] → m.gang = none → cellBads c m.tile = [] →
      let fmt := resultFmt m.fmt
      let grid := tileGrid c m.tile fmt
      (runCheck grid grid.margins (predictions m).1 (resultTols (predictions m).2)).clean = true →
      ∃ t, exec (.marginCheck g op) s = .next t ∧ landed t m.tile (marginKind fmt) grid.margins ∧ counted t ∧ quiet t) ∧
    (m.kind = 4 → m.entry < 8 → cellBads c m.entry = [] →
      let fmt := dFmt (dirEntry c m.entry)
      ∃ t, exec (.marginCheck g op) s = .next t ∧
        landed t m.entry (marginKind fmt) (cellGrid c m.entry fmt m.nrow m.ncol).margins ∧ quiet t) ∧
    (m.kind = 4 → 8 ≤ m.entry → ∃ t, exec (.marginCheck g op) s = .next t ∧
      landed t m.entry (marginKind m.fmt) (readGrid m).margins ∧
      dirEntry (coreOf t g) m.entry = mkDir true m.fmt true m.nrow m.ncol m.aOff ∧ quiet t) ∧
    (m.kind = 5 → cellBads c m.tile = [] → slotBads c m.tile = [] →
      let w := dirEntry c m.tile
      let grid := cellGrid c m.tile (dFmt w) (dRows w) (dCols w)
      let r := runCheck grid grid.margins (storedMargins c m.tile (marginKind (dFmt w))) exactTols
      (dMst w = false → ∃ t, exec (.marginCheck g op) s = .next t ∧ landed t m.tile (marginKind (dFmt w)) grid.margins ∧ quiet t) ∧
      (dMst w = true → r.clean = true → ∃ t, exec (.marginCheck g op) s = .next t ∧ counted t ∧ quiet t ∧
        (coreOf t g).live.marg = c.live.marg ∧ (coreOf t g).live.dir = c.live.dir) ∧
      (dMst w = true → r.clean = false → r.fixed = none → c.run = .running → ∃ t, exec (.marginCheck g op) s = .next t ∧
        counted t ∧ Finds s t g 17 (fun f => f.cls = 0x0C ∧ f.sub = (if r.rows.length = 1 ∧ r.cols.length = 1 then 2 else 1) ∧
          f.bundle = m.src.bundle ∧ f.detail = marginDetail m.tile 0 r)) ∧
      (∀ i n x b, dMst w = true → r.fixed = some (i, n, x, b) → ∃ t, exec (.marginCheck g op) s = .next t ∧ counted t ∧
        accCell (coreOf t g) m.tile i n = BitVec.ofNat 64 x ∧
        (∀ k j l, (k, j, l) ≠ (m.tile, i, n) → j < 64 → l < 64 → i < 64 → n < 64 → accCell (coreOf t g) k j l = accCell c k j l) ∧
        landed t m.tile (marginKind (dFmt w)) r.margins ∧ Corrected s t g m.tile i n))) ∧
  (∀ (g : Nat) (m : MOp) (d : Nat × Nat × Nat × Word × List (BitVec 32)) (s : State),
    let fmt := mmTile m.fmt
    let e := d.2.2.1
    let base := (if d.1 = 0 then m.aOff else m.bOff) + mmStride m.fmt * d.2.1
    let w := dirEntry (coreOf s g) e
    let grid := subTile m d.1 d.2.1
    let r := runCheck grid grid.margins (marginsOf (marginKind fmt) d.2.2.2.2) (scratchTols fmt grid.val)
    let u := operandCheck s g m d
    let names : Prop := dValid w = true ∧ dBase w = base ∧ dFmt w = fmt ∧ m.dirty.contains e = false
    anyArmed (coreOf s g) = false → d.1 < 2 →
    (dMst d.2.2.2.1 = false → u.2 = [] ∧ (names → MarginsLanded u.1 g e (marginKind fmt) grid.margins) ∧ (¬ names → u.1 = s)) ∧
    (dMst d.2.2.2.1 = true → r.clean = true → u = (s, [])) ∧
    (dMst d.2.2.2.1 = true → r.clean = false → r.fixed = none →
      u.1 = s ∧ ∃ f, u.2 = [f] ∧ f.cls = 0x0C ∧ f.sub = 3 ∧ f.detail = marginDetail e (d.1 + 1) r) ∧
    (∀ i n x b, dMst d.2.2.2.1 = true → r.fixed = some (i, n, x, b) →
      ElemRestored s u.1 g base fmt i n x ∧ MarginsLanded u.1 g e (marginKind fmt) r.margins ∧ Corrected s u.1 g e i n ∧
      ∃ f, u.2 = [f] ∧ f.cls = 0x0C ∧ f.sub = 4 ∧ f.detail = marginDetail e (d.1 + 1) r)) ∧
  (∀ (g op : Nat) (m : MOp) (s : State), mopOf s g op = some m → anyArmed (coreOf s g) = false → m.kind = 0 →
    cellBads (coreOf s g) m.tile = [] → (coreOf s g).run = .running →
    let q := operandChecks s g m
    let fmt := resultFmt m.fmt
    let grid := tileGrid (coreOf q.1 g) m.tile fmt
    let pr := predictions m
    let r := runCheck grid grid.margins pr.1 (resultTols pr.2)
    let lead : Option (Nat × CheckRes) := match m.gang with
      | some (l, n, st) => if n ≠ 0 ∧ m.redone = false then leaderBad s l st else none
      | none => none
    ∃ t, exec (.marginCheck g op) s = .next t ∧ Compared s t g ∧
      (r.clean = true → MarginsLanded t g m.tile (marginKind fmt) r.margins) ∧
      (∀ i n x b, r.fixed = some (i, n, x, b) → accCell (coreOf t g) m.tile i n = BitVec.ofNat 64 x ∧
        MarginsLanded t g m.tile (marginKind fmt) r.margins) ∧
      (∀ e b, lead = some (e, b) → Finds s t g 17 (fun f => f.cls = 0x0C ∧ f.sub = 5 ∧ f.detail = marginDetail e 2 b)) ∧
      (∀ f l, lead = none → q.2 = f :: l → Finds s t g 17 (fun x => x = f)) ∧
      (lead = none → q.2 = [] → r.clean = false → r.fixed = none → Finds s t g 17 (fun f =>
        f.cls = 0x0C ∧ f.sub = (if r.rows.length = 1 ∧ r.cols.length = 1 then 2 else 1) ∧ f.detail = marginDetail m.tile 0 r)) ∧
      (∀ i n x b, lead = none → q.2 = [] → r.fixed = some (i, n, x, b) → seenRow s g op i = true →
        Finds s t g 17 (fun f => f.cls = 0x0C ∧ f.sub = 6 ∧ f.detail = marginDetail m.tile 0 r)) ∧
      (lead = none → q.2 = [] → (r.clean = true ∨ ∃ i n x b, r.fixed = some (i, n, x, b) ∧ seenRow s g op i = false) →
        (coreOf t g).found = (coreOf s g).found ∧
        ∀ off l n st, m.bar = some off → m.gang = some (l, n, st) → (coreOf s g).pass.added.contains st = false →
          ∀ x ∈ m.members, (clkOf s x.1, cnow s g + intraCores s g x.1, .instr (.gangCompletionAdd g x.1 off)) ∈ dues t)) ∧
  (∀ (g op : Nat) (m : MOp) (s : State), mopOf s g op = some m → anyArmed (coreOf s g) = false → (coreOf s g).run = .running →
    let c := coreOf s g
    let e := m.entry
    let w := dirEntry c e
    let goes (ok : State → Prop) : Prop := Goes (.marginCheck g op) s ok
    let same : Prop := dValid w = true ∧ dBase w = m.aOff ∧ dFmt w = m.fmt
    let grid := readGrid m
    let mk := marginKind m.fmt
    let r := runCheck grid grid.margins (storedMargins c e mk) (scratchTols m.fmt grid.val)
    let kind := if marginFloat mk = true then 13 else 14
    let own := (tileGrid c m.tile kind).margins
    (m.kind = 6 → (¬ same → exec (.marginCheck g op) s = .next s) ∧
      (same → dMst w = false → goes (fun t => MarginsLanded t g e mk grid.margins)) ∧
      (same → dMst w = true → slotBads c e = [] →
        (r.clean = true → goes (fun t => Compared s t g ∧ (coreOf t g).live = c.live ∧ (coreOf t g).found = c.found)) ∧
        (r.clean = false → r.fixed = none → goes (fun t => Compared s t g ∧
          Finds s t g 17 (fun f => f.cls = 0x0C ∧ f.sub = (if r.rows.length = 1 ∧ r.cols.length = 1 then 2 else 1) ∧
            f.detail = marginDetail e 3 r))) ∧
        ∀ i n x b, r.fixed = some (i, n, x, b) → goes (fun t => Compared s t g ∧ ElemRestored s t g m.aOff m.fmt i n x ∧
          MarginsLanded t g e mk r.margins ∧ Corrected s t g e i n))) ∧
    (m.kind = 2 → 8 ≤ e → m.tile < 8 → c.found = [] → cellBads c m.tile = [] →
      (m.chk = false ∨ ¬ same → goes (fun t => MarginsLanded t g m.tile (marginKind kind) own)) ∧
      (m.chk = true → same → dMst w = false →
        goes (fun t => MarginsLanded t g e mk grid.margins ∧ MarginsLanded t g m.tile (marginKind kind) own)) ∧
      (m.chk = true → same → dMst w = true → slotBads c e = [] →
        (r.clean = true → goes (fun t => Compared s t g ∧ MarginsLanded t g m.tile (marginKind kind) own)) ∧
        (r.clean = false → r.fixed = none → goes (fun t => Compared s t g ∧
          Finds s t g 17 (fun f => f.cls = 0x0C ∧ f.sub = 3 ∧ f.detail = marginDetail e 1 r))) ∧
        ∀ i n x b, r.fixed = some (i, n, x, b) → goes (fun t => Compared s t g ∧ ElemRestored s t g m.aOff m.fmt i n x ∧
          MarginsLanded t g e mk r.margins ∧ Corrected s t g e i n ∧
          accCell (coreOf t g) m.tile (if m.t = true then n else i) (if m.t = true then i else n) = mloadCell m.fmt x))) ∧
    (m.kind = 3 → let v := dirEntry c m.tile
      let out := moutGrid m (dFmt v)
      let q := runCheck out out.margins (storedMargins c m.tile (marginKind (dFmt v))) exactTols
      (dMst v = false → goes (fun t => MarginsLanded t g m.tile (marginKind (dFmt v)) out.margins)) ∧
      (dMst v = true → slotBads c m.tile = [] →
        (q.clean = true → goes (fun t => Compared s t g ∧ (coreOf t g).live = c.live ∧ (coreOf t g).found = c.found)) ∧
        (q.clean = false → q.fixed = none → goes (fun t => Compared s t g ∧ Finds s t g 17 (fun f =>
          f.cls = 0x0C ∧ f.sub = (if q.rows.length = 1 ∧ q.cols.length = 1 then 2 else 1) ∧ f.detail = marginDetail m.tile 0 q))) ∧
        ∀ i n x b, q.fixed = some (i, n, x, b) → goes (fun t => Compared s t g ∧
          accCell (coreOf t g) m.tile i n = BitVec.ofNat 64 x ∧ MarginsLanded t g m.tile (marginKind (dFmt v)) q.margins ∧
          Corrected s t g m.tile i n ∧
          ElemRestored s t g m.aOff m.fmt (if m.t = true then n else i) (if m.t = true then i else n)
            (moutCode m (dFmt v) (BitVec.ofNat 64 x))))))

/-- R289, R290, R447, R448 (10, 19): a member begins its share of a ganged multiply: its own rows of A, the leader's B by the
gang buffer; its cells land at Lr and with C its check at Lc. -/
def Obligations.MemberShareBegins : Prop :=
  ∀ (g st leader : Nat) (m : MOp) (s : State),
    let c := coreOf s g
    let k := ((m.members.find? (fun x => x.1 = g)).map (·.2.1)).getD 0
    let o := shareOp s g leader k m
    c.run = .running → inhibited c = false → (c.pass.shares.all (fun x => decide ((x.2.gang.map (·.2.2)) ≠ some st))) = true →
    streamOf s st = some (leader, m) → shareFaults s g o = [] →
    ∃ t x, exec (.memberShareStart g st) s = .next t ∧ x ∈ (coreOf t g).mops ∧
      (x.kind = 0 ∧ x.gang = some (leader, k, m.id) ∧ x.c = cnow s g ∧ x.p = m.p ∧ x.tile = m.tile ∧ x.fmt = m.fmt ∧
        x.aOff = m.aOff ∧ x.z = m.z ∧ x.chk = m.chk) ∧
      (clkOf s g, x.c + 78 * x.p + x.st, .instr (.matrixReadable g x.id)) ∈ dues t ∧
      (m.chk = true → (clkOf s g, x.c + 86 * x.p + x.st, .instr (.marginCheck g x.id)) ∈ dues t) ∧
      (∀ l, l < 128 → (clkOf s g, x.c + 64 * l / 128 * x.p, .engineRead g x.id 0 l) ∈ dues t) ∧
      (∃ q ∈ (coreOf t g).pass.shares, q.1 = cnow s g - c.pass.m) ∧
      (coreOf t g).live = c.live ∧ (∀ h, h ≠ g → coreOf t h = coreOf s h) ∧ ∀ a, memByte t a = memByte s a

/-- R97, R179, R180, R316, R317, R418 (03, 06, 11, 17): lines land in a code window and become valid; a piece of HCPY moves
between a slice and the host window, or where the host fails it poisons the bytes it should have filled, and the last completes the transfer, whose sectors raise the channel's watermark in the order
of identifiers; a queued access takes place in a service window or, but for one of staging (R341, R342), while frozen, and at no other
time, and not while a save, a restore or a survey uses the arrays. That a get's bytes are those of the cycle in which it is written is
assumption log 19, the model's reading. -/
def Obligations.ServiceMoves : Prop :=
  ∀ (h op k : Nat) (x : Xfer) (s : State),
    (xferOf s op = some x → x.cancelled = false → anyArmed (coreOf s h) = false →
      ∀ bs bad, pieceData x k = some (bs, bad) → bs.length = 64 → Goes (.codeFillLanding h op k) s (fun t =>
        (∀ j, j < 16 → let w := (x.entry + 64 * k) / 4 + j
          tabGet zeroAt (coreOf t h).code w = BitVec.ofNat 32 (leNat ((bs.drop (4 * j)).take 4)) ∧
          tabGet (fun _ => false) (coreOf t h).codeValid w = true) ∧
        (∀ w, (∀ j, j < 16 → w ≠ (x.entry + 64 * k) / 4 + j) → tabGet zeroAt (coreOf t h).code w = tabGet zeroAt (coreOf s h).code w ∧
          tabGet (fun _ => false) (coreOf t h).codeValid w = tabGet (fun _ => false) (coreOf s h).codeValid w) ∧
        (coreOf t h).live = (coreOf s h).live ∧ (∀ g, g ≠ h → coreOf t g = coreOf s g) ∧ Writes s t [])) ∧
    (xferOf s op = some x → anyArmed (coreOf s x.g) = false →
      let p := x.pieces.getD k (0, 0, 0, 0)
      let host := hostAddr (busAddr s x.g p.2.2.1)
      let from_ := memBytes s (if x.put = true then sliceAddr x.g p.1 else host) p.2.2.2
      let to_ (i : Nat) : Nat := if x.put = true then host + i else sliceAddr x.g (p.1 + i)
      k < x.pieces.length → p.1 < 2 ^ 21 →
      let fails := x.put = false ∧ hostFailed s x k = true
      Goes (.hcpyPiece op k) s (fun t => SameFiles s t ∧
        (¬ fails → Writes s t ((List.range p.2.2.2).map (fun i => (to_ i, from_.getD i 0)))) ∧
        (fails → Writes s t [] ∧ ∀ i, i < p.2.2.2 → badAt t (sliceAddr x.g (p.1 + i)) = 1000) ∧
        (k + 1 = x.pieces.length → xferOf t op = none ∧
          ∀ q, partOfCore s x.g = some q → (partOf s q).chanPend = [] →
            let w := tabGet zeroAt (partOf s q).chans x.chan
            x.hcid = (fieldOf w 32 32 + 1) % 2 ^ 32 →
            tabGet zeroAt (partOf t q).chans x.chan = BitVec.ofNat 64 ((fieldOf w 0 32 + x.sectors) % 2 ^ 32 + x.hcid * 2 ^ 32)))) ∧
    (let open_ (staging : Bool) : Prop := contextBusy s h = false ∧ surveyRuns s h = false ∧
       (∀ p, partOfCore s h = some p → if (partOf s p).live = true then inWindow (partOf s p).tide = true else staging = false) ∧
       (partOfCore s h = none → staging = false ∨ inWindow s.now = true)
     ((coreOf s h).svc = [] → exec (.serviceAccess h) s = .next s) ∧
     (∀ off bytes tag staging rest, (coreOf s h).svc = .write off bytes tag staging :: rest → ¬ open_ staging →
       exec (.serviceAccess h) s = .next s) ∧
     (∀ a rest, (coreOf s h).svc = a :: rest → (∀ off bytes tag staging, a ≠ .write off bytes tag staging) → ¬ open_ false →
       exec (.serviceAccess h) s = .next s) ∧
     (∀ (off : Nat) (bytes : List Byte) (tag : Nat) (staging : Bool) (rest : List Svc), (coreOf s h).svc = .write off bytes tag staging :: rest →
       open_ staging → svcFree s h off false = true →
       Goes (.serviceAccess h) s (fun t => (coreOf t h).svc = rest ∧ SameFiles s t ∧
         Writes s t ((List.range bytes.length).map (fun i => (sliceAddr h (off + i), bytes.getD i 0))))) ∧
     (∀ (off cc reg : Nat) (rest : List Svc), (coreOf s h).svc = .read off cc reg :: rest →
       open_ false → svcFree s h off true = true → anyArmed (coreOf s cc) = false → reg < 32 →
       Goes (.serviceAccess h) s (fun t => (coreOf t h).svc = rest ∧ Writes s t [] ∧
         ReadsAs s (sliceAddr h off) 8 (sReg (coreOf t cc) reg) ∧ ∀ r, r ≠ reg → sReg (coreOf t cc) r = sReg (coreOf s cc) r)))

/-- R168, R170, R171, R326, R354, R363, R371, R378, R416, R417 (06, 11, 15, 17): a staged write at its landing. A stack writes it.
A core of the sender's partition keeps a record of each line it touches and writes it under the sender's owner tag; what a home
refuses changes no byte and its sender is told; what a recalled instance sends changes nothing; a SEND to a receive slot that is
not armed is OPERAND 3 at its sender, which finds it at the landing (assumption log 34, the model's reading); one that comes late is
refused. A landing that meets another one comes a cycle later; in a recovery run, one that meets another or the core's own access waits
in the landing buffer (assumption log 56, the model's choice). The line is the unit of undo by assumption log 33, the model's
reading.

R173, R363, R416, R424, R425 (06, 15, 17): a commit flit whose count of records is right, with those of landings that are due and
wait for a port (dueRecs), commits its instance; one whose count is wrong has the instance undone and its sender told; one that its home refuses, or that came bad, commits nothing and its
sender is told. A recall flit undoes its instance, unless its home refuses it. Undoing a single record gives its line the bytes
and the owner tag it had. -/
def Obligations.StagedWrites : Prop :=
  (∀ (id : Nat) (f : Flit) (s : State), flitOf s id = some f →
    let h := f.home
    let c := coreOf s h
    (f.st = 4 → isStack h = true ∨ c.recalled.contains f.inst = false → ∀ ws bad e, f.load = .write ws bad e → ws ≠ [] →
      Goes (.stagedWriteLanding id) s (fun t => Writes s t [] ∧ flitOf t id = none ∧ Told s t f 3)) ∧ (f.st = 0 →
    (∀ ws bad e, isStack h = true → f.load = .write ws bad e → Goes (.stagedWriteLanding id) s (fun t =>
      Writes s t ws ∧ t.cores = s.cores ∧ flitOf t id = none)) ∧
    (∀ w ws bad e, isStack h = false → landedBytes s h f.load = some (w :: ws, bad, e) →
      (foreignHome s f = true ∨ Free s h w.1 false (coreOf s f.core).soft → anyArmed c = false →
        c.recalled.contains f.inst = false → refusal s f (linesOf (w.1 :: ws.map (·.1))).length = none →
        Goes (.stagedWriteLanding id) s (fun t => Writes s t (inSlice h (w :: ws)) ∧ SameFiles s t ∧ flitOf t id = none ∧
          (∀ x ∈ w :: ws, tagOf t (sliceAddr h x.1) = f.tag) ∧
          ∀ l ∈ linesOf (w.1 :: ws.map (·.1)), ∃ z ∈ (coreOf t h).zone, z.inst = f.inst ∧ z.line = l ∧ z.merge = none ∧
            z.prior = BitVec.ofNat 512 (leNat (memBytes s (sliceAddr h (64 * l)) 64)) ∧ z.priorTag = tagOf s (sliceAddr h (64 * l)))) ∧
      (c.recalled.contains f.inst = false → ∀ r, refusal s f (linesOf (w.1 :: ws.map (·.1))).length = some r →
        Goes (.stagedWriteLanding id) s (fun t => Writes s t [] ∧ (coreOf t h).zone = c.zone ∧ flitOf t id = none ∧ Told s t f r)) ∧
      (c.recalled.contains f.inst = true → Goes (.stagedWriteLanding id) s (fun t =>
        Writes s t [] ∧ (coreOf t h).zone = c.zone ∧ flitOf t id = none))) ∧
    (∀ w ws bad e, isStack h = false → landedBytes s h f.load = some (w :: ws, bad, e) → foreignHome s f = false →
      c.recalled.contains f.inst = false → refusal s f (linesOf (w.1 :: ws.map (·.1))).length = none →
      let met := landingTaken c (bankOf w.1) (cnow s h)
      (met = true ∨ ownTaken c (bankOf w.1) (w.1 / 64) (cnow s h) false = true → defers s h (coreOf s f.core).soft = true →
        Goes (.stagedWriteLanding id) s (fun t => Writes s t [] ∧
          (coreOf t h).deferred = c.deferred ++ [(cnow s h, .stagedWriteLanding id)] ∧
          (clkOf s h, cnow s h + 1, .instr (.deferredLanding h)) ∈ dues t)) ∧
      (met = true → defers s h (coreOf s f.core).soft = false → Goes (.stagedWriteLanding id) s (fun t => Writes s t [] ∧
        (clkOf s h, cnow s h + 1, .instr (.stagedWriteLanding id)) ∈ dues t))) ∧
    (∀ n l bs bad x, isStack h = false → f.load = .slot n l bs bad → (tabGet zeroAt c.recv n).getLsbD 63 = false →
      f.src = some x → (coreOf s x.core).run = .running → (coreOf s x.core).pass.id.serial = x.serial →
      Goes (.stagedWriteLanding id) s (fun t => Writes s t [] ∧ Finds s t x.core 17 (fun r => r.cls = 0x0A ∧ r.sub = 3 ∧
        r.slot = x.slot ∧ r.bundle = x.bundle ∧ r.cmd = x.cmd ∧ r.piece = l ∧
        ∀ y, s.xfers.find? (fun y => y.g = x.core && y.kind = 6 && some y.opno = f.ref.map (·.opno)) = some y →
          r.extent = ((y.pieces.drop l).map (fun q => q.2.2.2)).sum))))) ∧
  (∀ (id : Nat) (f : Flit) (s : State) (inst : PassId), flitOf s id = some f →
    let h := f.home
    let c := coreOf s h
    let mine := c.zone.filter (fun z => z.inst = inst)
    let made := mine.length + dueRecs (dropFlit s id) h inst
    let undone (t : State) : Prop := (∀ z ∈ (coreOf t h).zone, z.inst ≠ inst) ∧ inst ∈ (coreOf t h).recalled ∧
      ∀ z, mine = [z] → z.merge = none →
        (∀ k, k < 64 → memByte t (sliceAddr h (64 * z.line) + k) = BitVec.ofNat 8 (z.prior.toNat / 2 ^ (8 * k))) ∧
        tagOf t (sliceAddr h (64 * z.line)) = z.priorTag ∧
        ∀ a, a / 64 ≠ sliceAddr h (64 * z.line) / 64 → memByte t a = memByte s a
    let nothing (t : State) : Prop := Writes s t [] ∧ SameFiles s t ∧ (coreOf t h).zone = c.zone ∧
      (coreOf t h).commits = c.commits ∧ flitOf t id = none
    (∀ n, f.load = .commit inst n → f.st ≠ 3 → refusal s f 0 = none → c.recalled.contains inst = false →
      (made = n → Goes (.commitFlitLanding id) s (fun t => Writes s t [] ∧ SameFiles s t ∧
        (coreOf t h).zone = c.zone ∧ (coreOf t h).commits = c.commits ++ [(inst, cnow s h)] ∧ flitOf t id = none)) ∧
      (made ≠ n → Goes (.commitFlitLanding id) s (fun t => undone t ∧
        (inst, cnow s h) ∈ (coreOf t h).commits ∧ Told s t f 4))) ∧
    (∀ n, f.load = .commit inst n →
      (f.st = 3 → Goes (.commitFlitLanding id) s (fun t => nothing t ∧ Told s t f 0)) ∧
      (f.st ≠ 3 → ∀ r, refusal s f 0 = some r → Goes (.commitFlitLanding id) s (fun t => nothing t ∧ Told s t f r)) ∧
      (f.st ≠ 3 → refusal s f 0 = none → c.recalled.contains inst = true → Goes (.commitFlitLanding id) s nothing)) ∧
    (f.load = .recall inst → refusal s f 0 = none → Goes (.recallFlitLanding id) s (fun t => undone t ∧ flitOf t id = none)) ∧
    (f.load = .recall inst → refusal s f 0 ≠ none → Goes (.recallFlitLanding id) s nothing))

/-- R95, R158, R176, R292, R323, R325, R329, R351, R364, R416 (04, 05, 06, 10, 11, 14, 17): a remote read's data depart with
the bytes of the home; RATOM, the elements of a released line and a gang's completion reach the home's bank ALU, which reads
the old value in the landing's cycle, where a poisoned word is found, and writes the new one two cycles on; a RATOM's old value
departs then, and a failed comparison withdraws the DRAIN after it. A request that its home refuses, or that comes late, is told to its
sender. That a RATOM's record is made at its landing is assumption log 56, the model's choice; that those of all the elements of a line
are made at the flit's landing is log 33, the model's reading. -/
def Obligations.HomeOperations : Prop :=
  ∀ (id g off : Nat) (f : Flit) (s : State),
    let begins (t : State) (h o w op : Nat) (x y : Word) (inst : Option PassId) (mg : Option (Nat × Word)) : Prop :=
      ∃ b ∈ t.bops, b.g = h ∧ b.off = o ∧ b.w = w ∧ b.op = op ∧ b.x = x ∧ b.y = y ∧ b.inst = inst ∧ b.merge = mg ∧
        (clkOf s h, cnow s h, .aluRead b.id) ∈ dues t ∧ (clkOf s h, cnow s h + 2, .instr (.bankAluWrite b.id)) ∈ dues t
    (flitOf s id = some f → f.st = 4 → (∀ ga w sq, f.load = .readReq ga w sq →
        Goes (.remoteRead id) s (fun t => Writes s t [] ∧ SameFiles s t ∧ flitOf t id = none ∧ Told s t f 3)) ∧
      ((coreOf s f.home).recalled.contains f.inst = false →
        (∀ o op w x y sq, f.load = .atom o op w x y sq → Goes (.ratomLanding id) s (fun t =>
          Writes s t [] ∧ SameFiles s t ∧ t.bops = s.bops ∧ Told s t f 3)) ∧
        (∀ op w es, f.load = .merge op w es → Goes (.reductionMerge id 0) s (fun t =>
          Writes s t [] ∧ SameFiles s t ∧ t.bops = s.bops ∧ Told s t f 3)))) ∧
    (flitOf s id = some f → f.st = 0 →
      let h := f.home
      let c := coreOf s h
      let welcome (n : Nat) : Prop := c.recalled.contains f.inst = false ∧ refusal s f n = none
      let lands (o : Nat) : Prop := foreignHome s f = true ∨ Free s h o true (coreOf s f.core).soft
      (∀ ga w sq, f.load = .readReq ga w sq → w ≤ 8 → (isStack h = false → refusal s f 0 = none) →
        Goes (.remoteRead id) s (fun t => Writes s t [] ∧ SameFiles s t ∧ ∃ r ∈ t.flits, ∃ v bad, ReadsAs s ga w v ∧
          r.load = .reply sq v bad ∧ r.home = f.core ∧ r.dep = cnow s f.core + (if isStack h = true then 0 else 1) ∧
          r.land = (match (coreOf s f.core).waits.find? (fun w => w.1 = sq) with
            | some x => if isStack h = true then x.2.2.1 else r.dep + f.lback
            | none => r.dep + f.lback) ∧
          (clkOf s f.core, r.dep, .instr (.linkFlit r.id 0)) ∈ dues t)) ∧
      (∀ ga w sq r, f.load = .readReq ga w sq → isStack h = false → refusal s f 0 = some r →
        Goes (.remoteRead id) s (fun t => Writes s t [] ∧ SameFiles s t ∧ flitOf t id = none ∧ Told s t f r)) ∧
      (∀ o op w x y sq, f.load = .atom o op w x y sq →
        (lands o → welcome 1 → Goes (.ratomLanding id) s (fun t => Writes s t [] ∧ SameFiles s t ∧
          begins t h o w op x y (some f.inst) none ∧ ∃ z ∈ (coreOf t h).zone, z.inst = f.inst ∧ z.line = o / 64 ∧ z.merge = none)) ∧
        (c.recalled.contains f.inst = false → ∀ r, refusal s f 1 = some r → Goes (.ratomLanding id) s (fun t =>
          Writes s t [] ∧ SameFiles s t ∧ t.bops = s.bops ∧ (coreOf t h).zone = c.zone ∧ Told s t f r))) ∧
      (∀ op w o x es, f.load = .merge op w ((o, x) :: es) →
        (welcome (es.length + 1) → Free s h o true (coreOf s f.core).soft →
          Goes (.reductionMerge id 0) s (fun t => Writes s t [] ∧ SameFiles s t ∧
            begins t h o w op x 0 (some f.inst) (some (op, x)) ∧
            (∀ e ∈ (o, x) :: es, ∃ z ∈ (coreOf t h).zone, z.inst = f.inst ∧ z.merge = some (op, w, e.1, e.2)) ∧
            ∀ i, i < es.length → (clkOf s h, cnow s h + 1 + i, .instr (.reductionMerge id (i + 1))) ∈ dues t)) ∧
        (c.recalled.contains f.inst = false → ∀ r, refusal s f (es.length + 1) = some r → Goes (.reductionMerge id 0) s (fun t =>
          Writes s t [] ∧ SameFiles s t ∧ t.bops = s.bops ∧ (coreOf t h).zone = c.zone ∧ Told s t f r)))) ∧
    (∀ h, Free s h off true false → Goes (.gangCompletionAdd g h off) s (fun t => Writes s t [] ∧ SameFiles s t ∧
      begins t h off 4 0 1 0 none none)) ∧
    (∀ b, s.bops.find? (fun b => b.id = id) = some b → b.w ≤ 8 →
      (∃ v, ReadsAs s (sliceAddr b.g b.off) b.w v ∧ ∀ d : Due, d.ev = .aluRead id → ∃ t, runEvent d s = .next t ∧
        (∀ y ∈ t.bops, y.id = id → y.old = v ∧ y.new = aluOp y.op y.w v y.x y.y) ∧
        ∀ r, poisonRead s b.g ((List.range b.w).map (b.off + ·)) = some r → (coreOf s b.g).run = .running →
          Finds s t b.g 17 (fun q => q.cls = 0x0B ∧ q.sub = r.1 ∧ q.addr = r.2.1)) ∧
      ((∃ i, b.inst = some i ∧ (coreOf s b.g).recalled.contains i = true) ∨ builtIn (coreOf s b.g) b = true →
        Goes (.bankAluWrite id) s (fun t => SameFiles s t ∧ (∀ y ∈ t.bops, y.id ≠ id) ∧ Writes s t [])) ∧
      (b.bad = false → (∀ i, b.inst = some i → (coreOf s b.g).recalled.contains i = false) → builtIn (coreOf s b.g) b = false →
        anyArmed (coreOf s b.g) = false →
        Goes (.bankAluWrite id) s (fun t => SameFiles s t ∧ (∀ y ∈ t.bops, y.id ≠ id) ∧
          Writes s t ((List.range b.w).map (fun k => (sliceAddr b.g (b.off + k), BitVec.ofNat 8 (b.new.toNat / 2 ^ (8 * k))))) ∧
          (∀ x, b.src = some x → x.serial = (coreOf s b.g).pass.id.serial →
            ∃ u ∈ (coreOf t b.g).pass.undo, u.off = b.off / 64 * 64) ∧
          (∀ r, b.op = 10 → b.old.toNat ≠ b.y.toNat % 2 ^ (8 * b.w) → b.ref = some r →
            ∀ d ∈ (coreOf t r.core).draining, d.1 ≠ r.opno + 4) ∧
          ∀ dst sq lback path, b.back = some (dst, sq, lback, path) → ∃ r ∈ t.flits, r.home = dst ∧ r.dep = cnow s b.g ∧
            r.land = cnow s b.g + lback ∧ ∃ bad, r.load = .reply sq b.old bad)))

/-- R104, R406, R414 to R417 (03, 16, 17): a flit on its way. When it departs, its landing is due at its home at its
cycle, on the home's clock where its sender's partition has the home and runs a job, else on the sender's (the model's
choice, log entry 18), and at a stack on the package's; it crosses one healthy link after the other; at the end a piece waits in
the buffer of its transfer. At a dead link it goes no further and DEAD is on its way to its sender; a flit that a link loses is
found lost, its sender is told, and a link that loses four within a tide, or 64 one after the other (for R415's consecutive slots,
assumption log 56, the model's choice), is dead. One that a link spoils, or delays past its slack on the last hop, is marked, with all
that share its journey; returning data so delayed are lost, and a piece of a put is refused. -/
def Obligations.FlitsTravel : Prop :=
  ∀ (id k : Nat) (f : Flit) (s : State), flitOf s id = some f →
    let clk := match partOfCore s f.home with
      | some p => if isStack f.home = false ∧ p % 8 = f.tag / 512 ∧ 3 ≤ (partOf s p).state then some p else clkOf s f.core
      | none => clkOf s f.core
    let lands : Option Ev := match f.load with
      | .write .. | .slot .. => some (.instr (.stagedWriteLanding id))
      | .merge .. => some (.instr (.reductionMerge id 0))
      | .readReq .. => some (.instr (.remoteRead id))
      | .atom .. => some (.instr (.ratomLanding id))
      | .commit .. => some (.instr (.commitFlitLanding id))
      | .recall .. => some (.instr (.recallFlitLanding id))
      | .reply .. => some (.reply id)
      | .stream .. => some (.streamArrive id)
      | .piece .. => none
    let alive (h : Hop) : Prop := (pkgOf s (h.unit / 4096)).dead.contains (h.unit % 4096) = false
    let healthy (h : Hop) : Prop := alive h ∧ (linkInjectAll s (h.unit / 4096) (h.unit % 4096) h.dir).2 = none
    let gone (t : State) : Prop := ∀ e ∈ dues t, landsFlit id e.2.2 = false
    ((f.lanes = false → ∀ h, f.path[0]? = some h → healthy h) → Goes (.linkFlit id 0) s (fun t => Writes s t [] ∧ t.cores = s.cores ∧
      ∀ e, lands = some e →
        ((match f.load with
          | .write .. | .readReq .. => isStack f.home
          | _ => false) = true → (none, s.now + (f.land - cnow s f.core), e) ∈ dues t) ∧
        ((match f.load with
          | .write .. | .readReq .. => isStack f.home
          | _ => false) = false → (clk, timeOn s clk + (f.land - cnow s f.core), e) ∈ dues t))) ∧
    (∀ op j bs bad x, f.load = .piece op j bs bad → f.st ≠ 3 → xferOf s op = some x →
      (f.lanes = false → ∀ h, f.path[k]? = some h → healthy h ∧ k + 1 = f.path.length) →
      Goes (.linkFlit id k) s (fun t => flitOf t id = none ∧ ∃ y b, xferOf t op = some y ∧ pieceData y j = some (bs, b))) ∧
    (∀ h, f.lanes = false → f.path[k]? = some h →
      (healthy h → k + 1 < f.path.length →
        Goes (.linkFlit id k) s (fun t => (none, s.now + h.lat, .instr (.linkFlit id (k + 1))) ∈ dues t)) ∧
      (¬ alive h → Goes (.linkFlit id k) s (fun t => gone t ∧ Told s t f 1)) ∧
      (∀ bit dly, alive h → (linkInjectAll s (h.unit / 4096) (h.unit % 4096) h.dir).2 = some (1, bit, dly) →
        Goes (.linkFlit id k) s (fun t => gone t ∧ (none, s.now + 2 * h.lat + 4, .instr (.flitLost id)) ∈ dues t)) ∧
      (∀ bit dly, alive h → (linkInjectAll s (h.unit / 4096) (h.unit % 4096) h.dir).2 = some (0, bit, dly) →
        bit < 512 ∨ (576 ≤ bit ∧ bit < 608) → lands ≠ none →
        Goes (.linkFlit id k) s (fun t => ∀ y ∈ t.flits, y.lead = id → y.st = 3)) ∧
      (∀ bit dly, alive h → (linkInjectAll s (h.unit / 4096) (h.unit % 4096) h.dir).2 = some (2, bit, dly) →
        k + 1 < f.path.length ∨ ((∃ q v b, f.load = .reply q v b) ∨ ∃ c op o bs, f.load = .stream c op o bs) ∧
          (f.land - f.dep) - (f.path.map (·.lat)).sum < dly →
        Goes (.linkFlit id k) s (fun t => gone t ∧ (none, s.now + 2 * h.lat + 4, .instr (.flitLost id)) ∈ dues t)) ∧
      (∀ bit dly, alive h → (linkInjectAll s (h.unit / 4096) (h.unit % 4096) h.dir).2 = some (2, bit, dly) →
        k + 1 = f.path.length → (f.land - f.dep) - (f.path.map (·.lat)).sum < dly →
        (∀ op j bs bad, f.load = .piece op j bs bad → f.home ≠ f.core → Goes (.linkFlit id k) s (fun t =>
          flitOf t id = none ∧ Told s t f 3)) ∧
        (lands ≠ none → (∀ q v b, f.load ≠ .reply q v b) → (∀ c op o bs, f.load ≠ .stream c op o bs) →
          Goes (.linkFlit id k) s (fun t => ∀ y ∈ t.flits, y.lead = id → y.st = 4)))) ∧
    (Goes (.flitLost id) s (fun t => Told s t f 0 ∧ ∀ h, f.path[f.st / 16]? = some h →
      let lost := (pkgOf s (h.unit / 4096)).lost.filter (fun x => x.1 = h.unit % 4096)
      (lost = [] → (pkgOf t (h.unit / 4096)).dead = (pkgOf s (h.unit / 4096)).dead) ∧
      (lost ≠ [] → (∀ x ∈ lost, (x.2.1 = s.now / 4096 ∧ 3 ≤ x.2.2.1) ∨ 63 ≤ x.2.2.2) →
        (pkgOf t (h.unit / 4096)).dead.contains (h.unit % 4096) = true)))

/-- R330, R377, R417, R418, R420 to R423, R425 (11, 15, 17): a notice that lands is counted and kept for DRAIN, and counted as
late when a DRAIN of its scope has completed; a commit it tells as lost departs again within a horizon; a result that has not
come by its landing is TIMING; a DRAIN none of whose operations meets a failed peer completes when it is decided, else after the
horizon of its scope; its status word lands and takes the notices and the operations of its scope, but for a DRAIN that an
order places, which reports nothing (assumption log 56, the model's choice); one that meets another landing or a full port lands a
free value (log 3 and 43, the model's choices). The notice of a gang's stream counts in TOTAL alone. A change of the peer sets reaches
every core of the partition; a package or core that is lost becomes a failed peer of the job's partitions, which freeze. -/
def Obligations.NoticesAndPeers : Prop :=
  ∀ (id g n p : Nat) (x : Peer) (own : Option Src) (s : State),
    (∀ y, s.notes.find? (fun z => z.id = id) = some y →
      let c := coreOf s y.ref.core
      Goes (.noticeLanding id) s (fun t => SameFiles s t ∧ Writes s t [] ∧
        fieldOf (sysGet (coreOf t y.ref.core) 0x450) 32 32 = (fieldOf (sysGet c 0x450) 32 32 + 1) % 2 ^ 32 ∧
        (y.ref.opno % 16 = 15 → (coreOf t y.ref.core).notices = c.notices ∧
          fieldOf (sysGet (coreOf t y.ref.core) 0x450) 16 16 = fieldOf (sysGet c 0x450) 16 16) ∧
        (y.ref.opno % 16 ≠ 15 → (coreOf t y.ref.core).notices = c.notices ++ [{ y with resend := none }] ∧
          fieldOf (sysGet (coreOf t y.ref.core) 0x450) 16 16 = (if ∃ d ∈ c.drains, homeScope y.ref.core y.ref.home ≤ d.2 then
            min 0xFFFF (fieldOf (sysGet c 0x450) 16 16 + 1) else fieldOf (sysGet c 0x450) 16 16)) ∧
        (y.resend = none ∨ hasFailed s y.ref.core = true → t.flits = s.flits) ∧
        ∀ f, y.resend = some f → hasFailed s y.ref.core = false → ∃ r ∈ t.flits, r.load = f.load ∧ r.home = f.home ∧ r.lanes = true ∧ r.dep = cnow s y.ref.core ∧
          cnow s y.ref.core < r.land ∧ r.land ≤ max (cnow s y.ref.core + 1) (f.land + bigHorizon s y.ref.core))) ∧
    (let owed := s.agenda.find? (fun d => d.seq = n && d.cyc = cnow s g && unitDelivers g d.ev)
     (∀ w, (coreOf s g).waits.find? (fun w => w.1 = n) = some w →
        (w.2.2.1 ≤ cnow s g → (coreOf s g).run = .running → Goes (.timing g n) s (fun t => Writes s t [] ∧
          Finds s t g 17 (fun r => r.cls = 0x04 ∧ r.sub = w.2.1.cls ∧ r.slot = w.2.1.slot ∧ r.bundle = w.2.1.bundle))) ∧
        (cnow s g < w.2.2.1 → exec (.timing g n) s = .next s)) ∧
      ((coreOf s g).waits.find? (fun w => w.1 = n) = none →
        (owed.bind (·.own) = none → exec (.timing g n) s = .next s) ∧
        ∀ o, owed.bind (·.own) = some o → (coreOf s g).run = .running →
          Goes (.timing g n) s (fun t => Writes s t [] ∧
            Finds s t g 17 (fun r => r.cls = 0x04 ∧ r.sub = o.cls ∧ r.slot = o.slot ∧ r.bundle = o.bundle)))) ∧
    (∀ d, (coreOf s g).draining.find? (fun d => d.1 = n) = some d →
      let c := coreOf s g
      let sc := d.2.1
      let due (u : State) (k : Nat) : Prop := (clkOf s g, k, .instr (.drainComplete g n)) ∈ dues u
      let failing := ∃ w ∈ drainOps c g n sc, peerOfHome c.peers w.2.1 ≠ none ∨ routeDead s g w.2.2 = true ∨ routePeers s g w.2.2 ≠ []
      let here (y : Notice) : Bool := decide (y.ref.opno < n) && decide (homeScope g y.ref.home ≤ sc)
      let mine := c.notices.filter (fun y => here y && y.ref.wr && drainTakes c n y.ref.opno)
      let reg := d.2.2.1 % 128
      let word (t : State) : Word := sReg (coreOf t g) reg
      let decided := performNow s g own (.drainDecide n)
      (¬ failing → due decided (cnow s g)) ∧
      (failing → due decided (n / 16 + scopeHorizon s g sc) ∧ (clkOf s g, cnow s g, .perform g (.horizonHold n)) ∈ dues decided) ∧
      (d.2.2.1 = 64 → Goes (.drainComplete g n) s (fun t => Writes s t [] ∧ SameFiles s t ∧
        (coreOf t g).notices = c.notices ∧ (coreOf t g).writes = c.writes ∧ (n, sc) ∈ (coreOf t g).drains ∧
        ∀ y ∈ (coreOf t g).draining, y.1 ≠ n)) ∧
      (d.2.2.1 ≠ 64 → anyArmed c = false → Goes (.drainComplete g n) s (fun t => Writes s t [] ∧
        (∀ r, r ≠ reg → sReg (coreOf t g) r = sReg c r) ∧
        (128 ≤ d.2.2.1 → reg < 32 → word t = Config.freeWord s.fresh ∧ t.fresh = s.fresh + 1) ∧
        (∀ y ∈ (coreOf t g).draining, y.1 ≠ n) ∧
        (coreOf t g).notices = c.notices.filter (fun y => !here y) ∧
        (coreOf t g).writes = c.writes.filter (fun y => !(decide (y.1 < n) && decide (homeScope g y.2.1 ≤ sc))) ∧
        (n, sc) ∈ (coreOf t g).drains ∧
        (d.2.2.1 < 32 → fieldOf (word t) 0 1 = (if mine = [] then 0 else 1) ∧
          fieldOf (word t) 2 1 = (if ∃ y ∈ mine, y.reason = 2 then 1 else 0) ∧
          fieldOf (word t) 3 1 = (if d.2.2.2.1 = true then 1 else 0) ∧
          fieldOf (word t) 8 8 = min 255 (dedup (mine.map (·.ref.opno))).length ∧
          (c.peers = [] → fieldOf (word t) 1 1 = (if ∃ y ∈ mine, y.reason = 1 then 1 else 0)) ∧
          (mine = [] → c.peers = [] → d.2.2.2.1 = false → word t = 0))))) ∧
    Goes (.peerSetUpdate p x) s (fun t => SameFiles s t ∧ Writes s t [] ∧ (∀ h ∈ partCores s p, x ∈ (coreOf t h).peers) ∧
      ∀ h, h ∉ partCores s p → coreOf t h = coreOf s h) ∧
    (Goes (.packageLost n) s (fun t => (pkgOf t n).alive = false ∧ Writes s t [] ∧ SameFiles s t ∧
      ∀ q, 3 ≤ (partOf s q).state → (partOf s q).state ≤ 4 → q / 8 ≠ n → (partOf s q).pod = true →
        (∃ e ∈ s.parts, e.1 / 8 = n ∧ e.2.pod = true ∧ e.2.job = (partOf s q).job ∧ 3 ≤ e.2.state) →
        .pkg n ∈ (partOf t q).failed ∧ (partOf t q).reasons.getLsbD 2 = true)) ∧
    (∀ q, partOfCore s g = some q → Goes (.coreLost g) s (fun t => Writes s t [] ∧ SameFiles s t ∧
      ∀ r, r = q ∨ ((partOf s q).pod = true ∧ (partOf s r).pod = true ∧ (partOf s r).job = (partOf s q).job) →
        3 ≤ (partOf s r).state → .core g ∈ (partOf t r).failed ∧ (partOf t r).reasons.getLsbD 2 = true))

/-- R54, R64, R65, R101, R173, R239, R420, R425 (02, 06, 08, 17): a rendezvous at its release. It waits on while a member
has failed or a landing or a horizon hold keeps it; else it ends: what its members' landing zones hold of committed
instances is settled, and every member whose launch is not cancelled, with no stop pending, goes on: its held cycles leave
its count, and it issues in this cycle. A watermark that is reached makes the release due; one that is not decides a
host-wait freeze. That a core held there by a horizon goes on in a recovery run is assumption log 25, the model's choice. -/
def Obligations.RendezvousRelease : Prop :=
  ∀ (id : Nat) (r : Rdv) (s : State), s.rdvs.find? (fun x => x.id = id) = some r →
    let T := timeOn s (some r.part)
    (rdvFailed s r = true → Goes (.rendezvousRelease id) s (fun t => t.cores = s.cores ∧ dues t = dues s ∧ Writes s t [])) ∧
    (rdvFailed s r = false → T < rdvHold s r T → Goes (.rendezvousRelease id) s (fun t => t.cores = s.cores ∧ t.mem = s.mem ∧
      dues t = dues s ++ [(some r.part, paceUp (rdvPace s r) (rdvHold s r T), .instr (.rendezvousRelease id))])) ∧
    (rdvFailed s r = false → rdvHold s r T ≤ T → Goes (.rendezvousRelease id) s (fun t =>
      (∀ h ∈ r.members, ∀ z ∈ (coreOf t h).zone, ∀ e ∈ (coreOf t h).commits, e.1 ≠ z.inst) ∧
      ((∀ h ∈ r.members, (coreOf s h).zone = []) → Writes s t []) ∧
      ((∀ q, (partOf s q).pubs = [] ∧ stopPends (partOf s q) = false) → (r.arrivals.map (fun x => x.1)).Nodup →
        (∀ x ∈ t.rdvs, x.id ≠ id) ∧ ∀ x ∈ r.arrivals, (∀ l, launchOf s x.1 = some l → l.canc = false) →
          let g := x.1
          let c := coreOf s g
          (coreOf t g).run = .running ∧ (coreOf t g).live = c.live ∧ (coreOf t g).pc = c.pc ∧
          (coreOf t g).pass.held = c.pass.held + (T - 1 - x.2.1) ∧ (coreOf t g).recovery = (c.soft && !c.recovery) ∧
          (clkOf s g, T, .issue g) ∈ dues t ∧
          (c.pass.id.serial ≠ 0 → (clkOf s g, c.pass.m + c.pass.c + (c.pass.held + (T - 1 - x.2.1)), .instr (.cycslip g)) ∈ dues t)))) ∧
    (r.kind = 2 → reachedMark s r = true → rdvFull r = true → rdvFailed s r = false →
      Goes (.watermarkCompare id) s (fun t => t.cores = s.cores ∧ t.parts = s.parts ∧ t.mem = s.mem ∧
        dues t = dues s ++ [(some r.part, paceUp (rdvPace s r) (rdvLast r + rdvCost s (rdvKeeper r) r.scope),
          .instr (.rendezvousRelease id))])) ∧
    (reachedMark s r = false → 3 ≤ (partOf s r.part).state → Goes (.watermarkCompare id) s (fun t => t.cores = s.cores ∧
      t.rdvs = s.rdvs ∧ t.mem = s.mem ∧ (partOf t r.part).reasons.getLsbD 1 = true ∧
      ((partOf s r.part).live = true → (partOf s r.part).pendB = none →
        (some r.part, tideUp (T + freezeD s r.part), .instr (.freezeBoundary r.part)) ∈ dues t)))

/-- R73, R74, R371, R376, R420 (02, 15, 17): the other events of a core's timetable: HORIZON_RESUME ends the hold after a
horizon completion as a recovery run; a pass whose count reaches C, unless the bundle due then is one that may end it, is a slip
of subclass 2; an idle core arrives at the standing launch point; a cancel that becomes visible marks the launches it names, and
CANC of the instance, a phase's of its graphs too, and is kept for the launch point. Which bundles may end the pass, `mayMoor`, is
assumption log 44 and 56, the model's choices. -/
def Obligations.CoreTimetable : Prop :=
  ∀ (g p : Nat) (lvl : BitVec 2) (id : BitVec 16) (s : State),
    let c := coreOf s g
    (c.run = .horizon → Goes (.horizonResume g) s (fun t => (coreOf t g).run = .running ∧ (coreOf t g).recovery = true ∧
      (coreOf t g).live = c.live ∧ dues t = dues s ∧ (∀ h, h ≠ g → coreOf t h = coreOf s h) ∧ Writes s t [])) ∧
    (c.run ≠ .horizon → exec (.horizonResume g) s = .next s) ∧
    (let ends := (clkOf s g, cnow s g, .issue g) ∈ dues s ∧ mayMoor c = true
     (c.run ≠ .running ∨ c.pass.id.serial = 0 ∨ c.pass.next = some .haltUnit ∨ passCount c.pass (cnow s g) ≠ c.pass.c ∨ ends →
        exec (.cycslip g) s = .next s) ∧
      (c.run = .running → c.pass.id.serial ≠ 0 → c.pass.next ≠ some .haltUnit → passCount c.pass (cnow s g) = c.pass.c → ¬ ends →
        Goes (.cycslip g) s (fun t => Finds s t g 21 (fun f => f.cls = 0x05 ∧ f.sub = 2) ∧ Writes s t [] ∧
          (coreOf t g).live = c.live))) ∧
    ((∀ i a, c.run ≠ .held i a) → Goes (.coreIdle g) s (fun t => (coreOf t g).entry = none ∧ (coreOf t g).berth = [] ∧
      (coreOf t g).live = c.live ∧ Writes s t [] ∧
      ∀ q, partOfCore s g = some q → ∃ r ∈ t.rdvs, r.group = 64 ∧ (coreOf t g).run = .held r.id (cnow s g) ∧
        ∃ x ∈ r.arrivals, x.1 = g ∧ x.2.1 = cnow s g)) ∧
    Goes (.cancelVisible p lvl id) s (fun t => t.cores = s.cores ∧ t.mem = s.mem ∧ dues t = dues s ∧
      (∀ q, q ≠ p → partOf t q = partOf s q) ∧
      (cancKnown (partOf s p) lvl.toNat id.toNat = false → partOf t p = partOf s p) ∧
      (cancKnown (partOf s p) lvl.toNat id.toNat = true → 3 ≤ (partOf s p).state →
        (∀ l ∈ (partOf s p).launches, l.cores ≠ [] → cancNames (partOf s p) lvl.toNat id.toNat l.entry = true →
          { l with canc := true } ∈ (partOf t p).launches) ∧
        ⟨lvl.toNat, id.toNat, (partOf s p).tide, (partOf s p).enq⟩ ∈ (partOf t p).canc ∧
        (lvl = 1 → (1, id.toNat) ∈ (partOf t p).cancInst) ∧
        (lvl = 2 → (2, id.toNat) ∈ (partOf t p).cancInst ∧
          ∀ e ∈ phaseCounts (partOf s p) id.toNat, (1, e.1) ∈ (partOf t p).cancInst) ∧
        (lvl = 3 → (partOf t p).jobCanc = true)))

/-- R24, R66, R69, R70, R73, R75, R77, R80, R218, R338, R341, R347, R428, R440, R444 (01, 02, 07, 12, 18): a job starts at phase 0
with its counter at 0 and its cores clear, none of the entries that an earlier job has left counts for a phase, or the host reads the checkpoint's WKLAUNCH and WKGRAPH, and it is frozen when a
layer of it is hot or a partition of its pod has a reason; it waits a tide for a mate that is missing and for a survey; at A the
launch point selects and queues the staged data, its release following the end of staging, when the entry's code, and what a patch invalidated, stand in the windows; at the release a staged entry runs and its
cores begin their berth lists, and one that has waited since A with an image not bound to the maps in force is refused; with
nothing running a job asked to end is Ready, and one with a stop pending is Checkpointed; an entry that a cancel reaches is cancelled. The cores cleared are assumption log 28, the end of
the staging and the order of the release log 27, the waits of a start log 56, the model's choices. -/
def Obligations.Launches : Prop :=
  ∀ (p e : Nat) (r : Rdv) (s : State),
    let x := partOf s p
    (let waits := mateMissing s (p :: startMates s p) || (p :: startMates s p).any (surveyed s)
     (waits = false → Goes (.jobStart p) s (fun t => (partOf t p).state = 3 ∧ (partOf t p).live = true ∧ (partOf t p).tide = 0 ∧
        (x.restart = false → (partOf t p).phase = 0) ∧ ((partOf t p).pod = true ↔ startMates s p ≠ []) ∧
        (partOf t p).reasons = (if hotPart s p = true then 1 else 0) ∧
        (x.restart = true → ∀ i, i < 2 → hostCompletion (partOf t p) i = x.wkSaved.getD i 0) ∧
        (x.restart = false → (∀ e ∈ x.queue, qState e.2 = 0 ∨ qState e.2 = 3 ∨ qState e.2 = 4) → ∀ n, phaseCounts (partOf t p) n = []) ∧
        ((∃ q ∈ podPeers t p, ownReason (partOf t q) = true) → (none, s.now, .instr (.podFreeze p 0)) ∈ dues t) ∧
        ∀ g ∈ partCores t p, (coreOf t g).live = Live.empty ∧ (coreOf t g).entry = none)) ∧
      (waits = true → Goes (.jobStart p) s (fun t => t.parts = s.parts ∧ t.cores = s.cores ∧ t.mem = s.mem ∧
        dues t = dues s ++ [(none, s.now + 4096, .instr (.jobStart p))]))) ∧
    (launchPoint s p = none → exec (.launchStaging p) s = .next s ∧ exec (.launchPointRelease p) s = .next s) ∧
    (launchPoint s p = some r →
      (x.staged = [] → Goes (.launchStaging p) s (fun t => (partOf t p).staged = stagedSet s p ∧ (partOf t p).enqA = x.enq ∧
        t.mem = s.mem ∧ SameFiles s t ∧
        (stagedSet s p = [] → rdvFull r = true → rdvFailed s r = false →
          (some r.part, rdvRelease s r 0, .instr (.launchPointRelease r.part)) ∈ dues t) ∧
        (stagedSet s p ≠ [] → (some p, windowEnd (x.tide + 1), .instr (.launchStaging p)) ∈ dues t ∧
          ∀ y ∈ stagedSet s p, ∀ b ∈ entryStaged s p y, ∀ d ∈ stagedData s p y b,
            .write d.1 d.2 (ctxTag s b.1) true ∈ (coreOf t b.1).svc))) ∧
      (x.staged ≠ [] → (∃ y ∈ x.staged, ∃ b ∈ entryStaged s p y, ∃ o bs g, .write o bs g true ∈ (coreOf s b.1).svc) →
        Goes (.launchStaging p) s (fun t => t.cores = s.cores ∧ t.mem = s.mem ∧
          dues t = dues s ++ [(some p, x.tide + 4096, .instr (.launchStaging p))])) ∧
      (x.staged ≠ [] → (∀ y ∈ x.staged, ∀ b ∈ entryStaged s p y, ∀ o bs g, .write o bs g true ∉ (coreOf s b.1).svc) →
        rdvFull r = true → rdvFailed s r = false → Goes (.launchStaging p) s (fun t => t.mem = s.mem ∧ SameFiles s t ∧
          (some r.part, rdvRelease s r x.tide, .instr (.launchPointRelease r.part)) ∈ dues t ∧
          ∀ y ∈ x.staged, ∀ b ∈ entryBerths s p y, ∀ i, imageOf s p (qHandle (queueEntry x y)) = some i →
            (∀ w ∈ entrySegment i.img b.2.2, tabGet (fun _ => false) (coreOf t b.1).codeValid (w.1 / 4) = true) ∧
            ∀ f ∈ x.refill, f.1 = qHandle (queueEntry x y) → (entryNeed x y).testBit (layerOf f.2.1) = true →
              ∀ w ∈ i.img.code, w.1 / 4 ∈ f.2.2 → tabGet (fun _ => false) (coreOf t f.2.1).codeValid (w.1 / 4) = true)) ∧
      (rdvFailed s r = false → rdvHold s r x.tide ≤ x.tide →
        (running x = [] → x.endAsked = true → Goes (.launchPointRelease p) s (fun t => (partOf t p).state = 2 ∧
          (partOf t p).live = false ∧ (partOf t p).launches = [])) ∧
        (running x = [] → x.endAsked = false → stopPends x = true → Goes (.launchPointRelease p) s (fun t =>
          (partOf t p).state = 7 ∧ (partOf t p).live = false)) ∧
        (e < 64 → qOrd (queueEntry x e) < x.enqA → qState (queueEntry x e) = 1 → inCancelled x e = true →
          ¬ (running x = [] ∧ (x.endAsked = true ∨ stopPends x = true)) →
          Goes (.launchPointRelease p) s (fun t => qState (queueEntry (partOf t p) e) = 4)) ∧
        (x.waiting = [e] → x.staged = [] → x.endAsked = false → stopPends x = false → (∀ q, (partOf s q).pubs = []) → inCancelled x e = false →
          qState (queueEntry x e) = 1 → qPredv (queueEntry x e) = 0 → boundImage s p (qHandle (queueEntry x e)) = none →
          Goes (.launchPointRelease p) s (fun t => qState (queueEntry (partOf t p) e) = 5)) ∧
        (x.staged = [e] → x.endAsked = false → stopPends x = false → (∀ q, (partOf s q).pubs = []) → inCancelled x e = false →
          qState (queueEntry x e) = 1 → qPredv (queueEntry x e) = 0 → (boundImage s p (qHandle (queueEntry x e))).isSome = true →
          ((entryBerths s p e).map (fun b => b.1)).Nodup →
          Goes (.launchPointRelease p) s (fun t => qState (queueEntry (partOf t p) e) = 2 ∧ (partOf t p).staged = [] ∧
            ∀ b ∈ entryBerths s p e, ∀ v vs, b.2.1 = v :: vs → (coreOf s b.1).entry = none →
              (coreOf t b.1).entry = some e ∧ (coreOf t b.1).vid = v ∧
              ((∀ m ∈ r.members, ∃ y ∈ entryBerths s p e, y.1 = m) → (∀ a ∈ r.arrivals, (coreOf s a.1).entry = none) →
                (coreOf t b.1).run = .running ∧ (clkOf s b.1, x.tide, .issue b.1) ∈ dues t)))))

/-- R24, R101, R103 to R107, R436 (01, 03, 18): a freeze. A trip, or a freeze of another package of a pod job while a reason
still stands there, sets its reason and makes the boundary due; at its boundary the partition stops with STATE 4 and its clock
stands, the map version noted; the reason of a sensor clears when no layer of the partition is hot any more, and with no reason
left a resume is due, at the boundary that the latest clearing names; at the resume the clock goes on from B and FRZSTAT counts it.
Nothing the partition holds changes. -/
def Obligations.Freezes : Prop :=
  ∀ (p k r : Nat) (s : State),
    let x := partOf s p
    let kept (t : State) : Prop := t.cores = s.cores ∧ t.mem = s.mem ∧ t.rdvs = s.rdvs ∧ t.flits = s.flits ∧ t.xfers = s.xfers
    let fresh : Prop := x.live = true ∧ x.pendB = none
    let resumes (t : State) : Prop := (partOf t p).resumeAt = some (tideUp (s.now + freezeD s p)) ∧
      (none, tideUp (s.now + freezeD s p), .instr (.partitionResume p)) ∈ dues t
    let hot (t : State) : List Nat := (pkgOf t (k / 8)).hot
    Goes (.thermalTrip k) s (fun t => kept t ∧ k % 8 ∈ hot t ∧ (∀ l, l ≠ k % 8 → (l ∈ hot t ↔ l ∈ hot s)) ∧
      (partAt s (k / 8) (k % 8) = none → t.parts = s.parts ∧ dues t = dues s) ∧
      (partAt s (k / 8) (k % 8) = some p → 3 ≤ x.state →
        (partOf t p).reasons.getLsbD 0 = true ∧ (partOf t p).live = x.live ∧
        (fresh → (partOf t p).pendB = some (tideUp (x.tide + 1 + freezeD s p)) ∧
          (some p, tideUp (x.tide + 1 + freezeD s p), .instr (.freezeBoundary p)) ∈ dues t))) ∧
    Goes (.thermalRelease k) s (fun t => kept t ∧ k % 8 ∉ hot t ∧ (∀ l, l ≠ k % 8 → (l ∈ hot t ↔ l ∈ hot s)) ∧
      (partAt s (k / 8) (k % 8) = none → t.parts = s.parts ∧ dues t = dues s) ∧
      (partAt s (k / 8) (k % 8) = some p →
        ((∃ l ∈ hot s, l ≠ k % 8 ∧ x.layers.testBit l = true) → t.parts = s.parts ∧ dues t = dues s) ∧
        ((∀ l ∈ hot s, l ≠ k % 8 → x.layers.testBit l = false) → (partOf t p).reasons = x.reasons &&& ~~~1#5 ∧
          (x.reasons &&& ~~~1#5 = 0 → x.live = false → resumes t)))) ∧
    (let stands := ∃ q ∈ podPeers s p, ownReason (partOf s q) = true
     (3 ≤ x.state → x.state ≤ 4 → stands → Goes (.podFreeze p r) s (fun t => kept t ∧ (partOf t p).reasons.getLsbD 3 = true ∧
        (fresh → (some p, tideUp (r + freezeD s p), .instr (.freezeBoundary p)) ∈ dues t))) ∧
      (¬ stands → exec (.podFreeze p r) s = .next s)) ∧
    (x.live = true → x.pendB = some x.tide → Goes (.freezeBoundary p) s (fun t => kept t ∧ (partOf t p).live = false ∧
      (partOf t p).state = 4 ∧ (partOf t p).tide = x.tide ∧ (partOf t p).frzB = x.tide ∧ (partOf t p).frzAt = s.now ∧
      (partOf t p).pendB = none ∧ (partOf t p).frzVer = (pkgOf s (p / 8)).version.toNat ∧ (x.reasons = 0 → resumes t) ∧
      (∀ q, q ≠ p → partOf t q = partOf s q))) ∧
    (x.live = false ∨ x.pendB ≠ some x.tide → exec (.freezeBoundary p) s = .next s) ∧
    (x.state = 4 → x.live = false → x.reasons = 0 → x.resumeAt = some s.now → (tabGet (zeroAt (w := 64)) x.context 1).getLsbD 0 = false →
      Goes (.partitionResume p) s (fun t => kept t ∧ dues t = dues s ∧
        partOf t p = { x with live := true, state := 3, frzCount := x.frzCount + 1, frzReason := x.frzNext } ∧
        ∀ q, q ≠ p → partOf t q = partOf s q)) ∧
    (x.reasons ≠ 0 ∨ x.state ≠ 4 ∨ x.resumeAt ≠ some s.now → exec (.partitionResume p) s = .next s)

/-- R400, R403 to R406, R413, R455 to R459 (16, 17, 22): the dredger walks one line of each bank whose read port is free and changes
no register and no byte where nothing is uncorrectable; a line with a corrected word or owner tag is written back, with no bad bit
left, when its write port is free. The walk of a control core takes the shadow store of its die layer and the layer's table copy
line by line (assumption log 21, the model's choice); a line with a corrected word is written back in the next cycle, unless it has
been written in between, and its uncorrectable words stay. A repair request through the system space acts in phase 3; it takes
the first free record of its bank, and the line reads zero (log 22, the model's choice); the summary takes a core's write; FIRED clears and an array injector
arms only under PERMIT; a link injector arms with its count at 0. -/
def Obligations.DredgerRepairInjectors : Prop :=
  ∀ (g off k : Nat) (n : BitVec 2) (f : BitVec 4) (v : Word) (s : State),
    let c := coreOf s g
    let sys (t : State) (i : Nat) : Word := sysGet (coreOf t g) i
    let at_ (b : Nat) : Nat := b / 4 * 2 ^ 19 + (tabGet (zeroAt (w := 64)) c.dredge b).toNat % 2048 * 256 + b % 4 * 64
    let free (b : Nat) : Bool := svcFree s g (at_ b) true
    let sound : Prop := (∀ e ∈ s.memBad, e.2 ≠ 1000) ∧ ∀ e ∈ s.tagBad, e.2 ≠ 1000
    let ptr (t : State) (n : Nat) : Nat := (tabGet (zeroAt (w := 64)) (coreOf t g).dredge n).toNat
    ((isControl g = false ∧ fieldOf (sysGet c 0x428) 0 1 = 0) ∨ contextBusy s g = true ∨ surveyRuns s g = true →
      exec (.dredgerStep g) s = .next s) ∧
    (isControl g = true → contextBusy s g = false → surveyRuns s g = false → sound →
      let bad := (arrayBad s g 13).filter (fun e => e.1 / 8 = ptr s 21)
      Goes (.dredgerStep g) s (fun t => SameFiles s t ∧ Writes s t [] ∧ t.memBad = s.memBad ∧ t.tagBad = s.tagBad ∧
        (bad ≠ [] → (none, s.now + 1, .perform g (.scrub 13 (ptr s 21) (lineView s g 13 (ptr s 21)) bad)) ∈ dues t) ∧
        ptr t 21 = (ptr s 21 + 1) % 1638400 ∧ ptr t 22 = (ptr s 22 + 1) % 1024)) ∧
    (∀ arr m view bad (d : Due), d.ev = .perform g (.scrub arr m view bad) →
      let same : Prop := lineView s g arr m = view ∧ ∀ e ∈ bad, e ∈ arrayBad s g arr
      (same → ∃ t, runEvent d s = .next t ∧ SameFiles s t ∧ Writes s t [] ∧ t.tags = s.tags ∧
        (∀ e ∈ bad, e.2 ≠ 1000 → ∀ b, (e.1, b) ∉ arrayBad t g arr) ∧
        ∀ e ∈ arrayBad s g arr, (∀ f ∈ bad, f.2 ≠ 1000 → f.1 ≠ e.1) → e ∈ arrayBad t g arr) ∧
      (¬ same → runEvent d s = .next s)) ∧
    (isControl g = false → fieldOf (sysGet c 0x428) 0 1 = 1 → contextBusy s g = false → surveyRuns s g = false → sound →
      Goes (.dredgerStep g) s (fun t => SameFiles s t ∧ Writes s t [] ∧ t.tags = s.tags ∧
        (∀ b, b < 16 → tabGet zeroAt (coreOf t g).dredge b = tabGet zeroAt c.dredge b + (if free b = true then 1 else 0)) ∧
        (∀ b, b < 16 → free b = true → (∃ i, i < 8 ∧ badAt s (sliceAddr g (at_ b) + 8 * i) ≠ 0) ∨ tagBadAt s (sliceAddr g (at_ b)) ≠ 0 →
          (none, s.now + 1, .instr (.dredgerWriteback g (at_ b))) ∈ dues t))) ∧
    (svcFree s g off false = true → Goes (.dredgerWriteback g off) s (fun t => t.mem = s.mem ∧ t.tags = s.tags ∧ t.cores = s.cores ∧
      let a := sliceAddr g (off / 64 * 64)
      (∀ i, i < 8 → badAt t (a + 8 * i) = if badAt s (a + 8 * i) = 1000 then 1000 else 0) ∧
      tagBadAt t a = if tagBadAt s a = 1000 then 1000 else 0)) ∧
    (svcFree s g off false = false → Goes (.dredgerWriteback g off) s (fun t => t.mem = s.mem ∧ t.memBad = s.memBad ∧
      t.cores = s.cores ∧ dues t = dues s ++ [(none, s.now + 1, .instr (.dredgerWriteback g off))])) ∧
    (isControl g = false → Goes (.repairreq g v) s (fun t => t.cores = s.cores ∧ t.mem = s.mem ∧
      dues t = dues s ++ [(none, s.now, .perform g (.syswr 0x468 v))])) ∧
    (v.toNat < 2 ^ 21 → fieldOf (sysGet c 0x462) 62 1 = 1 → repaired c v.toNat = false →
      let t := sysWrite s g 0x468 v
      let i := 0x4A0 + 2 * bankOf v.toNat
      let taken (j : Nat) : Prop := fieldOf (sysGet c (i + j)) 0 1 = 1
      (¬ taken 0 ∨ ¬ taken 1 → SameFiles s t ∧
        sys t (if taken 0 then i + 1 else i) = BitVec.ofNat 64 (1 + bankLine v.toNat * 256) ∧
        fieldOf (sys t 0x462) 16 6 = (fieldOf (sysGet c 0x462) 16 6 + 1) % 2 ^ 6 ∧
        Writes s t ((List.range 64).map (fun j => (sliceAddr g (v.toNat / 64 * 64 + j), 0)))) ∧
      (taken 0 → taken 1 → SameFiles s t ∧ fieldOf (sys t 0x462) 22 1 = 1 ∧ Writes s t [])) ∧
    Goes (.bistsum g v) s (fun t => fieldOf (sys t 0x462) 0 8 = fieldOf v 0 8 ∧ fieldOf (sys t 0x462) 63 1 = 1 ∧
      fieldOf (sys t 0x462) 8 55 = fieldOf (sysGet c 0x462) 8 55 ∧ (∀ i, i ≠ 0x462 → sys t i = sysGet c i) ∧ t.mem = s.mem) ∧
    (fieldOf (sysGet c 0x430) 0 1 = 0 → exec (.firedClear g f) s = .next s ∧ exec (.arrayInjectorArm g n v) s = .next s) ∧
    (fieldOf (sysGet c 0x430) 0 1 = 1 →
      Goes (.firedClear g f) s (fun t => fieldOf (sys t 0x430) 0 4 = fieldOf (sysGet c 0x430) 0 4 ∧ t.mem = s.mem ∧
        (∀ j, j < 4 → (sys t 0x430).getLsbD (4 + j) = ((sysGet c 0x430).getLsbD (4 + j) && !f.getLsbD j)) ∧
        ∀ i, i ≠ 0x430 → sys t i = sysGet c i) ∧
      Goes (.arrayInjectorArm g n v) s (fun t => let a := 0x440 + 2 * n.toNat
        (sys t a).getLsbD 63 = true ∧ fieldOf (sys t a) 0 41 = fieldOf v 0 41 ∧
        fieldOf (sys t (a + 1)) 0 32 = fieldOf (sysGet c (a + 1)) 0 32 ∧ fieldOf (sys t (a + 1)) 32 32 = 0 ∧
        (∀ i, i ≠ a → i ≠ a + 1 → sys t i = sysGet c i) ∧ t.mem = s.mem)) ∧
    Goes (.linkInjectorArm k n v) s (fun t => let a := k % 8 * 8 + 2 * n.toNat
      let old := (pkgOf s (k / 8)).linj
      let new := (pkgOf t (k / 8)).linj
      (tabGet (zeroAt (w := 64)) new a).getLsbD 63 = true ∧ fieldOf (tabGet zeroAt new a) 0 41 = fieldOf v 0 41 ∧
      fieldOf (tabGet zeroAt new (a + 1)) 0 32 = fieldOf (tabGet zeroAt old (a + 1)) 0 32 ∧
      fieldOf (tabGet zeroAt new (a + 1)) 32 32 = 0 ∧
      (∀ i, i ≠ a → i ≠ a + 1 → tabGet zeroAt new i = tabGet zeroAt old i) ∧ t.cores = s.cores ∧ t.mem = s.mem)

/-- R71, R76, R334 to R337, R346, R429, R430, R444 (02, 12, 18): what the outside writes. A core's register takes its RW fields; the
mailbox takes its arguments, and a command with GO is served at once where the system image runs, while one that stands
lets no other in; so do the context registers; the host-window map takes a write except while the job runs. A queue entry
is enqueued, emptied or given its fields when it is not waiting or running. The hypervisor's nonce and its request for a die
layer's report stand where the model puts them (log entry 56). That a mailbox not yet created takes no write and that STATE 2 serves a command
at once is log 12, that an emptied entry is all zero and stays counted log 28, the model's choices. -/
def Obligations.OutsideWrites : Prop :=
  ∀ (g i p w : Nat) (e : RegField) (v : Word) (l : BitVec 128) (s : State),
    let x := partOf s p
    let mb (t : State) (j : Nat) : Word := tabGet zeroAt (partOf t p).mailbox j
    let cx (t : State) (j : Nat) : Word := tabGet zeroAt (partOf t p).context j
    let kept (t : State) : Prop := t.cores = s.cores ∧ t.mem = s.mem ∧ ∀ q, q ≠ p → partOf t q = partOf s q
    let entry (t : State) : BitVec 256 := queueEntry (partOf t p) e.toNat
    let old := queueEntry x e.toNat
    let others (t : State) : Prop := kept t ∧ ∀ f, f ≠ e.toNat → queueEntry (partOf t p) f = queueEntry x f
    (g % 512 < 384 → i ∉ [0x428, 0x430, 0x451, 0x462, 0x468] → (i < 0x440 ∨ 0x448 ≤ i) →
      Goes (.systemRegisterWrite (.core g i) v) s (fun t => t.mem = s.mem ∧ dues t = dues s ∧ SameFiles s t ∧
        (∀ h j, sysGet (coreOf t h) j = if h = g ∧ j = i then (sysGet (coreOf s g) i &&& ~~~(writeMask i)) ||| (v &&& writeMask i)
          else sysGet (coreOf s h) j))) ∧
    (392 ≤ g % 512 → exec (.systemRegisterWrite (.core g i) v) s = .next s) ∧
    (w < 4 → Goes (.systemRegisterWrite (.attest i w) v) s (fun t => t.cores = s.cores ∧ t.mem = s.mem ∧ t.parts = s.parts ∧
      ∀ j, tabGet (zeroAt (w := 64)) (pkgOf t (i / 8)).nonce j = if j = w then v else tabGet zeroAt (pkgOf s (i / 8)).nonce j)) ∧
    (4 ≤ w → Goes (.systemRegisterWrite (.attest i w) v) s (fun t => t.cores = s.cores ∧ t.mem = s.mem ∧ t.parts = s.parts ∧
      (pkgOf t (i / 8)).report = reportBytes s i ((List.range 4).flatMap (fun j =>
        leBytes 8 (tabGet (zeroAt (w := 64)) (pkgOf s (i / 8)).nonce j).toNat)))) ∧
    (x.state = 0 → exec (.systemRegisterWrite (.mailbox p w) v) s = .next s) ∧
    (x.state ≠ 0 → 1 ≤ w → w ≤ 7 → Goes (.systemRegisterWrite (.mailbox p w) v) s (fun t => kept t ∧ mb t w = v ∧
      (∀ j, j ≠ w → mb t j = mb s j) ∧ dues t = dues s)) ∧
    (x.state ≠ 0 → (mb s 0).getLsbD 63 = true → exec (.systemRegisterWrite (.mailbox p 0) v) s = .next s) ∧
    (x.state ≠ 0 → (mb s 0).getLsbD 63 = false → Goes (.systemRegisterWrite (.mailbox p 0) v) s (fun t => kept t ∧
      mb t 0 = v &&& 0x8000000000FFFFFF#64 ∧ (∀ j, j ≠ 0 → mb t j = mb s j) ∧
      dues t = dues s ++ (if v.getLsbD 63 = true ∧ 2 ≤ x.state then
        [(none, s.now, .instr (mailboxCommand p (fieldOf v 0 8)))] else []))) ∧
    Goes (.systemRegisterWrite (.context p 0) v) s (fun t => kept t ∧ cx t 0 = v &&& 0x800000000000000F#64 ∧
      (∀ j, j ≠ 0 → cx t j = cx s j) ∧
      dues t = dues s ++ (if v.getLsbD 63 = true then [(none, s.now, .instr (contextEvent p (fieldOf v 0 4)))] else [])) ∧
    (2 ≤ w → w ≤ 4 → Goes (.systemRegisterWrite (.context p w) v) s (fun t => kept t ∧ dues t = dues s ∧
      cx t w = v &&& (if w = 2 then 0x0000007FFFFF0000#64 else if w = 3 then 0x0000007FFFFFFFC0#64 else 0x0000007FFFFFFFFF#64) ∧
      (∀ j, j ≠ w → cx t j = cx s j))) ∧
    (x.state = 3 → exec (.systemRegisterWrite (.hostMap p w) v) s = .next s) ∧
    (x.state ≠ 3 → w ≤ 1 → Goes (.systemRegisterWrite (.hostMap p w) v) s (fun t => kept t ∧ dues t = dues s ∧
      tabGet zeroAt (partOf t p).hostMap w = v &&& (if w = 0 then 0xFFFFFFFFFFFFF000#64 else 0x000000FFFFFFF000#64))) ∧
    Goes (.mbrespClear p) s (fun t => kept t ∧ dues t = dues s ∧ mb t 8 = (mb s 8 &&& ~~~(1#64 <<< 63)) ∧
      ∀ j, j ≠ 8 → mb t j = mb s j) ∧
    Goes (.ctxstatClear p) s (fun t => kept t ∧ dues t = dues s ∧ cx t 1 = (cx s 1 &&& ~~~(1#64 <<< 63)) ∧
      ∀ j, j ≠ 1 → cx t j = cx s j) ∧
    (x.state ≠ 0 → fieldOf v 0 32 ≠ 0 → qState old = 0 ∨ qState old = 3 ∨ qState old = 4 →
      Goes (.launchQueueEnqueue p e v) s (fun t => others t ∧ qState (entry t) = 1 ∧ qHandle (entry t) = fieldOf v 0 32 ∧
        qGraph (entry t) = fieldOf v 32 16 ∧ qPhase (entry t) = fieldOf v 48 8 ∧ qPrio (entry t) = fieldOf v 56 2 ∧
        qWhole (entry t) = v.getLsbD 58 ∧ qPass (entry t) = 0 ∧ qOrd (entry t) = x.enq % 2 ^ 64 ∧
        qLayers (entry t) = qLayers old ∧ qPredv (entry t) = qPredv old ∧ (partOf t p).enq = (x.enq + 1) % 2 ^ 64)) ∧
    (x.state ≠ 0 → fieldOf v 0 32 ≠ 0 → qState old = 5 → Goes (.launchQueueEnqueue p e v) s (fun t => others t ∧
      qState (entry t) = 1 ∧ qHandle (entry t) = fieldOf v 0 32 ∧ qOrd (entry t) = qOrd old ∧ (partOf t p).enq = x.enq)) ∧
    (x.state = 0 ∨ fieldOf v 0 32 = 0 ∨ qState old = 1 ∨ qState old = 2 →
      Goes (.launchQueueEnqueue p e v) s (fun t => others t ∧ entry t = old ∧ (partOf t p).enq = x.enq)) ∧
    (x.state ≠ 0 → fieldOf v 0 32 = 0 → 3 ≤ qState old → qState old ≤ 5 → Goes (.launchQueueEmpty p e v) s (fun t => others t ∧ entry t = 0 ∧
      (qGraph old, qPhase old, qOrd old) ∈ (partOf t p).gone)) ∧
    (x.state = 0 ∨ fieldOf v 0 32 ≠ 0 ∨ qState old < 3 → Goes (.launchQueueEmpty p e v) s (fun t => others t ∧ entry t = old)) ∧
    (x.state ≠ 0 → qState old ≠ 1 → qState old ≠ 2 → Goes (.launchQueueFieldWrite p e l) s (fun t => others t ∧
      qLayers (entry t) = l.toNat % 2 ^ 8 ∧ qPredv (entry t) = l.toNat / 2 ^ 32 % 2 ^ 8 ∧
      (∀ j, j < 8 → qPred (entry t) j = l.toNat / 2 ^ (64 + 6 * j) % 2 ^ 6) ∧ qField (entry t) 0 64 = qField old 0 64 ∧
      qOrd (entry t) = qOrd old)) ∧
    (x.state = 0 ∨ qState old = 1 ∨ qState old = 2 → Goes (.launchQueueFieldWrite p e l) s (fun t => others t ∧ entry t = old))

/-- R16, R38, R40 to R42, R143, R309, R335, R340, R343, R344, R347, R348, R410 to R413, R415, R443, R455, R458 (00, 01, 05, 11, 12,
17, 18, 22): power-on leaves a package's memory zero and its cores clear, with the repair tables of the store; a partition is made
of free layers, and keeps the registers that the hypervisor has written for it; the map is published at a tide boundary with the
measured bytes, dead links and the pod entry beside them, the next version and MR2 extended with its digest, and running
partitions record it; at the last version the survey is reported and not published; a survey window stays open until its end; a
table entry is written only while its partition is frozen, without its Reserved bits, and repaired from the kept copy. Memory and cores clear at power-on are assumption log 9, a request for a partition that exists or a
layer in use log 11, the bytes and the times of a publication log 10, the answer of the table service log 52, the model's choices. -/
def Obligations.BootMapAndTable : Prop :=
  ∀ (n p k g : Nat) (bs : List (Nat × Byte)) (srv decline hi : Bool) (e : BitVec 12) (v : Word) (layers : BitVec 8)
    (i : BitVec 3) (lp : BitVec 32) (cx : BitVec 9) (d : BitVec 256) (s : State),
    let x := pkgOf s n
    let reg (t : State) (k j : Nat) : BitVec 256 := tabGet zeroAt (pkgOf t (k / 8)).mr (k % 8 * 8 + j)
    let extended (old d : BitVec 256) : BitVec 256 := Config.sm3 (leBytes 32 old.toNat ++ leBytes 32 d.toNat)
    let kept (t : State) : Prop := t.cores = s.cores ∧ t.mem = s.mem ∧ t.parts = s.parts
    (n < 64 → Goes (.powerOnReset n) s (fun t => (pkgOf t n).alive = true ∧ (pkgOf t n).version = x.version ∧
      (∀ a, memByte t a = if keyPackage a = n then 0 else memByte s a) ∧ (∀ q, q / 8 = n → partOf t q = Part.reset) ∧
      (∀ c, c < 384 → let h := 512 * n + c
        (coreOf t h).live = Live.empty ∧ (coreOf t h).run = .idle ∧
        ∀ j, j < 32 → sysGet (coreOf t h) (0x4A0 + j) = tabGet zeroAt x.nv (c * 32 + j)) ∧
      (none, tideUp (s.now + 1), .instr (.mapPublication n [] false)) ∈ dues t)) ∧
    ((pkgOf s (p / 8)).alive = false ∨ (partOf s p).state ≠ 0 ∨ layers = 0 ∨ layersFree s (p / 8) layers.toNat = false →
      exec (.createPartition p layers lp cx) s = .next s) ∧
    ((pkgOf s (p / 8)).alive = true → (partOf s p).state = 0 → layers ≠ 0 → layersFree s (p / 8) layers.toNat = true →
      Goes (.createPartition p layers lp cx) s (fun t => (∀ q, q ≠ p → partOf t q = partOf s q) ∧
        partOf t p = { Part.reset with
          state := 1, layers := layers.toNat, ctx := cx.toNat, lpivl := lp, hostMap := (partOf s p).hostMap
          context := (partOf s p).context } ∧ t.mem = s.mem ∧
        (∀ h ∈ partCores t p, ∀ j, (0x300 ≤ j ∧ j < 0x340) ∨ (0x380 ≤ j ∧ j < 0x390) → sysGet (coreOf t h) j = sysDefault j) ∧
        (∀ l, l < 8 → layers.getLsbD l = true → reg t (p / 8 * 8 + l) 7 =
          extended (reg s (p / 8 * 8 + l) 7) (Config.systemImageDigest p)) ∧
        (none, s.now + 1 + Config.bootTime s.now, .booted p) ∈ dues t)) ∧
    (3 ≤ i.toNat ∧ i.toNat ≤ 6 → Goes (.extendService k i d) s (fun t => kept t ∧ reg t k i.toNat = extended (reg s k i.toNat) d ∧
      ∀ j, j < 8 → j ≠ i.toNat → reg t k j = reg s k j)) ∧
    (¬ (3 ≤ i.toNat ∧ i.toNat ≤ 6) → exec (.extendService k i d) s = .next s) ∧
    (s.now % 4096 ≠ 0 → Goes (.mapPublication n bs srv) s (fun t => kept t ∧ t.pkgs = s.pkgs ∧
      dues t = dues s ++ [(none, tideUp s.now, .instr (.mapPublication n bs srv))])) ∧
    (s.now % 4096 = 0 → x.version = 0xFFFFFFFF#32 → Goes (.mapPublication n bs srv) s (fun t => kept t ∧ dues t = dues s ∧
      (pkgOf t n).version = x.version ∧ (pkgOf t n).map = x.map ∧ (pkgOf t n).reported = x.reported ++ [(s.now, bs)])) ∧
    (let ws := surveyBytes s n (decide (1 < (alivePackages s).length)) bs
     s.now % 4096 = 0 → x.version ≠ 0xFFFFFFFF#32 → (ws.map (fun b => b.1)).Nodup →
      (∀ b ∈ bs, b ∈ ws) ∧ (∀ u ∈ x.dead, (∀ b ∈ bs, b.1 ≠ 0x40 + u) → (0x40 + u, 3) ∈ ws) ∧
      Goes (.mapPublication n bs srv) s (fun t => t.cores = s.cores ∧ t.mem = s.mem ∧ (pkgOf t n).version = x.version + 1 ∧
        (∀ o, 0x40 ≤ o → o < 0xBF80 → mapByte t n o = ((ws.find? (fun b => b.1 = o)).map (fun b => b.2 &&& mapMask o)).getD (mapByte s n o)) ∧
        mapByte t n 0xBFE0 = BitVec.ofNat 8 (signingLayer x) ∧
        (∀ l, l < 8 → tabGet zeroAt (pkgOf t n).mr (l * 8 + 2) = extended (tabGet zeroAt x.mr (l * 8 + 2))
          (Config.sm3 ((List.range 0xBF80).map (mapByte t n)))) ∧
        ∀ q, q / 8 = n → 3 ≤ (partOf s q).state → (partOf s q).state ≤ 5 →
          ∃ m pod, ((partOf s q).tide, n, m, pod) ∈ (partOf t q).pubs)) ∧
    (let idle : Prop := (∀ q, partAt s (k / 8) (k % 8) = some q → (partOf s q).state ≤ 2) ∧
       contextBusy s (512 * (k / 8) + 384 + k % 8) = false
     ((pkgOf s (k / 8)).alive = true → idle → Goes (.surveyWindow k bs) s (fun t => kept t ∧
      (∀ c j, k % 8 * 48 ≤ c → c < k % 8 * 48 + 48 → j < 32 →
        tabGet zeroAt (pkgOf t (k / 8)).nv (c * 32 + j) = sysGet (coreOf s (512 * (k / 8) + c)) (0x4A0 + j)) ∧
      ∃ u d, s.now < d ∧ d ≤ u ∧ (k % 8, d) ∈ (pkgOf t (k / 8)).survey ∧ u < s.now + 2 ^ 26 + 4096 ∧ u % 4096 = 0 ∧ (none, u, .instr (.mapPublication (k / 8)
        (bs.filter (fun b => (layersOfByte s (k / 8) b.1).contains (k % 8))) false)) ∈ dues t)) ∧
     (¬ idle ∨ (pkgOf s (k / 8)).alive = false → exec (.surveyWindow k bs) s = .next s)) ∧
    (let ls := bs.filter (fun b => latencyByte b.1)
     (changedBytes s n ls = [] → exec (.inServiceSurvey n bs) s = .next s) ∧
     (changedBytes s n ls ≠ [] → Goes (.inServiceSurvey n bs) s (fun t => kept t ∧
       dues t = dues s ++ [(none, tideUp (s.now + 1), .instr (.mapPublication n ls true))]))) ∧
    (∀ q, partOfCore s g = some q → 3 ≤ (partOf s q).state → Goes (.tableServiceRequest g) s (fun t => t.cores = s.cores ∧
      t.mem = s.mem ∧ (partOf t q).reasons.getLsbD 2 = true ∧ ((partOf s q).live = true → (partOf s q).pendB = none →
        (some q, tideUp (cnow s g + 1 + freezeD s q), .instr (.freezeBoundary q)) ∈ dues t))) ∧
    Goes (.tableServiceAnswer g decline) s (fun t => t.mem = s.mem ∧ dues t = dues s ∧ (∀ h, h ≠ g → coreOf t h = coreOf s h) ∧
      (coreOf t g).live = (coreOf s g).live ∧
      (fieldOf (sysGet (coreOf s g) 0x451) 0 1 = 1 → fieldOf (sysGet (coreOf t g) 0x451) 0 2 = if decline = true then 2 else 0) ∧
      (fieldOf (sysGet (coreOf s g) 0x451) 0 1 = 0 → coreOf t g = coreOf s g)) ∧
    (let owned : Prop := ∃ q, partAt s (k / 8) (k % 8) = some q ∧ (partOf s q).state = 4
     (owned → Goes (.tableEntryWrite k e hi v) s (fun t => kept t ∧ ∀ j y, y < 4096 →
        tableEntry t j y = if j = k ∧ y = e.toNat then withHalf (tableEntry s k e.toNat) hi v &&& tableMask else tableEntry s j y)) ∧
     (¬ owned → exec (.tableEntryWrite k e hi v) s = .next s)) ∧
    Goes (.tableEntryRepair k e) s (fun t => kept t ∧ tableEntry t k e.toNat = tabGet zeroAt s.kept (k * 4096 + e.toNat) &&& tableMask ∧
      ∀ w, w ≠ k * 4096 + e.toNat → tabGet zeroAt t.table w = tabGet zeroAt s.table w)

/-- R338, R340, R430 (12, 18): a command is answered: GO clears, the response carries its tag, and a refused one its code. A
command that the partition's state does not accept is refused with code 1, and an unknown one with code 10.

R11, R16, R70, R72, R215 to R218, R338, R346, R431, R440 to R443 (00, 02, 07, 12, 18): what each mailbox command does when it is
accepted. The states that accept a command and the order of the refusals are assumption log 12, code 3 for an image not found log 8,
the answer to CKPT log 15, the partitions and the cycle of a host's CANCEL log 50, the whole window that a PATCH drops log 56, the
model's choices. -/
def Obligations.MailboxCommands : Prop :=
  (∀ (p : Nat) (s : State),
    let st := (partOf s p).state
    let cmd : Word := tabGet zeroAt (partOf s p).mailbox 0
    let refused (i : Instr) (code : Nat) : Prop := Goes i s (fun t => t.cores = s.cores ∧ t.mem = s.mem ∧ dues t = dues s ∧
      (∀ q, q ≠ p → partOf t q = partOf s q) ∧ t.images = s.images ∧ (partOf t p).state = st ∧
      let m := (partOf t p).mailbox
      tabGet zeroAt m 0 = cmd &&& ~~~(1#64 <<< 63) ∧
      tabGet zeroAt m 8 = BitVec.ofNat 64 (fieldOf cmd 8 16 + 2 ^ 16 + 2 ^ 63) ∧ tabGet zeroAt m 9 = BitVec.ofNat 64 code)
    (st < 2 ∨ 7 < st → refused (.load p) 1 ∧ refused (.unload p) 1 ∧ refused (.patch p) 1 ∧ refused (.attest p) 1 ∧ refused (.rebind p) 1) ∧
    (st ≠ 2 ∨ startPending s p = true → refused (.start p) 1) ∧
    (st ≠ 3 → refused (.ckpt p) 1) ∧
    (st < 3 ∨ 4 < st → refused (.endJob p) 1 ∧ refused (.cancelCommand p) 1 ∧ refused (.hold p) 1 ∧ refused (.release p) 1) ∧
    ((st ≠ 2 ∧ st ≠ 7) ∨ startPending s p = true → refused (.resumeck p) 1) ∧
    refused (.unknownCommandCode p false) 10 ∧
    (2 ≤ st → st ≤ 7 →
      let h := (mbArg s p 0).toNat
      let len := (mbArg s p 1).toNat
      let found := s.placed.find? (fun y => y.1 = p && y.2.addr = h && y.2.len = len)
      let outside : Prop := 2 ^ 48 < h + len ∨ placedOutside s p h = true ∨ placedOutside s p (h + (len - 1)) = true
      (outside → refused (.load p) 6) ∧
      (¬ outside → (found = none → refused (.load p) 3) ∧ ∀ q i, found = some (q, i) →
        (inMainMemory i = false → refused (.load p) 6) ∧
        (inMainMemory i = true →
          ((∀ m ∈ i.maps, m.1 ≠ p / 8) ∨ (∃ m ∈ i.maps, m.2.1 ≠ (pkgOf s m.1).spec.toNat ∨ m.2.2 ≠ (pkgOf s m.1).version.toNat) →
            refused (.load p) 2) ∧
          (mapsInForce s (p / 8) i = true → i.intact = false ∨ i.specs.all (specOk i) = false ∨ relocate i h = none →
            refused (.load p) 3))) ∧
      (imageOf s p h = none → refused (.unload p) 4 ∧ refused (.patch p) 4 ∧ refused (.rebind p) 4) ∧
      (∀ i, imageOf s p h = some i →
        ((∃ m ∈ i.img.maps, ∃ e ∈ (pkgOf s m.1).history, m.2.2 < e.1 ∧ touches i.img m.1 e.2.1 e.2.2 = true) →
          refused (.rebind p) 7) ∧
        (i.img.specs[len]? = none → refused (.patch p) 6) ∧
        ∀ r, i.img.specs[len]? = some r → (specRange r (mbArg s p 2) = false → refused (.patch p) 6) ∧
          (specRange r (mbArg s p 2) = true → runsOn s p h r = true → refused (.patch p) 1)) ∧
      ((imageOf s p h).isSome = true → handleQueued (partOf s p) h = true → refused (.unload p) 5) ∧
      (8 ≤ (mbArg s p 4).toNat → refused (.attest p) 6))) ∧
  (∀ (p : Nat) (s : State),
    let x := partOf s p
    let st := x.state
    let cmd : Word := tabGet zeroAt x.mailbox 0
    let a (i : Nat) : Nat := (mbArg s p i).toNat
    let version := (pkgOf s (p / 8)).version.toNat
    let done (i : Instr) (ok : State → Prop) : Prop := Goes i s (fun t =>
      tabGet zeroAt (partOf t p).mailbox 0 = cmd &&& ~~~(1#64 <<< 63) ∧
      tabGet zeroAt (partOf t p).mailbox 8 = BitVec.ofNat 64 (fieldOf cmd 8 16 + 2 ^ 63) ∧ ok t)
    let result (t : State) : Word := tabGet zeroAt (partOf t p).mailbox 9
    (2 ≤ st → st ≤ 7 → a 0 + a 1 ≤ 2 ^ 48 → placedOutside s p (a 0) = false → placedOutside s p (a 0 + (a 1 - 1)) = false →
      ∀ i j, s.placed.find? (fun y => y.1 = p && y.2.addr = a 0 && y.2.len = a 1) = some (p, i) →
      inMainMemory i = true → mapsInForce s (p / 8) i = true → i.intact = true → i.specs.all (specOk i) = true →
      relocate i (a 0) = some j →
      done (.load p) (fun t => result t = BitVec.ofNat 64 s.nextHandle ∧ t.nextHandle = s.nextHandle + 1 ∧
        t.images = s.images ++ [⟨s.nextHandle, p, j⟩] ∧ t.cores = s.cores)) ∧
    (2 ≤ st → st ≤ 7 → (imageOf s p (a 0)).isSome = true → handleQueued x (a 0) = false → done (.unload p) (fun t =>
      imageOf t p (a 0) = none ∧ t.cores = s.cores ∧ t.mem = s.mem)) ∧
    (2 ≤ st → st ≤ 7 → ∀ i, imageOf s p (a 0) = some i →
      (∀ m ∈ i.img.maps, ∀ e ∈ (pkgOf s m.1).history, m.2.2 < e.1 → touches i.img m.1 e.2.1 e.2.2 = false) →
      done (.rebind p) (fun t => result t = BitVec.ofNat 64 version ∧ (imageOf t p (a 0)).map (fun y => y.img.maps) =
        some (i.img.maps.map (fun m => (m.1, m.2.1, (pkgOf s m.1).version.toNat))) ∧ t.cores = s.cores ∧ t.mem = s.mem)) ∧
    (st = 2 → startPending s p = false → done (.start p) (fun t => (partOf t p).job = a 0 % 2 ^ 16 ∧ (partOf t p).restart = false ∧
      t.cores = s.cores ∧ t.mem = s.mem ∧ dues t = dues s ++ [(none, tideUp (s.now + 1), .instr (.jobStart p))])) ∧
    (3 ≤ st → st ≤ 4 → done (.endJob p) (fun t => (partOf t p).endAsked = true ∧ dues t = dues s ∧ t.cores = s.cores) ∧
      done (.cancelCommand p) (fun t => t.cores = s.cores ∧ t.mem = s.mem ∧ ∀ q ∈ p :: podPeers s p,
        (some q, tideUp ((partOf s q).tide + 1), .instr (.cancelVisible q (BitVec.ofNat 2 (a 0 % 2 ^ 2))
          (BitVec.ofNat 16 (a 0 / 2 ^ 16 % 2 ^ 16)))) ∈ dues t) ∧
      done (.hold p) (fun t => (partOf t p).reasons.getLsbD 4 = true ∧ t.cores = s.cores ∧ t.mem = s.mem ∧
        (x.live = true → x.pendB = none → (some p, tideUp (x.tide + 1 + freezeD s p), .instr (.freezeBoundary p)) ∈ dues t)) ∧
      done (.release p) (fun t => (partOf t p).reasons = x.reasons &&& ~~~16#5 ∧ t.cores = s.cores ∧ t.mem = s.mem ∧
        (x.reasons &&& ~~~16#5 = 0 → x.live = false → (none, tideUp (s.now + freezeD s p), .instr (.partitionResume p)) ∈ dues t))) ∧
    (st = 3 → done (.ckpt p) (fun t => (partOf t p).ckptAsked = some (tideUp (x.tide + 1)) ∧ dues t = dues s ∧ t.cores = s.cores)) ∧
    (2 ≤ st → st ≤ 7 → ∀ i r, imageOf s p (a 0) = some i → i.img.specs[a 1]? = some r → specRange r (mbArg s p 2) = true →
      runsOn s p (a 0) r = false → done (.patch p) (fun t =>
        let valid (c : Core) (w : Nat) : Prop := tabGet (fun _ => false) c.codeValid w = true
        let held (g : Nat) : Prop := ∃ l ∈ x.launches, g ∈ l.cores
        let noted (g w : Nat) : Prop := ∃ f ∈ (partOf t p).refill, f.1 = a 0 ∧ f.2.1 = g ∧ w ∈ f.2.2
        (imageOf t p (a 0)).map (fun y => y.img) = some (patched i.img (a 1) r (mbArg s p 2)) ∧ SameFiles s t ∧
        (st ≠ 5 → (∀ g ∈ patchCores s p r, ¬ held g → ∀ w, ¬ valid (coreOf t g) w ∧ (valid (coreOf s g) w → noted g w)) ∧
          ∀ g, g ∉ patchCores s p r ∨ held g → coreOf t g = coreOf s g) ∧
        (st = 5 → t.cores = s.cores ∧ ∀ c, x.saved = some c → ∃ b, (partOf t p).saved = some b ∧
          ∀ g e, c.cores.find? (fun e => e.1 = g) = some e → patchHits p r g = true → ¬ held g →
            (∃ f, b.cores.find? (fun e => e.1 = g) = some f ∧ ∀ w, ¬ valid f.2 w) ∧ ∀ w, valid e.2 w → noted g w))) ∧
    (2 ≤ st → st ≤ 7 → a 4 < 8 → done (.attest p) (fun t => t.cores = s.cores ∧ t.mem = s.mem ∧
      (partOf t p).report = reportBytes s (p / 8 * 8 + a 4) ((List.range 4).flatMap (fun i => leBytes 8 (a i))))) ∧
    (let k := p / 8
     let o := a 0
     let len := mainNat s k (o + 8) 8
     let bs := memBytes s (mainAddr k o) len
     let queue := (List.range 64).foldl (fun (t : Tab (BitVec 256)) e =>
        let w := BitVec.ofNat 256 (mainNat s k (o + 0x100 + 32 * e) 32) &&& queueMask
        tabSet zeroAt t e (qSet w 0 32 (mapHandle s k (a 1) (a 2) (qHandle w)))) []
     let r := readSections s p k (fun e => qHandle (tabGet zeroAt queue e)) (mainNat s k (o + 4) 4) (o + 4096)
     st = 2 ∨ (st = 7 ∧ layersFree s k x.layers = true) → o + 4096 ≤ 2 ^ 39 → startPending s p = false → a 2 ≤ 64 → a 1 + 8 * a 2 ≤ 2 ^ 39 →
     mainNat s k o 4 = 0x4B564350 → 4096 ≤ len → o + len ≤ 2 ^ 39 → mainNat s k (o + 4) 4 ≤ 8 →
     (Config.sm3 (bs.take 0xFE0 ++ List.replicate 32 0 ++ bs.drop 4096)).toNat = mainNat s k (o + 0xFE0) 32 →
     r.2 = o + len → (∀ c ∈ r.1, ∃ i, boundImage s p c.handle = some i ∧ i.img.bexvar = c.digest) →
     done (.resumeck p) (fun t => (partOf t p).state = 2 ∧ (partOf t p).restart = true ∧ (partOf t p).resume = r.1 ∧
       (partOf t p).queue = queue ∧ (partOf t p).job = mainNat s k (o + 0x10) 2 ∧ (partOf t p).phase = mainNat s k (o + 0x12) 1 ∧
       (∀ i, i < 2 → (partOf t p).wkSaved.getD i 0 = BitVec.ofNat 64 (mainNat s k (o + 0x28 + 8 * i) 8)) ∧
       (partOf t p).enq = mainNat s k (o + 0x68) 8 ∧ (partOf t p).phasesDone = mainNat s k (o + 0x40) 2 ∧
       (∀ i, i < 4 → tabGet (zeroAt (w := 64)) (partOf t p).chans i = BitVec.ofNat 64 (mainNat s k (o + 0x48 + 8 * i) 8)) ∧
       t.cores = s.cores ∧ t.mem = s.mem ∧ (none, tideUp (s.now + 1), .instr (.jobStart p)) ∈ dues t)))

/-- R428 to R437, R445 (18): the context commands. GO clears, and a command while another runs is refused with code 1; FREEZE,
RESUME and DISCARD answer at once, SAVE and RESTORE are busy for a bounded time; DISCARD ends the job in each of its partitions. A
save completes when nothing of the partition is on a wire; it keeps every core as it stands and gives its layers back. A restore
is refused when the headers name another specimen or map version; one that finds the area good puts the bytes of its records and
its cores in place again, frozen at the header's boundary with reason bit 2, and bit 0 where a layer is hot; one that finds it bad
answers RESULT 9, leaves the partition in STATE 6 and its layers free. Code 1 while busy, the order of codes 8, 6 and 2 and the layers
after DISCARD are assumption log 13, the state areas of a kept context log 14, the wait of a save for the last flit log 56, the
model's choices. -/
def Obligations.ContextCommands : Prop :=
  ∀ (p : Nat) (s : State),
    let x := partOf s p
    let w : Word := tabGet zeroAt x.context 1
    let answer (t : State) (code : Nat) (busy : Bool) : Prop :=
      (tabGet (zeroAt (w := 64)) (partOf t p).context 0).getLsbD 63 = false ∧
      fieldOf (tabGet (zeroAt (w := 64)) (partOf t p).context 1) 8 8 = code ∧
      (tabGet (zeroAt (w := 64)) (partOf t p).context 1).getLsbD 63 = true ∧
      (tabGet (zeroAt (w := 64)) (partOf t p).context 1).getLsbD 0 = busy
    let only (i : Instr) (code : Nat) (busy : Bool) : Prop := Goes i s (fun t => answer t code busy ∧ t.cores = s.cores ∧
      t.mem = s.mem ∧ dues t = dues s ∧ (partOf t p).state = x.state ∧ (partOf t p).reasons = x.reasons)
    let runs (t : State) : Prop := (tabGet (zeroAt (w := 64)) (partOf t p).context 1).getLsbD 0 = true ∧ t.cores = s.cores ∧
      t.mem = s.mem ∧ ∃ u, s.now < u ∧ u < s.now + 144000 ∧ dues t = dues s ++ [(none, u, .contextDone p)]
    (w.getLsbD 0 = true → only (.freeze p) 1 true ∧ only (.save p) 1 true ∧ only (.restore p) 1 true ∧ only (.resume p) 1 true ∧
      only (.discard p) 1 true ∧ only (.unknownCommandCode p true) 1 true) ∧
    (w.getLsbD 0 = false →
      only (.unknownCommandCode p true) 10 false ∧
      (x.state ≠ 3 → only (.freeze p) 1 false) ∧
      (x.state = 3 → Goes (.freeze p) s (fun t => answer t 0 false ∧ t.cores = s.cores ∧ t.mem = s.mem ∧
        (partOf t p).reasons.getLsbD 2 = true ∧ (x.live = true → x.pendB = none →
          (some p, tideUp (x.tide + 1 + freezeD s p), .instr (.freezeBoundary p)) ∈ dues t))) ∧
      (x.state ≠ 4 ∨ heldPastPeer s p = true → only (.save p) 1 false) ∧
      (x.state = 4 → heldPastPeer s p = false → spillFits x x.layers = false → only (.save p) 6 false) ∧
      (x.state = 4 → heldPastPeer s p = false → spillFits x x.layers = true → Goes (.save p) s runs) ∧
      (x.state ≠ 5 → only (.restore p) 1 false) ∧
      (let ls := savedLayers s p
       let other := ∃ l, l < 8 ∧ ls.testBit l = true ∧ headerFails s (p / 8) l = false ∧
        (headerNat s (p / 8) l 8 8 ≠ (pkgOf s (p / 8)).spec.toNat ∨ headerNat s (p / 8) l 0x10 4 ≠ (pkgOf s (p / 8)).version.toNat)
       x.state = 5 →
        (layersFree s (p / 8) ls = false → only (.restore p) 8 false) ∧
        (layersFree s (p / 8) ls = true → spillFits x ls = false → only (.restore p) 6 false) ∧
        (layersFree s (p / 8) ls = true → spillFits x ls = true → other → only (.restore p) 2 false) ∧
        (layersFree s (p / 8) ls = true → spillFits x ls = true → ¬ other →
          Goes (.restore p) s (fun t => runs t ∧ (partOf t p).layers = ls))) ∧
      (x.state ≠ 4 ∨ peerDown s p = true → only (.resume p) 1 false) ∧
      (x.state = 4 → peerDown s p = false → Goes (.resume p) s (fun t => answer t 0 false ∧ t.cores = s.cores ∧ t.mem = s.mem ∧
        (partOf t p).reasons = x.reasons &&& ~~~4#5 ∧ (x.reasons &&& ~~~4#5 = 0 → x.live = false →
          (none, tideUp (s.now + freezeD s p), .instr (.partitionResume p)) ∈ dues t))) ∧
      (x.state < 4 ∨ 7 < x.state → only (.discard p) 1 false) ∧
      (4 ≤ x.state → x.state ≤ 7 → Goes (.discard p) s (fun t =>
        answer t 0 false ∧ t.mem = s.mem ∧ (∀ q ∈ jobParts s p, (partOf t q).state = 2 ∧ (partOf t q).queue = [] ∧
          (partOf t q).saved = none ∧ (partOf t q).launches = [] ∧ (partOf t q).live = false) ∧
        (x.state = 4 → (partOf t p).layers = x.layers) ∧
        (4 < x.state → ∀ l, l < 8 → ((partOf t p).layers.testBit l = true ↔
          x.layers.testBit l = true ∧ layerFree s (p / 8) l = true))))) ∧
    (onWire s (partCores s p) = true → (saveDone s p).parts = s.parts ∧ (saveDone s p).cores = s.cores ∧
      (none, s.now + 1, .contextDone p) ∈ dues (saveDone s p)) ∧
    (onWire s (partCores s p) = false →
     ∃ c, (partOf (saveDone s p) p).saved = some c ∧ (partOf (saveDone s p) p).state = 5 ∧ c.b = x.frzB ∧
      (∀ g ∈ partCores s p, ∃ e ∈ c.cores, e.1 = g ∧ e.2.live.s = (coreOf s g).live.s ∧ e.2.live.v = (coreOf s g).live.v ∧
        e.2.live.acc = (coreOf s g).live.acc ∧ e.2.code = (coreOf s g).code ∧ e.2.run = (coreOf s g).run) ∧
      ∀ g ∈ partCores s p, (coreOf (saveDone s p) g).run = .idle) ∧
    (let l0 := (layersOf x.layers).headD 0
     let t := restoreDone s p
     ∀ c, savedState s p l0 = some c →
      let res : Word := tabGet zeroAt (partOf t p).context 1
      (areaFails s p c ≠ none → (partOf t p).state = 6 ∧ (partOf t p).saved = none ∧ fieldOf res 8 8 = 9 ∧ res.getLsbD 63 = true ∧
        res.getLsbD 0 = false ∧ ∀ n l, partAt t n l ≠ some p) ∧
      (areaFails s p c = none → (partOf t p).state = 4 ∧ (partOf t p).live = x.live ∧ fieldOf res 8 8 = 0 ∧ res.getLsbD 0 = false ∧
        (partOf t p).reasons.getLsbD 2 = true ∧ (partOf t p).reasons.getLsbD 0 = hotPart s p ∧
        (∀ i, i < 5 → i ≠ 0 → i ≠ 2 → (partOf t p).reasons.getLsbD i = x.reasons.getLsbD i) ∧
        (partOf t p).tide = headerNat s (p / 8) l0 0x18 8 ∧ (partOf t p).ctx = headerNat s (p / 8) l0 0x2A 2 % 512 ∧
        ∀ r ∈ savedRecords s p,
          let g := 512 * (p / 8) + 48 * r.1 + r.2.2
          (∀ e, c.cores.find? (fun e => e.1 = g) = some e → (coreOf t g).live.s = e.2.live.s ∧ (coreOf t g).live.v = e.2.live.v ∧
            (coreOf t g).run = e.2.run) ∧
          (Inv s → ∀ o, o < 2 ^ 21 → memByte t (sliceAddr g o) = memByte s (recordAddr x (p / 8) r.2.1 r.1 r.2.2 + o))))

/-- R43, R59, R188, R339, R355, R397 (02, 07, 12, 15, 16): a step. The first event that is due leaves the agenda and takes place:
an event that is an instruction is executed by `exec`. The issue of a running core fetches the words at its program counter, which
are counted as read: where the fetch stops the core takes that fault, with the slips of the pass where the words are not valid;
where they are no bundle, ILLEGAL is raised; where they are a bundle of one slot, that slot's instruction is executed by `exec` in
that state, if its unit accepts an operation in the cycle, and the bundle's successor is posted, unless the bundle or the slot
faults; the slots of any bundle are those `issueSlots` executes in order. A control core issues one slot a bundle, whose operands
have landed, and stops at its faults. That an operation in a cycle that its unit's pace refuses has no effect is assumption log 56,
the one order of the events of a cycle log 5, the model's choices. -/
def Obligations.StepRunsTheBundle : Prop :=
  ∀ (s : State) (d : Due) (g : Nat), nextDue s = some d →
    let r := takeDue s d
    (∀ i, d.ev = .instr i → step s = exec i r) ∧
    (d.ev = .issue g → (coreOf s g).run = .running → isControl g = false →
      let u := fetchReads r g
      (∀ e, fetchBundle (coreOf s g) 8 (coreOf s g).pc = .error e →
        step s = .next (failBundle u g (bundleFault e.1 e.2.1 7 (coreOf s g).pc e.2.2 ::
          (if e.1 = 0x03 then shownSlips u g else [])))) ∧
      ∀ ws, fetchBundle (coreOf s g) 8 (coreOf s g).pc = .ok ws →
        (∀ sub pos, decodeBundle ws = .error (sub, pos) → step s = exec (.illegal g sub pos) u) ∧
        (∀ b pos i, decodeBundle ws = .ok b → b.slots = [(pos, i)] →
          let fs := bundleFaults (coreOf u g) b
          let v := enterBundle u g b fs
          v.cur = ⟨g, 0, (coreOf s g).pc, b.nwords, [], fs⟩ ∧
          (accepts v pos i = true → ∀ t, exec i { v with cur := { v.cur with slot := pos } } = .next t →
            (fs = [] → t.cur.faults = [] → step s = .next (finishBundle g b t)) ∧
            (t.cur.faults ≠ [] → step s = .next (failBundle (readBundle u g b) g t.cur.faults))) ∧
          (accepts v pos i = false → fs = [] → step s = .next (finishBundle g b v))) ∧
        (∀ b, decodeBundle ws = .ok b → step s = issueSlots g b u)) ∧
    (∀ ws b i, d.ev = .issue g → (coreOf s g).run = .running → isControl g = true →
      fetchBundle (coreOf s g) 8 (coreOf s g).pc = .ok ws → decodeBundle ws = .ok b → b.slots = [(0, i)] → controlOp i = true →
      (∀ n ∈ i.srcs, n < 32 → unlanded r g n = false) →
      let u := modCore r g (fun c => { c with pass := { c.pass with next := none } })
      ∀ t, exec i { u with cur := ⟨g, 0, (coreOf s g).pc, b.nwords, [], codeEndFaults (coreOf s g) b⟩ } = .next t →
        (t.cur.faults = [] → step s = .next (finishBundle g b t)) ∧
        ∀ f, firstFault t.cur.faults = some f → step s = .next (controlStop u g f))

/-- R6, R7, R80 (00, 03): with nothing due and nothing from outside, a cycle ends: the package counter advances by one, and
the tide counter of each live partition with it; one that is frozen stands. Every core, every byte of memory and everything
a partition holds beside its counter is as before. A result that a unit is not to deliver in the new cycle (R377) is due there. An input of the outside world takes place when its cycle has come. -/
def Obligations.CycleEnds : Prop :=
  ∀ s : State, nextDue s = none →
    (fromOutside s = none → ∃ t, step s = .next t ∧ t.now = s.now + 1 ∧
      (∀ p, partOf t p = if (partOf s p).live = true then { partOf s p with tide := (partOf s p).tide + 1 } else partOf s p) ∧
      t.cores = s.cores ∧ t.mem = s.mem ∧ t.table = s.table ∧ t.tags = s.tags ∧ t.pkgs = s.pkgs ∧ t.flits = s.flits ∧
      t.xfers = s.xfers ∧ t.rdvs = s.rdvs ∧ (∀ e ∈ dues s, e ∈ dues t) ∧
      ∀ c g q, (c, Instr.timing g q) ∈ s.inbox → c ≤ s.now + 1 → (none, s.now + 1, .instr (.timing g q)) ∈ dues t) ∧
    (∀ x, fromOutside s = some x → x.1 ≤ s.now ∧ step s = exec x.2 { s with inbox := s.inbox.erase x })

/-- R355 (15): of the faults of one cycle the record names the first: the one found takes the fault only if no other comes
before it in the order of the classes, and of one class the lowest slot; faults found later in the same cycle replace the
record only if they come before it, and no second rollback is made. Of those found before the issue, with what the rest of the
cycle would have brought, the first is taken at once.

R199, R354, R355 (07, 15): a bundle that is no instruction raises ILLEGAL with its subclass and slot; the core no longer
runs its pass, its next bundle is no longer due, and its undo begins in the next cycle.

R141, R142, R234, R313, R356, R379 (05, 08, 11, 15): OPERAND and XLATE at issue. LDS and STS out of the slice or off their width,
and RET out of the window or off a word, raise OPERAND 1 with the address. A copy or a far access over a route that is not valid or of
kind 3 raises OPERAND 6, and EXTENT names its bytes; a far address of more than 48 bits or off its width OPERAND 1; one that no entry
covers XLATE 1, and one whose entry does not permit the access XLATE 2, with the piece, the permission asked for and the entry. -/
def Obligations.FaultOrder : Prop :=
  ((∀ fs : List FaultRec, fs ≠ [] → ∃ r, firstFault fs = some r ∧ r ∈ fs ∧
    ∀ q ∈ fs, faultRank r.cls < faultRank q.cls ∨ (faultRank r.cls = faultRank q.cls ∧ r.slot ≤ q.slot)) ∧
  [0x0B, 0x04, 0x0C, 0x0E, 0x05, 0x06, 0x03, 0x02, 0x08, 0x09, 0x0A, 0x0D, 0x07, 0x01].Pairwise
    (fun a b => faultRank a < faultRank b) ∧
  (∀ (g : Nat) (rl : Roll) (r : FaultRec) (s : State), (coreOf s g).run = .rolling → (coreOf s g).roll = some rl →
    rl.d = cnow s g → r.cls ≠ 0x0B →
    let c := coreOf s g
    let t := takeFault s g r
    let wins := decide (faultRank r.cls < rl.rank) || (decide (faultRank r.cls = rl.rank) && decide (r.slot < rl.slot))
    (coreOf t g).run = .rolling ∧ t.agenda = s.agenda ∧ t.mem = s.mem ∧ (∀ h, h ≠ g → coreOf t h = coreOf s h) ∧
    (wins = false → coreOf t g = c) ∧
    (wins = true → r.cls < 2 ^ 8 → r.sub < 2 ^ 8 → fieldOf (sysGet (coreOf t g) 0x408) 0 16 = r.cls + r.sub * 2 ^ 8 ∧
      sysGet (coreOf t g) 0x40E = BitVec.ofNat 64 rl.d ∧ fieldOf (sysGet (coreOf t g) 0x402) 0 32 = fieldOf (sysGet c 0x402) 0 32)) ∧
  (∀ (g : Nat) (r : FaultRec) (s : State) (d : Due), d.ev = .faults g → (coreOf s g).run = .running →
    firstFault ((coreOf s g).found ++ laterFaults s g ++ (dueFaults s g).2) = some r → r.cls < 2 ^ 8 → r.sub < 2 ^ 8 →
    ∃ t, runEvent d s = .next t ∧ TakesFault t g r.cls r.sub ∧ (coreOf t g).found = [] ∧ ∀ a, memByte t a = memByte s a)) ∧
  (∀ (g sub pos : Nat) (s : State), (coreOf s g).run = .running → sub < 2 ^ 8 → pos < 8 →
    Goes (.illegal g sub pos) s (fun t => TakesFault t g 0x02 sub ∧ fieldOf (sysGet (coreOf t g) 0x408) 16 3 = pos ∧
      fieldOf (sysGet (coreOf t g) 0x409) 32 16 = (coreOf s g).pc % 2 ^ 16 ∧
      (∀ e ∈ dues t, e.2.2 ≠ .issue g) ∧ (clkOf s g, cnow s g + 1, .instr (.undoWriteback g)) ∈ dues t ∧
      (coreOf t g).live = (coreOf s g).live ∧ (∀ h, h ≠ g → (coreOf t h).live = (coreOf s h).live) ∧ Writes s t [])) ∧
  (∀ s : State,
    let g := s.cur.g
    let operand (f : FaultRec) (sub : Nat) : Prop := f.cls = 0x0A ∧ f.sub = sub
    let xlate (f : FaultRec) (sub need e : Nat) : Prop := f.cls = 0x0D ∧ f.sub = sub ∧ f.detail = BitVec.ofNat 64 (need + e * 16)
    (∀ z d r i, isControl g = false →
      let n := 2 ^ z.toNat
      let x := scalarOffset s r i n
      ¬ (0 ≤ x ∧ x + n ≤ 2 ^ 21 ∧ x % n = 0) →
      (operandFaults s (.lds z d r i) = [] →
        Raises (.lds z d r i) s (fun f => operand f 1 ∧ f.addr = (x % 2 ^ 48).toNat ∧ f.cmd = 0xFFFF)) ∧
      (operandFaults s (.sts z d r i) = [] →
        Raises (.sts z d r i) s (fun f => operand f 1 ∧ f.addr = (x % 2 ^ 48).toNat ∧ f.cmd = 0xFFFF))) ∧
    (∀ a, operandFaults s (.ret a) = [] →
      let v := (sVal s a).toNat
      2 ^ 16 ≤ v ∨ v % 4 ≠ 0 → Raises (.ret a) s (fun f => operand f 1 ∧ f.addr = v % 2 ^ 48)) ∧
    (∀ (ins : Instr) (i : BitVec 4) (a : RegField) (m : Md) (need w : Nat),
      (∃ z d o, (ins = .rld z i d a o m ∧ need = 1 ∨ ins = .rst z i d a o m ∧ need = 2) ∧ w = farWidth z) ∨
      (∃ op d o, ins = .ratomInt op i d a o m ∧ need = 4 ∧ w = if xfOf m / 2 ^ 19 % 2 = 1 then 8 else 4) ∨
      (∃ op d o, ins = .ratomOther op i d a o m ∧ need = 4 ∧ w = if xfOf m / 2 ^ 19 % 2 = 1 then 8 else 4) →
      guardMd s m = true → operandFaults s ins = [] → deadFaults s = [] → tableFaults s g = [] → capacityFaults s g = [] →
      let r := routeReg s g i.toNat
      let va := (sVal s a).toNat
      let usable : Prop := rtValid r = true ∧ rtKind r ≠ 3
      let cmd (f : FaultRec) : Prop := f.cmd = (coreOf s g).pass.engines % 2 ^ 16 ∧ f.extent = w
      (¬ usable → Raises ins s (fun f => operand f 6 ∧ cmd f)) ∧
      (usable → 2 ^ 48 ≤ va ∨ va % w ≠ 0 → Raises ins s (fun f => operand f 1 ∧ f.addr = va % 2 ^ 48 ∧ cmd f)) ∧
      (usable → va < 2 ^ 48 → va % w = 0 →
        (coveringEntry s g va = none → Raises ins s (fun f => xlate f 1 need 0xFFF ∧ f.addr = va ∧ f.piece = 0 ∧ cmd f)) ∧
        ∀ e x, coveringEntry s g va = some (e, x) → permits x need = false →
          Raises ins s (fun f => xlate f 2 need e ∧ f.addr = va ∧ f.piece = 0 ∧ cmd f))) ∧
    (∀ (put : Bool) (i : BitVec 4) (d a : RegField) (sh : BitVec 3) (m : Md),
      let ins : Instr := .cpy put i d a sh m
      let r := routeReg s g i.toNat
      let lo := (sVal s a).toNat
      let fa := (sVal s d).toNat
      let ps := piecesOf s g sh.toNat false lo fa
      let need := if put = true then 2 else 1
      let x := routed s g { newXfer s g 0 0 put (decide (xfOf m / 2 ^ 19 % 2 = 1)) r with mask := BitVec.allOnes 64 } r fa (cnow s g) ps
      let first := homeOf (translate s g (vaOf ((ps.headD (0, fa, 0)).2.1)))
      let entryOk (k : Nat) : Prop :=
        xlateAt s g (vaOf (ps.getD k (0, 0, 0)).2.1) need (reachSub s g r (decide (s.cur.slot = 4)) first) = none
      guardMd s m = true → operandFaults s ins = [] → deadFaults s = [] → tableFaults s g = [] → capacityFaults s g = [] →
      firstPortFaults s g x (cnow s g) = [] →
      (rtValid r = false ∨ rtKind r = 3 → Raises ins s (fun f => operand f 6 ∧ f.extent = shRun s g sh.toNat)) ∧
      (routeFaults s r = [] → shapeFaults s g sh.toNat ps = [] → (isStack x.dst = true → ps.length ≤ 16384) →
        localFaults s lo ps = [] → fa < 2 ^ 48 → ∀ k, k < ps.length → (∀ j, j < k → entryOk j) →
        let va := vaOf (ps.getD k (0, 0, 0)).2.1
        (coveringEntry s g va = none → Raises ins s (fun f => xlate f 1 need 0xFFF ∧ f.addr = va ∧ f.piece = k)) ∧
        ∀ e q, coveringEntry s g va = some (e, q) → permits q need = false →
          Raises ins s (fun f => xlate f 2 need e ∧ f.addr = va ∧ f.piece = k))))

/-- R336, R343, R80 (12, 03): power-on. The counter is at 0, no partition is created and none is live, nothing is in flight,
the boot ROM of package 0 runs first, and the registers with a reset value other than 0 hold it. That unwritten memory and
every register without one read 0 is the model's choice (assumption log 1 and 2). -/
def Obligations.ResetValues : Prop :=
  let s := State.reset
  s.now = 0 ∧ s.flits = [] ∧ s.xfers = [] ∧ s.rdvs = [] ∧ s.inbox = [] ∧ s.images = [] ∧
  (∀ p, (partOf s p).state = 0 ∧ (partOf s p).live = false ∧ (partOf s p).tide = 0) ∧
  step s = exec (.powerOnReset 0) { s with agenda := [] } ∧
  (∀ g, (coreOf s g).run = .idle ∧ (coreOf s g).pc = 0 ∧ (coreOf s g).pass = Pass.none ∧
    (∀ o, tabGet (fun _ => false) (coreOf s g).codeValid o = false) ∧
    (∀ i, sysGet (coreOf s g) i = if 0x300 ≤ i ∧ i < 0x340 then
        (if i % 8 = 0 then 0xFFFFFFFF00000000#64 else if i % 8 ≤ 3 then 1#64 else 0#64)
      else if i = 0x428 then 1#64 else 0#64) ∧
    (∀ n, sReg (coreOf s g) n = 0 ∧ vReg (coreOf s g) n = 0 ∧ mReg (coreOf s g) n = 0 ∧ lcReg (coreOf s g) n = 0)) ∧
  ∀ a, memByte s a = 0

/-- The model's choice of how memory is held (assumption log 1): after reset it is in its canonical form. -/
def Obligations.InvAtReset : Prop := Inv State.reset

/-- Every step that goes on keeps memory in its canonical form, whatever the state: equal memories stay equal data. The form
is the model's (assumption log 1); that every byte of R137's spaces reads as it was last written rests on it. -/
def Obligations.InvKept : Prop := ∀ s t : State, Inv s → step s = .next t → Inv t

/-- R187 to R203 (07): words the spec writes out decode to the instructions they stand for. -/
def Obligations.EncodingWords : Prop :=
  decodeWords [0x80002106#32] = .ok (.add 1 2 3 none, true, []) ∧
  decodeWords [0x89404001#32] = .ok (.li false 2 (.k0 1), true, []) ∧
  decodeWords [0x0E405041#32, 0xE0000008#32] = .ok (.syswr 2 32 (.k1 0x441), true, []) ∧
  decodeWords [0x8B849020#32] = .ok (.repeatLoop 0 32 (.k0 32), true, []) ∧
  decodeWords [0x8C500BB4#32] = .ok (.rdvBar 2 0 23 26, true, []) ∧
  decodeWords [0x10C0039C#32] = .ok (.vfma 0 0 7 14 false none, false, []) ∧
  decodeWords [0x90C08A97#32] = .ok (.vfma 0 4 21 11 true none, true, []) ∧
  decodeWords [0x9B5922BC#32] = .ok (.vstx 3 9 5 30 none, true, []) ∧
  decodeWords [0xA0026516#32] = .ok (.mma 0 2 false true true 10 11 false none, true, []) ∧
  decodeWords [0xB100A290#32] = .ok (.code 0 1 17 18 0 none, true, []) ∧
  decodeWords [0xF0000054#32] = .ok (.idle 84, true, [])

/-- R187, R191 to R203 (07): every well-formed instruction's words decode to it, with every operand and modifier. -/
def Obligations.DecodeOfEncode : Prop :=
  ∀ (i : Instr) (last : Bool), i.isSlot = true → i.wf = true → decodeWords (encode last i) = .ok (i, last, [])

/-- R79 (02): ageing at a launch point. Where an entry starts, every ready entry that did not has PASS one more; at 8 PASS
is 0 and PRIO one more, at most 3. Where none starts, no PASS changes. -/
def Obligations.QueueAgeing : Prop :=
  ∀ (p t : Nat) (s : State),
    let x := partOf s p
    let y := partOf (runQueue s p t) p
    let started (e : Nat) : Prop := e ∈ x.staged ∧ qState (queueEntry x e) = 1 ∧ qState (queueEntry y e) = 2
    x.resume = [] → x.ready.Nodup → (∀ e ∈ x.staged, e < 64 ∧ e ∈ x.waiting) → (∀ e, qPass (queueEntry x e) < 8) →
    ((∃ e, started e) → ∀ e ∈ x.ready, qState (queueEntry y e) = 1 →
      (qPass (queueEntry x e) + 1 < 8 →
        qPass (queueEntry y e) = qPass (queueEntry x e) + 1 ∧ qPrio (queueEntry y e) = qPrio (queueEntry x e)) ∧
      (qPass (queueEntry x e) + 1 = 8 →
        qPass (queueEntry y e) = 0 ∧ qPrio (queueEntry y e) = min 3 (qPrio (queueEntry x e) + 1))) ∧
    ((¬ ∃ e, started e) → ∀ e, qPass (queueEntry y e) = qPass (queueEntry x e) ∧
      qPrio (queueEntry y e) = qPrio (queueEntry x e))

/-- R71, R72, R91, R157, R178, R179, R315, R317, R319, R323, R325, R326, R328, R398 (02, 03, 05, 06, 11, 16): what the later effects
of instructions do when they take place. A latch captures; STAGECNT is set; a receive slot is armed with its base; a completion
register is read, and its value lands; a cancel becomes visible in every partition of the job after the fence cost; a host copy takes
its channel's next identifier, and its pieces join the queue; the buffer, the bank ALU, DRAIN and the contexts do what the other
statements say of `redMergeNow`, `redReleaseNow`, `aluReadNow`, `drainDecideNow`, `saveDone` and `restoreDone`. The value of an RLD or
RATOM lands in D, poisoned where it came so; one that met another landing or a full port is a free value (assumption log 3 and 43, the
model's choices). A transfer that lands counts in STAGECNT; a CPYT's margins and entry land with it, unless a piece is missing or the
home refuses them, of which the sender is told. -/
def Obligations.LaterEffects : Prop :=
  ∀ (g : Nat) (s : State) (d : Due),
    let c := coreOf s g
    let runs (e : Ev) (ok : State → Prop) : Prop := d.ev = e → ∃ t, runEvent d s = .next t ∧ (∀ a, memByte t a = memByte s a) ∧ ok t
    let alone (t : State) : Prop := (∀ h, h ≠ g → coreOf t h = coreOf s h) ∧ dues t = dues s
    (∀ q x, runs (.perform g (.capture q x)) (fun t => alone t ∧
      (∀ j, tabGet zeroAt (coreOf t g).live.hold j = if j = q then x else tabGet zeroAt c.live.hold j) ∧ SameFiles s t)) ∧
    (∀ x, runs (.perform g (.stageSet x)) (fun t => alone t ∧ (coreOf t g).live.stage = x ∧ SameFiles s t)) ∧
    (∀ n base, base < 2 ^ 21 → runs (.perform g (.recv n base)) (fun t => alone t ∧ SameFiles s t ∧
      fieldOf (tabGet zeroAt (coreOf t g).recv n) 0 21 = base ∧ fieldOf (tabGet zeroAt (coreOf t g).recv n) 63 1 = 1 ∧
      ∀ j, j ≠ n → tabGet zeroAt (coreOf t g).recv j = tabGet zeroAt c.recv j)) ∧
    (∀ i r cyc, runs (.perform g (.lateRead i r cyc)) (fun t => t.cores = s.cores ∧
      dues t = dues s ++ [(clkOf s g, cyc, .instr (.resultLanding g (.sreg r (sysRead s g i))))])) ∧
    (∀ lvl id p, partOfCore s g = some p → runs (.perform g (.cancel lvl id)) (fun t => t.cores = s.cores ∧ ∀ q ∈ p :: podPeers s p,
      (some q, cnow s g + fenceCost s g (if (partOf s p).pod = true then 6 else 5),
        .instr (.cancelVisible q (BitVec.ofNat 2 lvl) (BitVec.ofNat 16 id))) ∈ dues t)) ∧
    (∀ op x p, xferOf s op = some x → partOfCore s x.g = some p → runs (.perform g (.hcpy op)) (fun t =>
      let id := ((tabGet zeroAt (partOf s p).chanNext x.chan).toNat + 1) % 2 ^ 32
      (tabGet zeroAt (partOf t p).chanNext x.chan).toNat = id ∧ (∃ y, xferOf t op = some y ∧ y.hcid = id ∧ y.pieces = x.pieces) ∧
      (coreOf t x.g).svc = (coreOf s x.g).svc ++ (List.range x.pieces.length).map (fun k => Svc.hcpy op k) ∧
      (x.pieces = [] → (clkOf s x.g, windowAfter (cnow s x.g), .instr (.hcpyPiece op 0)) ∈ dues t))) ∧
    (∀ route line var e v, runs (.perform g (.redMerge route line var e v)) (fun t => alone t ∧
      coreOf t g = redMergeNow c route line var e v)) ∧
    (∀ all route, runs (.perform g (.redRelease all route)) (fun t => alone t ∧ coreOf t g = redReleaseNow c all route)) ∧
    (∀ b, d.ev = .aluRead b → runEvent d s = .next (aluReadNow s b)) ∧
    (∀ n, d.ev = .perform g (.drainDecide n) → runEvent d s = .next (drainDecideNow s g n)) ∧
    (∀ p, d.ev = .contextDone p → (tabGet zeroAt (partOf s p).context 1).getLsbD 0 = true →
      ((partOf s p).state = 4 → runEvent d s = .next (saveDone s p)) ∧ ((partOf s p).state = 5 → runEvent d s = .next (restoreDone s p))) ∧
    (∀ p, d.ev = .contextDone p → (tabGet zeroAt (partOf s p).context 1).getLsbD 0 = false → runEvent d s = .next s) ∧
    (∀ id f sq v bad w, flitOf s id = some f → f.load = .reply sq v bad → anyArmed (coreOf s f.home) = false →
      (coreOf s f.home).waits.find? (fun w => w.1 = sq) = some w →
      let h := f.home
      let r := w.2.2.2 % 128
      runs (.reply id) (fun t => flitOf t id = none ∧ (∀ y ∈ (coreOf t h).waits, y.1 ≠ sq) ∧ (∀ k, k ≠ h → coreOf t k = coreOf s k) ∧
        (∀ j, sReg (coreOf t h) j = if j = r ∧ r < 32 then (if w.2.2.2 < 128 then v else (freeWord s).1) else sReg (coreOf s h) j) ∧
        (coreOf t h).live.v = (coreOf s h).live.v ∧ (coreOf t h).live.m = (coreOf s h).live.m ∧
        ((bad = true ∨ f.st = 3) → r < 32 → ∀ k, k < 2 → tabGet (fun _ => 0) (coreOf t h).live.bad (badKey 4 (2 * r + k)) = 1000))) ∧
    (∀ op x, xferOf s op = some x → x.cancelled = false →
      let h := if x.put = true then x.dst else x.g
      let n := x.pieces.length - 9
      let no := refusal s { newFlit s x.g h x.inst 0 0 0 [] (.recall x.inst) with tag := x.tag } 0
      let kept (t : State) : Prop := ∀ k, (coreOf t k).live.marg = (coreOf s k).live.marg ∧ (coreOf t k).live.dir = (coreOf s k).live.dir
      runs (.xferLand op) (fun t => SameFiles s t ∧
        (coreOf t x.g).live.stage = (if x.stg = true then (coreOf s x.g).live.stage + 1 else (coreOf s x.g).live.stage) ∧
        ((x.kind ≠ 3 ∨ isStack h = true) → kept t) ∧
        (x.kind = 3 → isStack h = false →
          ((∃ j, j < 9 ∧ pieceData x (n + j) = none) → kept t) ∧
          (∀ r, h ≠ x.g → no = some r → kept t ∧ ∀ j, j < 9 → (pieceData x (n + j)).isSome = true →
            Told s t { newFlit s x.g h x.inst 0 x.land x.lback x.path (.recall x.inst) with
              ref := some (pieceRef x (n + j) h), tag := x.tag } r) ∧
          (∀ lines : Nat → List Byte, (h = x.g ∨ no = none) → anyArmed (coreOf s h) = false → x.entry < 64 →
            (∀ j, j < 9 → ∃ b, pieceData x (n + j) = some (lines j, b)) →
            (∀ w, w < 256 → margWord (coreOf t h) x.entry w = if w < 128 then
              BitVec.ofNat 32 (leNat ((List.range 4).map (fun k => (lines (w / 16)).getD (4 * (w % 16) + k) 0))) else 0) ∧
            dirEntry (coreOf t h) x.entry = BitVec.ofNat 64 (1 + leNat ((lines 8).take 8) % 2 ^ 19 * 2 +
              pieceOff x 0 % 2 ^ 21 * 2 ^ 20)))))
end

