-- ==== Sys2Proof/Laws/Dispatch.lean ====
section
/-! SUPPORT. What exec is on each instruction: its meaning, by name. -/

namespace Sys2Proof.Machine

@[simp] theorem exec_add (d a b m s) : exec (.add d a b m) s = execAdd d a b m s := rfl
@[simp] theorem exec_sub (d a b m s) : exec (.sub d a b m) s = execSub d a b m s := rfl
@[simp] theorem exec_mul (d a b m s) : exec (.mul d a b m) s = execMul d a b m s := rfl
@[simp] theorem exec_mulh (d a b m s) : exec (.mulh d a b m) s = execMulh d a b m s := rfl
@[simp] theorem exec_mulhn (d a b m s) : exec (.mulhn d a b m) s = execMulhn d a b m s := rfl
@[simp] theorem exec_div (d a b m s) : exec (.div d a b m) s = execDiv d a b m s := rfl
@[simp] theorem exec_divn (d a b m s) : exec (.divn d a b m) s = execDivn d a b m s := rfl
@[simp] theorem exec_rem (d a b m s) : exec (.rem d a b m) s = execRem d a b m s := rfl
@[simp] theorem exec_remn (d a b m s) : exec (.remn d a b m) s = execRemn d a b m s := rfl
@[simp] theorem exec_minS (d a b m s) : exec (.minS d a b m) s = execMinS d a b m s := rfl
@[simp] theorem exec_minn (d a b m s) : exec (.minn d a b m) s = execMinn d a b m s := rfl
@[simp] theorem exec_maxS (d a b m s) : exec (.maxS d a b m) s = execMaxS d a b m s := rfl
@[simp] theorem exec_maxn (d a b m s) : exec (.maxn d a b m) s = execMaxn d a b m s := rfl
@[simp] theorem exec_slt (d a b m s) : exec (.slt d a b m) s = execSlt d a b m s := rfl
@[simp] theorem exec_sltn (d a b m s) : exec (.sltn d a b m) s = execSltn d a b m s := rfl
@[simp] theorem exec_seq (d a b m s) : exec (.seq d a b m) s = execSeq d a b m s := rfl
@[simp] theorem exec_andS (d a b m s) : exec (.andS d a b m) s = execAndS d a b m s := rfl
@[simp] theorem exec_orS (d a b m s) : exec (.orS d a b m) s = execOrS d a b m s := rfl
@[simp] theorem exec_xorS (d a b m s) : exec (.xorS d a b m) s = execXorS d a b m s := rfl
@[simp] theorem exec_andn (d a b m s) : exec (.andn d a b m) s = execAndn d a b m s := rfl
@[simp] theorem exec_shl (d a b m s) : exec (.shl d a b m) s = execShl d a b m s := rfl
@[simp] theorem exec_shr (d a b m s) : exec (.shr d a b m) s = execShr d a b m s := rfl
@[simp] theorem exec_sar (d a b m s) : exec (.sar d a b m) s = execSar d a b m s := rfl
@[simp] theorem exec_sel (d a b m s) : exec (.sel d a b m) s = execSel d a b m s := rfl
@[simp] theorem exec_clz (d a m s) : exec (.clz d a m) s = execClz d a m s := rfl
@[simp] theorem exec_ctz (d a m s) : exec (.ctz d a m) s = execCtz d a m s := rfl
@[simp] theorem exec_popc (d a m s) : exec (.popc d a m) s = execPopc d a m s := rfl
@[simp] theorem exec_addi (d a im s) : exec (.addi d a im) s = execAddi d a im s := rfl
@[simp] theorem exec_andi (d a im s) : exec (.andi d a im) s = execAndi d a im s := rfl
@[simp] theorem exec_ori (d a im s) : exec (.ori d a im) s = execOri d a im s := rfl
@[simp] theorem exec_xori (d a im s) : exec (.xori d a im) s = execXori d a im s := rfl
@[simp] theorem exec_shli (d a im s) : exec (.shli d a im) s = execShli d a im s := rfl
@[simp] theorem exec_shri (d a im s) : exec (.shri d a im) s = execShri d a im s := rfl
@[simp] theorem exec_sari (d a im s) : exec (.sari d a im) s = execSari d a im s := rfl
@[simp] theorem exec_slti (d a im s) : exec (.slti d a im) s = execSlti d a im s := rfl
@[simp] theorem exec_sltni (d a im s) : exec (.sltni d a im) s = execSltni d a im s := rfl
@[simp] theorem exec_li (x d im s) : exec (.li x d im) s = execLi x d im s := rfl
@[simp] theorem exec_lds (z d r im s) : exec (.lds z d r im) s = execLds z d r im s := rfl
@[simp] theorem exec_sts (z d r im s) : exec (.sts z d r im) s = execSts z d r im s := rfl
@[simp] theorem exec_agen (n d a b m s) : exec (.agen n d a b m) s = execAgen n d a b m s := rfl
@[simp] theorem exec_lcset (n a im s) : exec (.lcset n a im) s = execLcset n a im s := rfl
@[simp] theorem exec_br (im s) : exec (.br im) s = execBr im s := rfl
@[simp] theorem exec_brc (z a im s) : exec (.brc z a im) s = execBrc z a im s := rfl
@[simp] theorem exec_call (d im s) : exec (.call d im) s = execCall d im s := rfl
@[simp] theorem exec_ret (a s) : exec (.ret a) s = execRet a s := rfl
@[simp] theorem exec_repeatLoop (n a im s) : exec (.repeatLoop n a im) s = execRepeatLoop n a im s := rfl
@[simp] theorem exec_moor (o c sigl sigh budget safe s) : exec (.moor o c sigl sigh budget safe) s = execMoor o c sigl sigh budget safe s := rfl
@[simp] theorem exec_rdvPlain (sc g s) : exec (.rdvPlain sc g) s = execRdvPlain sc g s := rfl
@[simp] theorem exec_rdvBar (sc g a b s) : exec (.rdvBar sc g a b) s = execRdvBar sc g a b s := rfl
@[simp] theorem exec_rdvWm (sc g a b s) : exec (.rdvWm sc g a b) s = execRdvWm sc g a b s := rfl
@[simp] theorem exec_rdvCmt (sc g a b s) : exec (.rdvCmt sc g a b) s = execRdvCmt sc g a b s := rfl
@[simp] theorem exec_rdvLp (sc s) : exec (.rdvLp sc) s = execRdvLp sc s := rfl
@[simp] theorem exec_halt (s) : exec (.halt) s = execHalt s := rfl
@[simp] theorem exec_trap (z a im s) : exec (.trap z a im) s = execTrap z a im s := rfl
@[simp] theorem exec_rett (s) : exec (.rett) s = execRett s := rfl
@[simp] theorem exec_resync (s) : exec (.resync) s = execResync s := rfl
@[simp] theorem exec_sysrd (d a im s) : exec (.sysrd d a im) s = execSysrd d a im s := rfl
@[simp] theorem exec_syswr (d a im s) : exec (.syswr d a im) s = execSyswr d a im s := rfl
@[simp] theorem exec_cancel (lvl a im s) : exec (.cancel lvl a im) s = execCancel lvl a im s := rfl
@[simp] theorem exec_winv (a b m s) : exec (.winv a b m) s = execWinv a b m s := rfl
@[simp] theorem exec_vadd (f d a b h m s) : exec (.vadd f d a b h m) s = execVadd f d a b h m s := rfl
@[simp] theorem exec_vsub (f d a b h m s) : exec (.vsub f d a b h m) s = execVsub f d a b h m s := rfl
@[simp] theorem exec_vmul (f d a b h m s) : exec (.vmul f d a b h m) s = execVmul f d a b h m s := rfl
@[simp] theorem exec_vfma (f d a b h m s) : exec (.vfma f d a b h m) s = execVfma f d a b h m s := rfl
@[simp] theorem exec_vfms (f d a b h m s) : exec (.vfms f d a b h m) s = execVfms f d a b h m s := rfl
@[simp] theorem exec_vmin (f d a b h m s) : exec (.vmin f d a b h m) s = execVmin f d a b h m s := rfl
@[simp] theorem exec_vmax (f d a b h m s) : exec (.vmax f d a b h m) s = execVmax f d a b h m s := rfl
@[simp] theorem exec_vabs (f d a h m s) : exec (.vabs f d a h m) s = execVabs f d a h m s := rfl
@[simp] theorem exec_vneg (f d a h m s) : exec (.vneg f d a h m) s = execVneg f d a h m s := rfl
@[simp] theorem exec_vadds (f d a b h m s) : exec (.vadds f d a b h m) s = execVadds f d a b h m s := rfl
@[simp] theorem exec_vsubs (f d a b h m s) : exec (.vsubs f d a b h m) s = execVsubs f d a b h m s := rfl
@[simp] theorem exec_vmulh (f d a b h m s) : exec (.vmulh f d a b h m) s = execVmulh f d a b h m s := rfl
@[simp] theorem exec_vcmp (f cond k a b h m s) : exec (.vcmp f cond k a b h m) s = execVcmp f cond k a b h m s := rfl
@[simp] theorem exec_vsel (f d a b h m s) : exec (.vsel f d a b h m) s = execVsel f d a b h m s := rfl
@[simp] theorem exec_vand (d a b h m s) : exec (.vand d a b h m) s = execVand d a b h m s := rfl
@[simp] theorem exec_vor (d a b h m s) : exec (.vor d a b h m) s = execVor d a b h m s := rfl
@[simp] theorem exec_vxor (d a b h m s) : exec (.vxor d a b h m) s = execVxor d a b h m s := rfl
@[simp] theorem exec_vandn (d a b h m s) : exec (.vandn d a b h m) s = execVandn d a b h m s := rfl
@[simp] theorem exec_vshl (f d a b h m s) : exec (.vshl f d a b h m) s = execVshl f d a b h m s := rfl
@[simp] theorem exec_vshr (f d a b h m s) : exec (.vshr f d a b h m) s = execVshr f d a b h m s := rfl
@[simp] theorem exec_vsar (f d a b h m s) : exec (.vsar f d a b h m) s = execVsar f d a b h m s := rfl
@[simp] theorem exec_vcvt (rm d a h m s) : exec (.vcvt rm d a h m) s = execVcvt rm d a h m s := rfl
@[simp] theorem exec_vrcp (f d a h m s) : exec (.vrcp f d a h m) s = execVrcp f d a h m s := rfl
@[simp] theorem exec_vrsq (f d a h m s) : exec (.vrsq f d a h m) s = execVrsq f d a h m s := rfl
@[simp] theorem exec_vsqrt (f d a h m s) : exec (.vsqrt f d a h m) s = execVsqrt f d a h m s := rfl
@[simp] theorem exec_vdiv (f d a b h m s) : exec (.vdiv f d a b h m) s = execVdiv f d a b h m s := rfl
@[simp] theorem exec_vexp2 (f d a h m s) : exec (.vexp2 f d a h m) s = execVexp2 f d a h m s := rfl
@[simp] theorem exec_vlog2 (f d a h m s) : exec (.vlog2 f d a h m) s = execVlog2 f d a h m s := rfl
@[simp] theorem exec_vred (f d a op h m s) : exec (.vred f d a op h m) s = execVred f d a op h m s := rfl
@[simp] theorem exec_vscan (f d a op h m s) : exec (.vscan f d a op h m) s = execVscan f d a op h m s := rfl
@[simp] theorem exec_vperm (d a b h m s) : exec (.vperm d a b h m) s = execVperm d a b h m s := rfl
@[simp] theorem exec_vshuf (f d a b h m s) : exec (.vshuf f d a b h m) s = execVshuf f d a b h m s := rfl
@[simp] theorem exec_vbcast (d a b h m s) : exec (.vbcast d a b h m) s = execVbcast d a b h m s := rfl
@[simp] theorem exec_vsplat (f d a im s) : exec (.vsplat f d a im) s = execVsplat f d a im s := rfl
@[simp] theorem exec_vlane (d a b h m s) : exec (.vlane d a b h m) s = execVlane d a b h m s := rfl
@[simp] theorem exec_vext (d a b h m s) : exec (.vext d a b h m) s = execVext d a b h m s := rfl
@[simp] theorem exec_vins (d a b m s) : exec (.vins d a b m) s = execVins d a b m s := rfl
@[simp] theorem exec_vdot (f d a b h m s) : exec (.vdot f d a b h m) s = execVdot f d a b h m s := rfl
@[simp] theorem exec_vpack (w d a b h m s) : exec (.vpack w d a b h m) s = execVpack w d a b h m s := rfl
@[simp] theorem exec_vunpack (w d a mode h m s) : exec (.vunpack w d a mode h m) s = execVunpack w d a mode h m s := rfl
@[simp] theorem exec_vld (z d r im s) : exec (.vld z d r im) s = execVld z d r im s := rfl
@[simp] theorem exec_vlds (f d a b m s) : exec (.vlds f d a b m) s = execVlds f d a b m s := rfl
@[simp] theorem exec_vldg (f d a b m s) : exec (.vldg f d a b m) s = execVldg f d a b m s := rfl
@[simp] theorem exec_vst (z d r im s) : exec (.vst z d r im) s = execVst z d r im s := rfl
@[simp] theorem exec_vsts (f d a b m s) : exec (.vsts f d a b m) s = execVsts f d a b m s := rfl
@[simp] theorem exec_vstx (f d a b m s) : exec (.vstx f d a b m) s = execVstx f d a b m s := rfl
@[simp] theorem exec_vstm (f d a b m s) : exec (.vstm f d a b m) s = execVstm f d a b m s := rfl
@[simp] theorem exec_vmov (d a h m s) : exec (.vmov d a h m) s = execVmov d a h m s := rfl
@[simp] theorem exec_mand (d a b m s) : exec (.mand d a b m) s = execMand d a b m s := rfl
@[simp] theorem exec_mor (d a b m s) : exec (.mor d a b m) s = execMor d a b m s := rfl
@[simp] theorem exec_mxor (d a b m s) : exec (.mxor d a b m) s = execMxor d a b m s := rfl
@[simp] theorem exec_mnot (d a m s) : exec (.mnot d a m) s = execMnot d a m s := rfl
@[simp] theorem exec_mpop (d a m s) : exec (.mpop d a m) s = execMpop d a m s := rfl
@[simp] theorem exec_mfirst (d a m s) : exec (.mfirst d a m) s = execMfirst d a m s := rfl
@[simp] theorem exec_vmrd (t d a mode m s) : exec (.vmrd t d a mode m) s = execVmrd t d a mode m s := rfl
@[simp] theorem exec_vmwr (t d a mode m s) : exec (.vmwr t d a mode m) s = execVmwr t d a mode m s := rfl
@[simp] theorem exec_vminn (f d a b h m s) : exec (.vminn f d a b h m) s = execVminn f d a b h m s := rfl
@[simp] theorem exec_vmaxn (f d a b h m s) : exec (.vmaxn f d a b h m) s = execVmaxn f d a b h m s := rfl
@[simp] theorem exec_vaddsn (f d a b h m s) : exec (.vaddsn f d a b h m) s = execVaddsn f d a b h m s := rfl
@[simp] theorem exec_vsubsn (f d a b h m s) : exec (.vsubsn f d a b h m) s = execVsubsn f d a b h m s := rfl
@[simp] theorem exec_vmulhn (f d a b h m s) : exec (.vmulhn f d a b h m) s = execVmulhn f d a b h m s := rfl
@[simp] theorem exec_vcmpn (f cond k a b h m s) : exec (.vcmpn f cond k a b h m) s = execVcmpn f cond k a b h m s := rfl
@[simp] theorem exec_mma (f tl t z c a b sc m s) : exec (.mma f tl t z c a b sc m) s = execMma f tl t z c a b sc m s := rfl
@[simp] theorem exec_mmat (f tl t z c a b sc m s) : exec (.mmat f tl t z c a b sc m) s = execMmat f tl t z c a b sc m s := rfl
@[simp] theorem exec_mmag (f tl t z c a b sc m s) : exec (.mmag f tl t z c a b sc m) s = execMmag f tl t z c a b sc m s := rfl
@[simp] theorem exec_mclr (im tl m s) : exec (.mclr im tl m) s = execMclr im tl m s := rfl
@[simp] theorem exec_mchk (tl a m s) : exec (.mchk tl a m) s = execMchk tl a m s := rfl
@[simp] theorem exec_mchkSp (a m s) : exec (.mchkSp a m) s = execMchkSp a m s := rfl
@[simp] theorem exec_mmarg (a b m s) : exec (.mmarg a b m) s = execMmarg a b m s := rfl
@[simp] theorem exec_mload (tl t c a m s) : exec (.mload tl t c a m) s = execMload tl t c a m s := rfl
@[simp] theorem exec_mout (rm tl t c a b m s) : exec (.mout rm tl t c a b m) s = execMout rm tl t c a b m s := rfl
@[simp] theorem exec_cpy (put im d a sh m s) : exec (.cpy put im d a sh m) s = execCpy put im d a sh m s := rfl
@[simp] theorem exec_cpys (put im d a sh m s) : exec (.cpys put im d a sh m) s = execCpys put im d a sh m s := rfl
@[simp] theorem exec_cpym (im d a sh m s) : exec (.cpym im d a sh m) s = execCpym im d a sh m s := rfl
@[simp] theorem exec_cpyt (put im d a m s) : exec (.cpyt put im d a m) s = execCpyt put im d a m s := rfl
@[simp] theorem exec_code (v im d a sh m s) : exec (.code v im d a sh m) s = execCode v im d a sh m s := rfl
@[simp] theorem exec_hcpy (put ch d a sh m s) : exec (.hcpy put ch d a sh m) s = execHcpy put ch d a sh m s := rfl
@[simp] theorem exec_stageRd (d m s) : exec (.stageRd d m) s = execStageRd d m s := rfl
@[simp] theorem exec_stageSet (a m s) : exec (.stageSet a m) s = execStageSet a m s := rfl
@[simp] theorem exec_bara (n a m s) : exec (.bara n a m) s = execBara n a m s := rfl
@[simp] theorem exec_atomInt (op d a b w m s) : exec (.atomInt op d a b w m) s = execAtomInt op d a b w m s := rfl
@[simp] theorem exec_atomOther (op d a b w m s) : exec (.atomOther op d a b w m) s = execAtomOther op d a b w m s := rfl
@[simp] theorem exec_send (im n a sh m s) : exec (.send im n a sh m) s = execSend im n a sh m s := rfl
@[simp] theorem exec_recv (n a m s) : exec (.recv n a m) s = execRecv n a m s := rfl
@[simp] theorem exec_rld (z im d a ord m s) : exec (.rld z im d a ord m) s = execRld z im d a ord m s := rfl
@[simp] theorem exec_rst (z im d a ord m s) : exec (.rst z im d a ord m) s = execRst z im d a ord m s := rfl
@[simp] theorem exec_rred (op im d a m s) : exec (.rred op im d a m) s = execRred op im d a m s := rfl
@[simp] theorem exec_rrel (im m s) : exec (.rrel im m) s = execRrel im m s := rfl
@[simp] theorem exec_rrelAll (m s) : exec (.rrelAll m) s = execRrelAll m s := rfl
@[simp] theorem exec_bcst (im d a sh m s) : exec (.bcst im d a sh m) s = execBcst im d a sh m s := rfl
@[simp] theorem exec_drain (d sc m s) : exec (.drain d sc m) s = execDrain d sc m s := rfl
@[simp] theorem exec_ratomInt (op im d a opt m s) : exec (.ratomInt op im d a opt m) s = execRatomInt op im d a opt m s := rfl
@[simp] theorem exec_ratomOther (op im d a opt m s) : exec (.ratomOther op im d a opt m) s = execRatomOther op im d a opt m s := rfl
@[simp] theorem exec_scl (n r im s) : exec (.scl n r im) s = execScl n r im s := rfl
@[simp] theorem exec_sclv (n a m s) : exec (.sclv n a m) s = execSclv n a m s := rfl
@[simp] theorem exec_xpack (mode d a g m s) : exec (.xpack mode d a g m) s = execXpack mode d a g m s := rfl
@[simp] theorem exec_xunpack (mode d a g m s) : exec (.xunpack mode d a g m) s = execXunpack mode d a g m s := rfl
@[simp] theorem exec_rndpop (packed d m s) : exec (.rndpop packed d m) s = execRndpop packed d m s := rfl
@[simp] theorem exec_rndseed (a m s) : exec (.rndseed a m) s = execRndseed a m s := rfl
@[simp] theorem exec_idle (n s) : exec (.idle n) s = execIdle n s := rfl
@[simp] theorem exec_powerOnReset (pkg s) : exec (.powerOnReset pkg) s = execPowerOnReset pkg s := rfl
@[simp] theorem exec_createPartition (p layers lpivl ctx s) : exec (.createPartition p layers lpivl ctx) s = execCreatePartition p layers lpivl ctx s := rfl
@[simp] theorem exec_chamoisAppend (g s) : exec (.chamoisAppend g) s = execChamoisAppend g s := rfl
@[simp] theorem exec_resultLanding (g l s) : exec (.resultLanding g l) s = execResultLanding g l s := rfl
@[simp] theorem exec_matrixReadable (g op s) : exec (.matrixReadable g op) s = execMatrixReadable g op s := rfl
@[simp] theorem exec_marginCheck (g op s) : exec (.marginCheck g op) s = execMarginCheck g op s := rfl
@[simp] theorem exec_memberShareStart (g op s) : exec (.memberShareStart g op) s = execMemberShareStart g op s := rfl
@[simp] theorem exec_gangCompletionAdd (g home off s) : exec (.gangCompletionAdd g home off) s = execGangCompletionAdd g home off s := rfl
@[simp] theorem exec_pieceTransfer (op k rd s) : exec (.pieceTransfer op k rd) s = execPieceTransfer op k rd s := rfl
@[simp] theorem exec_codeFillLanding (g op k s) : exec (.codeFillLanding g op k) s = execCodeFillLanding g op k s := rfl
@[simp] theorem exec_hcpyPiece (op k s) : exec (.hcpyPiece op k) s = execHcpyPiece op k s := rfl
@[simp] theorem exec_serviceAccess (g s) : exec (.serviceAccess g) s = execServiceAccess g s := rfl
@[simp] theorem exec_stagedWriteLanding (f s) : exec (.stagedWriteLanding f) s = execStagedWriteLanding f s := rfl
@[simp] theorem exec_remoteRead (f s) : exec (.remoteRead f) s = execRemoteRead f s := rfl
@[simp] theorem exec_ratomLanding (f s) : exec (.ratomLanding f) s = execRatomLanding f s := rfl
@[simp] theorem exec_reductionMerge (f e s) : exec (.reductionMerge f e) s = execReductionMerge f e s := rfl
@[simp] theorem exec_bankAluWrite (b s) : exec (.bankAluWrite b) s = execBankAluWrite b s := rfl
@[simp] theorem exec_commitFlitLanding (f s) : exec (.commitFlitLanding f) s = execCommitFlitLanding f s := rfl
@[simp] theorem exec_recallFlitLanding (f s) : exec (.recallFlitLanding f) s = execRecallFlitLanding f s := rfl
@[simp] theorem exec_linkFlit (f hop s) : exec (.linkFlit f hop) s = execLinkFlit f hop s := rfl
@[simp] theorem exec_flitLost (f s) : exec (.flitLost f) s = execFlitLost f s := rfl
@[simp] theorem exec_noticeLanding (n s) : exec (.noticeLanding n) s = execNoticeLanding n s := rfl
@[simp] theorem exec_packageLost (pkg s) : exec (.packageLost pkg) s = execPackageLost pkg s := rfl
@[simp] theorem exec_peerSetUpdate (p x s) : exec (.peerSetUpdate p x) s = execPeerSetUpdate p x s := rfl
@[simp] theorem exec_drainComplete (g n s) : exec (.drainComplete g n) s = execDrainComplete g n s := rfl
@[simp] theorem exec_horizonResume (g s) : exec (.horizonResume g) s = execHorizonResume g s := rfl
@[simp] theorem exec_rendezvousRelease (r s) : exec (.rendezvousRelease r) s = execRendezvousRelease r s := rfl
@[simp] theorem exec_watermarkCompare (r s) : exec (.watermarkCompare r) s = execWatermarkCompare r s := rfl
@[simp] theorem exec_cancelVisible (p lvl x s) : exec (.cancelVisible p lvl x) s = execCancelVisible p lvl x s := rfl
@[simp] theorem exec_coreIdle (g s) : exec (.coreIdle g) s = execCoreIdle g s := rfl
@[simp] theorem exec_launchStaging (p s) : exec (.launchStaging p) s = execLaunchStaging p s := rfl
@[simp] theorem exec_launchPointRelease (p s) : exec (.launchPointRelease p) s = execLaunchPointRelease p s := rfl
@[simp] theorem exec_jobStart (p s) : exec (.jobStart p) s = execJobStart p s := rfl
@[simp] theorem exec_thermalTrip (k s) : exec (.thermalTrip k) s = execThermalTrip k s := rfl
@[simp] theorem exec_thermalRelease (k s) : exec (.thermalRelease k) s = execThermalRelease k s := rfl
@[simp] theorem exec_podFreeze (p r s) : exec (.podFreeze p r) s = execPodFreeze p r s := rfl
@[simp] theorem exec_freezeBoundary (p s) : exec (.freezeBoundary p) s = execFreezeBoundary p s := rfl
@[simp] theorem exec_partitionResume (p s) : exec (.partitionResume p) s = execPartitionResume p s := rfl
@[simp] theorem exec_dredgerStep (g s) : exec (.dredgerStep g) s = execDredgerStep g s := rfl
@[simp] theorem exec_dredgerWriteback (g off s) : exec (.dredgerWriteback g off) s = execDredgerWriteback g off s := rfl
@[simp] theorem exec_timing (g sq s) : exec (.timing g sq) s = execTiming g sq s := rfl
@[simp] theorem exec_deliver (op k s) : exec (.deliver op k) s = execDeliver op k s := rfl
@[simp] theorem exec_cycslip (g s) : exec (.cycslip g) s = execCycslip g s := rfl
@[simp] theorem exec_undoWriteback (g s) : exec (.undoWriteback g) s = execUndoWriteback g s := rfl
@[simp] theorem exec_handlerEntry (g s) : exec (.handlerEntry g) s = execHandlerEntry g s := rfl
@[simp] theorem exec_segmentReentry (g s) : exec (.segmentReentry g) s = execSegmentReentry g s := rfl
@[simp] theorem exec_deferredLanding (g s) : exec (.deferredLanding g) s = execDeferredLanding g s := rfl
@[simp] theorem exec_tableServiceRequest (g s) : exec (.tableServiceRequest g) s = execTableServiceRequest g s := rfl
@[simp] theorem exec_tableEntryWrite (k e hi x s) : exec (.tableEntryWrite k e hi x) s = execTableEntryWrite k e hi x s := rfl
@[simp] theorem exec_tableEntryRepair (k e s) : exec (.tableEntryRepair k e) s = execTableEntryRepair k e s := rfl
@[simp] theorem exec_mapPublication (pkg bytes inService s) : exec (.mapPublication pkg bytes inService) s = execMapPublication pkg bytes inService s := rfl
@[simp] theorem exec_surveyWindow (k bytes s) : exec (.surveyWindow k bytes) s = execSurveyWindow k bytes s := rfl
@[simp] theorem exec_inServiceSurvey (pkg bytes s) : exec (.inServiceSurvey pkg bytes) s = execInServiceSurvey pkg bytes s := rfl
@[simp] theorem exec_load (p s) : exec (.load p) s = execLoad p s := rfl
@[simp] theorem exec_unload (p s) : exec (.unload p) s = execUnload p s := rfl
@[simp] theorem exec_start (p s) : exec (.start p) s = execStart p s := rfl
@[simp] theorem exec_endJob (p s) : exec (.endJob p) s = execEndJob p s := rfl
@[simp] theorem exec_cancelCommand (p s) : exec (.cancelCommand p) s = execCancelCommand p s := rfl
@[simp] theorem exec_hold (p s) : exec (.hold p) s = execHold p s := rfl
@[simp] theorem exec_release (p s) : exec (.release p) s = execRelease p s := rfl
@[simp] theorem exec_patch (p s) : exec (.patch p) s = execPatch p s := rfl
@[simp] theorem exec_attest (p s) : exec (.attest p) s = execAttest p s := rfl
@[simp] theorem exec_ckpt (p s) : exec (.ckpt p) s = execCkpt p s := rfl
@[simp] theorem exec_resumeck (p s) : exec (.resumeck p) s = execResumeck p s := rfl
@[simp] theorem exec_rebind (p s) : exec (.rebind p) s = execRebind p s := rfl
@[simp] theorem exec_freeze (p s) : exec (.freeze p) s = execFreeze p s := rfl
@[simp] theorem exec_save (p s) : exec (.save p) s = execSave p s := rfl
@[simp] theorem exec_restore (p s) : exec (.restore p) s = execRestore p s := rfl
@[simp] theorem exec_resume (p s) : exec (.resume p) s = execResume p s := rfl
@[simp] theorem exec_discard (p s) : exec (.discard p) s = execDiscard p s := rfl
@[simp] theorem exec_mbrespClear (p s) : exec (.mbrespClear p) s = execMbrespClear p s := rfl
@[simp] theorem exec_ctxstatClear (p s) : exec (.ctxstatClear p) s = execCtxstatClear p s := rfl
@[simp] theorem exec_firedClear (g x s) : exec (.firedClear g x) s = execFiredClear g x s := rfl
@[simp] theorem exec_launchQueueEnqueue (p e x s) : exec (.launchQueueEnqueue p e x) s = execLaunchQueueEnqueue p e x s := rfl
@[simp] theorem exec_launchQueueEmpty (p e x s) : exec (.launchQueueEmpty p e x) s = execLaunchQueueEmpty p e x s := rfl
@[simp] theorem exec_launchQueueFieldWrite (p e x s) : exec (.launchQueueFieldWrite p e x) s = execLaunchQueueFieldWrite p e x s := rfl
@[simp] theorem exec_repairreq (g x s) : exec (.repairreq g x) s = execRepairreq g x s := rfl
@[simp] theorem exec_bistsum (g x s) : exec (.bistsum g x) s = execBistsum g x s := rfl
@[simp] theorem exec_arrayInjectorArm (g n x s) : exec (.arrayInjectorArm g n x) s = execArrayInjectorArm g n x s := rfl
@[simp] theorem exec_linkInjectorArm (k n x s) : exec (.linkInjectorArm k n x) s = execLinkInjectorArm k n x s := rfl
@[simp] theorem exec_systemRegisterWrite (t x s) : exec (.systemRegisterWrite t x) s = execSystemRegisterWrite t x s := rfl
@[simp] theorem exec_illegal (g sub pos s) : exec (.illegal g sub pos) s = execIllegal g sub pos s := rfl
@[simp] theorem exec_unknownCommandCode (p ctx s) : exec (.unknownCommandCode p ctx) s = execUnknownCommandCode p ctx s := rfl
@[simp] theorem exec_coreLost (g s) : exec (.coreLost g) s = execCoreLost g s := rfl
@[simp] theorem exec_extendService (k mr x s) : exec (.extendService k mr x) s = execExtendService k mr x s := rfl
@[simp] theorem exec_tableServiceAnswer (g decline s) : exec (.tableServiceAnswer g decline) s = execTableServiceAnswer g decline s := rfl

end Sys2Proof.Machine
end

