-- ==== Sys2Proof/Laws/Encoding.lean ====
section
/-! SUPPORT. Reading back the fields of an encoded slot word (R191, R195). -/
namespace Sys2Proof.Laws

theorem bit6_lt (x : BitVec 6) : x.toNat < 64 := x.isLt
theorem bit4_lt (x : BitVec 4) : x.toNat < 16 := x.isLt
theorem bit3_lt (x : BitVec 3) : x.toNat < 8 := x.isLt
theorem bit2_lt (x : BitVec 2) : x.toNat < 4 := x.isLt
theorem b2n_lt (x : Bool) : b2n x < 2 := by cases x <;> decide
@[simp] theorem n2b_b2n (x : Bool) : n2b (b2n x) = x := by cases x <;> rfl

theorem modifierOf_word (m : Modifier) : modifierOf m.word = m := by
  obtain ⟨g, n, r, x⟩ := m
  have hr := r.isLt; have hx := x.isLt
  have e1 : BitVec.ofNat 6 ((b2n g * 2 ^ 27 + b2n n * 2 ^ 26 + r.toNat * 2 ^ 20 + x.toNat) / 2 ^ 20) = r := by
    apply BitVec.eq_of_toNat_eq; simp only [BitVec.toNat_ofNat]; have := b2n_lt g; have := b2n_lt n; omega
  have e2 : BitVec.ofNat 20 (b2n g * 2 ^ 27 + b2n n * 2 ^ 26 + r.toNat * 2 ^ 20 + x.toNat) = x := by
    apply BitVec.eq_of_toNat_eq; simp only [BitVec.toNat_ofNat]; have := b2n_lt g; have := b2n_lt n; omega
  simp only [modifierOf, Modifier.word, e1, e2, Modifier.mk.injEq, and_true]
  cases g <;> cases n <;> simp [b2n, n2b] <;> omega

@[simp] theorem withMd_mdWords (m : Md) (k : Md → Instr) : withMd (mdWords m) k = .ok (k m) := by
  cases m <;> simp [withMd, mdWords, modifierOf_word]
@[simp] theorem withMdR_word (m : Modifier) (k : Modifier → Instr) : withMdR [m.word] k = .ok (k m) := by
  simp [withMdR, modifierOf_word]
@[simp] theorem withNoK_nil (i : Instr) : withNoK [] i = .ok i := rfl
theorem immLow_lt (i : Imm) : i.low < 128 := by
  cases i <;> simp only [Imm.low] <;> omega
@[simp] theorem withImm_words (i : Imm) (k : Imm → Instr) : withImm i.low i.words k = .ok (k i) := by
  cases i with
  | k0 x => simp [withImm, Imm.low, Imm.words]
  | k1 x =>
    have : BitVec.ofNat 35 (x.toNat / 2 ^ 7 * 2 ^ 7 + x.toNat % 2 ^ 7) = x := by
      apply BitVec.eq_of_toNat_eq; simp only [BitVec.toNat_ofNat]; have := x.isLt; omega
    simp only [withImm, Imm.low, Imm.words, this]
  | k2 x =>
    have : BitVec.ofNat 63 (x.toNat / 2 ^ 35 * 2 ^ 35 + x.toNat / 2 ^ 7 % 2 ^ 28 * 2 ^ 7 + x.toNat % 2 ^ 7) = x := by
      apply BitVec.eq_of_toNat_eq; simp only [BitVec.toNat_ofNat]; have := x.isLt; omega
    simp only [withImm, Imm.low, Imm.words, this]

variable {cls opc var d a b f low idx opt : Nat}

theorem fieldsOf_packA (hc : cls < 8) (ho : opc < 64) (hv : var < 8) (hd : d < 64) (ha : a < 64) (hb : b < 64) (hf : f < 2) :
    fieldsOf (packA cls opc var d a b f) = { fieldsOf (packA cls opc var d a b f) with cls, opc, var, d, a, b, f } := by
  have h : (fieldsOf (packA cls opc var d a b f)).cls = cls ∧ (fieldsOf (packA cls opc var d a b f)).opc = opc ∧ (fieldsOf (packA cls opc var d a b f)).var = var ∧ (fieldsOf (packA cls opc var d a b f)).d = d ∧ (fieldsOf (packA cls opc var d a b f)).a = a ∧ (fieldsOf (packA cls opc var d a b f)).b = b ∧ (fieldsOf (packA cls opc var d a b f)).f = f := by
    unfold fieldsOf packA; simp only; omega
  obtain ⟨h0, h1, h2, h3, h4, h5, h6⟩ := h
  generalize fieldsOf (packA cls opc var d a b f) = x at *
  cases x; simp_all

theorem fieldsOf_packI (hc : cls < 8) (ho : opc < 64) (hv : var < 8) (hd : d < 64) (ha : a < 64) (hl : low < 128) :
    fieldsOf (packI cls opc var d a low) = { fieldsOf (packI cls opc var d a low) with cls, opc, var, d, a, low } := by
  have h : (fieldsOf (packI cls opc var d a low)).cls = cls ∧ (fieldsOf (packI cls opc var d a low)).opc = opc ∧ (fieldsOf (packI cls opc var d a low)).var = var ∧ (fieldsOf (packI cls opc var d a low)).d = d ∧ (fieldsOf (packI cls opc var d a low)).a = a ∧ (fieldsOf (packI cls opc var d a low)).low = low := by
    unfold fieldsOf packI; simp only; omega
  obtain ⟨h0, h1, h2, h3, h4, h5⟩ := h
  generalize fieldsOf (packI cls opc var d a low) = x at *
  cases x; simp_all

theorem fieldsOf_packL (hc : cls < 8) (ho : opc < 64) (hv : var < 8) (hi : idx < 16) (hd : d < 64) (ha : a < 64) (hp : opt < 8) :
    fieldsOf (packL cls opc var idx d a opt) =
      { fieldsOf (packL cls opc var idx d a opt) with cls, opc, var, idx, ld := d, la := a, opt } := by
  have h : (fieldsOf (packL cls opc var idx d a opt)).cls = cls ∧ (fieldsOf (packL cls opc var idx d a opt)).opc = opc ∧ (fieldsOf (packL cls opc var idx d a opt)).var = var ∧ (fieldsOf (packL cls opc var idx d a opt)).idx = idx ∧ (fieldsOf (packL cls opc var idx d a opt)).ld = d ∧ (fieldsOf (packL cls opc var idx d a opt)).la = a ∧ (fieldsOf (packL cls opc var idx d a opt)).opt = opt := by
    unfold fieldsOf packL; simp only; omega
  obtain ⟨h0, h1, h2, h3, h4, h5, h6⟩ := h
  generalize fieldsOf (packL cls opc var idx d a opt) = x at *
  cases x; simp_all

/-- What the class decoders make of the fields and the K slots of a slot that is no W slot. -/
def readSlot (x : Fields) (ks : List Nat) : Except Nat Instr :=
  match x.cls with
  | 0 => decodeS x ks
  | 1 => decodeV x ks
  | 2 => decodeM x ks
  | 3 => decodeL x ks
  | 4 => decodeQ x ks
  | _ => decodeX x ks

theorem decodeSlot_of_read {w : Nat} {ks : List Nat} {i : Instr} {x : Fields} (hx : fieldsOf w = x) (hc : x.cls < 6)
    (h : readSlot x ks = .ok i) (hw : i.wf = true) : decodeSlot w ks = .ok i := by
  have hs : i.illegalSub = 0 := by simp [Instr.illegalSub, hw]
  unfold decodeSlot
  rw [hx]
  revert h hc
  clear hx
  obtain ⟨c, _, _, _, _, _, _, _, _, _, _, _⟩ := x
  intro hc h
  unfold readSlot at h
  simp only at hc h ⊢
  match c, hc, h with
  | 0, _, h => simp only at h; simp only [h, hs]; rfl
  | 1, _, h => simp only at h; simp only [h, hs]; rfl
  | 2, _, h => simp only at h; simp only [h, hs]; rfl
  | 3, _, h => simp only at h; simp only [h, hs]; rfl
  | 4, _, h => simp only at h; simp only [h, hs]; rfl
  | 5, _, h => simp only at h; simp only [h, hs]; rfl

theorem decodeSlot_packA {ks : List Nat} {i : Instr} (hw : i.wf = true) (hc : cls < 6) (ho : opc < 64) (hv : var < 8)
    (hd : d < 64) (ha : a < 64) (hb : b < 64) (hf : f < 2)
    (h : ∀ x : Fields, readSlot { x with cls, opc, var, d, a, b, f } ks = .ok i) : decodeSlot (packA cls opc var d a b f) ks = .ok i :=
  decodeSlot_of_read (fieldsOf_packA (by omega) ho hv hd ha hb hf) hc (h _) hw

theorem decodeSlot_packI {ks : List Nat} {i : Instr} (hw : i.wf = true) (hc : cls < 6) (ho : opc < 64) (hv : var < 8)
    (hd : d < 64) (ha : a < 64) (hl : low < 128)
    (h : ∀ x : Fields, readSlot { x with cls, opc, var, d, a, low } ks = .ok i) : decodeSlot (packI cls opc var d a low) ks = .ok i :=
  decodeSlot_of_read (fieldsOf_packI (by omega) ho hv hd ha hl) hc (h _) hw

theorem decodeSlot_packL {ks : List Nat} {i : Instr} (hw : i.wf = true) (hc : cls < 6) (ho : opc < 64) (hv : var < 8)
    (hi : idx < 16) (hd : d < 64) (ha : a < 64) (hp : opt < 8)
    (h : ∀ x : Fields, readSlot { x with cls, opc, var, idx, ld := d, la := a, opt } ks = .ok i) :
    decodeSlot (packL cls opc var idx d a opt) ks = .ok i :=
  decodeSlot_of_read (fieldsOf_packL (by omega) ho hv hi hd ha hp) hc (h _) hw

theorem condHigh (x y : BitVec 3) : BitVec.ofNat 3 ((x.toNat * 8 + y.toNat) / 8) = x := by
  apply BitVec.eq_of_toNat_eq; simp only [BitVec.toNat_ofNat]; have := x.isLt; have := y.isLt; omega
theorem condLow (x y : BitVec 3) : BitVec.ofNat 3 ((x.toNat * 8 + y.toNat) % 8) = y := by
  apply BitVec.eq_of_toNat_eq; simp only [BitVec.toNat_ofNat]; have := x.isLt; have := y.isLt; omega

/-- The tile and the three flags in the D field of an M slot (R192). -/
theorem tileFlags (x : BitVec 3) (t z c : Bool) :
    BitVec.ofNat 3 ((x.toNat * 8 + b2n t * 4 + b2n z * 2 + b2n c) / 8) = x ∧
    n2b ((x.toNat * 8 + b2n t * 4 + b2n z * 2 + b2n c) / 4 % 2) = t ∧
    n2b ((x.toNat * 8 + b2n t * 4 + b2n z * 2 + b2n c) / 2 % 2) = z ∧
    n2b ((x.toNat * 8 + b2n t * 4 + b2n z * 2 + b2n c) % 2) = c := by
  have h := x.isLt
  refine ⟨?_, ?_, ?_, ?_⟩
  · apply BitVec.eq_of_toNat_eq; simp only [BitVec.toNat_ofNat]
    have := b2n_lt t; have := b2n_lt z; have := b2n_lt c; omega
  · have : (x.toNat * 8 + b2n t * 4 + b2n z * 2 + b2n c) / 4 % 2 = b2n t := by
      have := b2n_lt t; have := b2n_lt z; have := b2n_lt c; omega
    rw [this, n2b_b2n]
  · have : (x.toNat * 8 + b2n t * 4 + b2n z * 2 + b2n c) / 2 % 2 = b2n z := by
      have := b2n_lt t; have := b2n_lt z; have := b2n_lt c; omega
    rw [this, n2b_b2n]
  · have : (x.toNat * 8 + b2n t * 4 + b2n z * 2 + b2n c) % 2 = b2n c := by
      have := b2n_lt t; have := b2n_lt z; have := b2n_lt c; omega
    rw [this, n2b_b2n]

/-- The same with the middle flag absent. -/
theorem tileTwoFlags (x : BitVec 3) (t c : Bool) :
    BitVec.ofNat 3 ((x.toNat * 8 + b2n t * 4 + b2n c) / 8) = x ∧ n2b ((x.toNat * 8 + b2n t * 4 + b2n c) / 4 % 2) = t ∧
    (x.toNat * 8 + b2n t * 4 + b2n c) / 2 % 2 = 0 ∧ n2b ((x.toNat * 8 + b2n t * 4 + b2n c) % 2) = c := by
  have h := tileFlags x t false c
  simp only [b2n, Bool.false_eq_true, if_false, Nat.zero_mul, Nat.add_zero] at h ⊢
  refine ⟨h.1, h.2.1, ?_, h.2.2.2⟩
  have := h.2.2.1
  simp only [n2b, beq_eq_false_iff_ne] at this
  omega

end Sys2Proof.Laws
end

