-- ==== Sys2Proof/Laws/Tab.lean ====
section
/-! SUPPORT. Tables: reading after writing, and the canonical form under every table operation. -/

namespace Sys2Proof.Machine

variable {α : Type}

theorem tabGet_del_self (d : Nat → α) (t : Tab α) (k : Nat) : tabGet d (tabDel t k) k = d k := by
  induction t with
  | nil => rfl
  | cons e t ih =>
    obtain ⟨j, v⟩ := e
    by_cases h : j = k
    · simpa [tabDel, h] using ih
    · simpa [tabDel, tabGet, h] using ih

theorem tabGet_del_ne (d : Nat → α) (t : Tab α) (k j : Nat) (h : j ≠ k) : tabGet d (tabDel t k) j = tabGet d t j := by
  induction t with
  | nil => rfl
  | cons e t ih =>
    obtain ⟨i, v⟩ := e
    by_cases hi : i = k
    · have : i ≠ j := fun e => h (e.symm.trans hi)
      simpa [tabDel, tabGet, hi, hi ▸ this] using ih
    · simp only [tabDel, ne_eq, decide_not] at ih ⊢
      simp [tabGet, hi, ih]

theorem tabGet_ins_self (d : Nat → α) (t : Tab α) (k : Nat) (v : α) (h : ∀ e ∈ t, e.1 ≠ k) :
    tabGet d (tabIns k v t) k = v := by
  induction t with
  | nil => simp [tabIns, tabGet]
  | cons e t ih =>
    obtain ⟨j, w⟩ := e
    have hj : j ≠ k := h (j, w) (by simp)
    have ih' := ih (fun e he => h e (by simp [he]))
    unfold tabIns
    split <;> simp [tabGet, hj, ih']

theorem tabGet_ins_ne (d : Nat → α) (t : Tab α) (k j : Nat) (v : α) (h : j ≠ k) :
    tabGet d (tabIns k v t) j = tabGet d t j := by
  induction t with
  | nil => simp [tabIns, tabGet, h.symm]
  | cons e t ih =>
    obtain ⟨i, w⟩ := e
    unfold tabIns
    split <;> simp [tabGet, h.symm, ih]

theorem mem_del {t : Tab α} {k : Nat} {e : Nat × α} : e ∈ tabDel t k ↔ e ∈ t ∧ e.1 ≠ k := by
  simp [tabDel]

theorem mem_ins {k : Nat} {v : α} {t : Tab α} {e : Nat × α} (h : e ∈ tabIns k v t) : e = (k, v) ∨ e ∈ t := by
  induction t with
  | nil => simpa [tabIns] using h
  | cons x t ih =>
    unfold tabIns at h
    split at h
    · simpa using h
    · rcases List.mem_cons.mp h with h | h
      · exact .inr (by simp [h])
      · exact (ih h).imp id (fun h => by simp [h])

/-- A written key reads as written. -/
@[simp] theorem tabGet_set_self [DecidableEq α] (d : Nat → α) (t : Tab α) (k : Nat) (v : α) :
    tabGet d (tabSet d t k v) k = v := by
  unfold tabSet
  split
  · rename_i h; rw [tabGet_del_self, h]
  · exact tabGet_ins_self d _ k v (fun e he => (mem_del.mp he).2)

/-- Every other key reads as before. -/
theorem tabGet_set_ne [DecidableEq α] (d : Nat → α) (t : Tab α) (k j : Nat) (v : α) (h : j ≠ k) :
    tabGet d (tabSet d t k v) j = tabGet d t j := by
  unfold tabSet
  split
  · exact tabGet_del_ne d t k j h
  · rw [tabGet_ins_ne d _ k j v h, tabGet_del_ne d t k j h]

theorem tabGet_set [DecidableEq α] (d : Nat → α) (t : Tab α) (k j : Nat) (v : α) :
    tabGet d (tabSet d t k v) j = if j = k then v else tabGet d t j := by
  split
  · rename_i h; rw [h, tabGet_set_self]
  · rename_i h; exact tabGet_set_ne d t k j v h

/-- A sublist of a canonical table is canonical. -/
theorem tabWf_filter (d : Nat → α) {t : Tab α} (p : Nat × α → Bool) (h : tabWf d t) : tabWf d (t.filter p) :=
  ⟨h.1.sublist List.filter_sublist, fun e he => h.2 e (List.mem_filter.mp he).1⟩

theorem tabWf_del (d : Nat → α) {t : Tab α} (k : Nat) (h : tabWf d t) : tabWf d (tabDel t k) := tabWf_filter d _ h

theorem tabWf_ins (d : Nat → α) {t : Tab α} (k : Nat) (v : α) (hv : v ≠ d k) (hk : ∀ e ∈ t, e.1 ≠ k) (h : tabWf d t) :
    tabWf d (tabIns k v t) := by
  refine ⟨?_, fun e he => (mem_ins he).elim (fun h => h ▸ hv) (h.2 e)⟩
  induction t with
  | nil => simp [tabIns]
  | cons x t ih =>
    obtain ⟨hx, ht⟩ := List.pairwise_cons.mp h.1
    have hxk := hk x (by simp)
    unfold tabIns
    split
    · rename_i hlt
      refine List.pairwise_cons.mpr ⟨fun e he => ?_, h.1⟩
      rcases List.mem_cons.mp he with rfl | he
      · exact hlt
      · exact Nat.lt_trans hlt (hx e he)
    · refine List.pairwise_cons.mpr ⟨fun e he => ?_, ih (fun e he => hk e (by simp [he])) ⟨ht, fun e he => h.2 e (by simp [he])⟩⟩
      rcases mem_ins he with rfl | he
      · simp only; omega
      · exact hx e he

/-- A write keeps the canonical form. -/
theorem tabWf_set [DecidableEq α] (d : Nat → α) {t : Tab α} (k : Nat) (v : α) (h : tabWf d t) : tabWf d (tabSet d t k v) := by
  unfold tabSet
  split
  · exact tabWf_del d k h
  · rename_i hv
    exact tabWf_ins d k v hv (fun e he => (mem_del.mp he).2) (tabWf_del d k h)

theorem tabWf_setAll [DecidableEq α] (d : Nat → α) (l : List (Nat × α)) {t : Tab α} (h : tabWf d t) :
    tabWf d (tabSetAll d t l) := by
  induction l generalizing t with
  | nil => exact h
  | cons e l ih => exact ih (tabWf_set d e.1 e.2 h)

theorem tabWf_nil (d : Nat → α) : tabWf d ([] : Tab α) := ⟨List.Pairwise.nil, by simp⟩

/-- A key that none of the writes names reads as before. -/
theorem tabGet_setAll_ne [DecidableEq α] (d : Nat → α) (l : List (Nat × α)) (t : Tab α) (j : Nat) (h : ∀ e ∈ l, e.1 ≠ j) :
    tabGet d (tabSetAll d t l) j = tabGet d t j := by
  induction l generalizing t with
  | nil => rfl
  | cons e l ih =>
    have hj : j ≠ e.1 := fun x => h e (by simp) x.symm
    have := ih (tabSet d t e.1 e.2) (fun e he => h e (by simp [he]))
    simpa [tabSetAll, tabGet_set_ne d t e.1 j e.2 hj] using this

/-- With distinct keys, every write is what its key reads as. -/
theorem tabGet_setAll_mem [DecidableEq α] (d : Nat → α) (l : List (Nat × α)) (t : Tab α) (e : Nat × α)
    (hd : (l.map (·.1)).Nodup) (h : e ∈ l) : tabGet d (tabSetAll d t l) e.1 = e.2 := by
  induction l generalizing t with
  | nil => simp at h
  | cons x l ih =>
    obtain ⟨hx, hl⟩ := List.nodup_cons.mp hd
    rcases List.mem_cons.mp h with rfl | h
    · have := tabGet_setAll_ne d l (tabSet d t e.1 e.2) e.1 (fun y hy hk => hx (List.mem_map.mpr ⟨y, hy, hk⟩))
      simpa [tabSetAll] using this
    · exact ih _ hl h

end Sys2Proof.Machine
end

