-- ==== Sys2Proof/Laws/State.lean ====
section
/-! SUPPORT. Reading a field after an update of the state. -/

namespace Sys2Proof.Machine

variable (s : State) (g h p q : Nat)

theorem coreOf_setCore (c : Core) : coreOf (setCore s g c) h = if h = g then c else coreOf s h :=
  tabGet_set _ _ _ _ _
@[simp] theorem coreOf_setCore_self (c : Core) : coreOf (setCore s g c) g = c := by rw [coreOf_setCore, if_pos rfl]
theorem coreOf_setCore_ne (c : Core) (hh : h ≠ g) : coreOf (setCore s g c) h = coreOf s h := by
  rw [coreOf_setCore, if_neg hh]
@[simp] theorem coreOf_modCore_self (f : Core → Core) : coreOf (modCore s g f) g = f (coreOf s g) :=
  coreOf_setCore_self s g _
theorem coreOf_modCore_ne (f : Core → Core) (hh : h ≠ g) : coreOf (modCore s g f) h = coreOf s h :=
  coreOf_setCore_ne s g h _ hh
theorem partOf_setPart (x : Part) : partOf (setPart s p x) q = if q = p then x else partOf s q :=
  tabGet_set _ _ _ _ _
@[simp] theorem partOf_setPart_self (x : Part) : partOf (setPart s p x) p = x := by rw [partOf_setPart, if_pos rfl]
theorem partOf_setPart_ne (x : Part) (hh : q ≠ p) : partOf (setPart s p x) q = partOf s q := by
  rw [partOf_setPart, if_neg hh]
@[simp] theorem partOf_modPart_self (f : Part → Part) : partOf (modPart s p f) p = f (partOf s p) :=
  partOf_setPart_self s p _
theorem partOf_modPart_ne (f : Part → Part) (hh : q ≠ p) : partOf (modPart s p f) q = partOf s q :=
  partOf_setPart_ne s p q _ hh

@[simp] theorem setCore_now (c : Core) : (setCore s g c).now = s.now := rfl
@[simp] theorem setCore_mem (c : Core) : (setCore s g c).mem = s.mem := rfl
@[simp] theorem setCore_tags (c : Core) : (setCore s g c).tags = s.tags := rfl
@[simp] theorem setCore_memBad (c : Core) : (setCore s g c).memBad = s.memBad := rfl
@[simp] theorem setCore_tagBad (c : Core) : (setCore s g c).tagBad = s.tagBad := rfl
@[simp] theorem setCore_table (c : Core) : (setCore s g c).table = s.table := rfl
@[simp] theorem setCore_tableBad (c : Core) : (setCore s g c).tableBad = s.tableBad := rfl
@[simp] theorem setCore_kept (c : Core) : (setCore s g c).kept = s.kept := rfl
@[simp] theorem setCore_parts (c : Core) : (setCore s g c).parts = s.parts := rfl
@[simp] theorem setCore_pkgs (c : Core) : (setCore s g c).pkgs = s.pkgs := rfl
@[simp] theorem setCore_images (c : Core) : (setCore s g c).images = s.images := rfl
@[simp] theorem setCore_placed (c : Core) : (setCore s g c).placed = s.placed := rfl
@[simp] theorem setCore_nextHandle (c : Core) : (setCore s g c).nextHandle = s.nextHandle := rfl
@[simp] theorem setCore_rdvs (c : Core) : (setCore s g c).rdvs = s.rdvs := rfl
@[simp] theorem setCore_xfers (c : Core) : (setCore s g c).xfers = s.xfers := rfl
@[simp] theorem setCore_flits (c : Core) : (setCore s g c).flits = s.flits := rfl
@[simp] theorem setCore_bops (c : Core) : (setCore s g c).bops = s.bops := rfl
@[simp] theorem setCore_notes (c : Core) : (setCore s g c).notes = s.notes := rfl
@[simp] theorem setCore_agenda (c : Core) : (setCore s g c).agenda = s.agenda := rfl
@[simp] theorem setCore_seq (c : Core) : (setCore s g c).seq = s.seq := rfl
@[simp] theorem setCore_cur (c : Core) : (setCore s g c).cur = s.cur := rfl
@[simp] theorem setCore_inbox (c : Core) : (setCore s g c).inbox = s.inbox := rfl
@[simp] theorem setCore_hostFails (c : Core) : (setCore s g c).hostFails = s.hostFails := rfl
@[simp] theorem setCore_fresh (c : Core) : (setCore s g c).fresh = s.fresh := rfl
@[simp] theorem modCore_now (f : Core → Core) : (modCore s g f).now = s.now := rfl
@[simp] theorem modCore_mem (f : Core → Core) : (modCore s g f).mem = s.mem := rfl
@[simp] theorem modCore_tags (f : Core → Core) : (modCore s g f).tags = s.tags := rfl
@[simp] theorem modCore_memBad (f : Core → Core) : (modCore s g f).memBad = s.memBad := rfl
@[simp] theorem modCore_tagBad (f : Core → Core) : (modCore s g f).tagBad = s.tagBad := rfl
@[simp] theorem modCore_table (f : Core → Core) : (modCore s g f).table = s.table := rfl
@[simp] theorem modCore_tableBad (f : Core → Core) : (modCore s g f).tableBad = s.tableBad := rfl
@[simp] theorem modCore_kept (f : Core → Core) : (modCore s g f).kept = s.kept := rfl
@[simp] theorem modCore_parts (f : Core → Core) : (modCore s g f).parts = s.parts := rfl
@[simp] theorem modCore_pkgs (f : Core → Core) : (modCore s g f).pkgs = s.pkgs := rfl
@[simp] theorem modCore_images (f : Core → Core) : (modCore s g f).images = s.images := rfl
@[simp] theorem modCore_placed (f : Core → Core) : (modCore s g f).placed = s.placed := rfl
@[simp] theorem modCore_nextHandle (f : Core → Core) : (modCore s g f).nextHandle = s.nextHandle := rfl
@[simp] theorem modCore_rdvs (f : Core → Core) : (modCore s g f).rdvs = s.rdvs := rfl
@[simp] theorem modCore_xfers (f : Core → Core) : (modCore s g f).xfers = s.xfers := rfl
@[simp] theorem modCore_flits (f : Core → Core) : (modCore s g f).flits = s.flits := rfl
@[simp] theorem modCore_bops (f : Core → Core) : (modCore s g f).bops = s.bops := rfl
@[simp] theorem modCore_notes (f : Core → Core) : (modCore s g f).notes = s.notes := rfl
@[simp] theorem modCore_agenda (f : Core → Core) : (modCore s g f).agenda = s.agenda := rfl
@[simp] theorem modCore_seq (f : Core → Core) : (modCore s g f).seq = s.seq := rfl
@[simp] theorem modCore_cur (f : Core → Core) : (modCore s g f).cur = s.cur := rfl
@[simp] theorem modCore_inbox (f : Core → Core) : (modCore s g f).inbox = s.inbox := rfl
@[simp] theorem modCore_hostFails (f : Core → Core) : (modCore s g f).hostFails = s.hostFails := rfl
@[simp] theorem modCore_fresh (f : Core → Core) : (modCore s g f).fresh = s.fresh := rfl
@[simp] theorem setPart_now (x : Part) : (setPart s p x).now = s.now := rfl
@[simp] theorem setPart_mem (x : Part) : (setPart s p x).mem = s.mem := rfl
@[simp] theorem setPart_tags (x : Part) : (setPart s p x).tags = s.tags := rfl
@[simp] theorem setPart_memBad (x : Part) : (setPart s p x).memBad = s.memBad := rfl
@[simp] theorem setPart_tagBad (x : Part) : (setPart s p x).tagBad = s.tagBad := rfl
@[simp] theorem setPart_table (x : Part) : (setPart s p x).table = s.table := rfl
@[simp] theorem setPart_tableBad (x : Part) : (setPart s p x).tableBad = s.tableBad := rfl
@[simp] theorem setPart_kept (x : Part) : (setPart s p x).kept = s.kept := rfl
@[simp] theorem setPart_cores (x : Part) : (setPart s p x).cores = s.cores := rfl
@[simp] theorem setPart_pkgs (x : Part) : (setPart s p x).pkgs = s.pkgs := rfl
@[simp] theorem setPart_images (x : Part) : (setPart s p x).images = s.images := rfl
@[simp] theorem setPart_placed (x : Part) : (setPart s p x).placed = s.placed := rfl
@[simp] theorem setPart_nextHandle (x : Part) : (setPart s p x).nextHandle = s.nextHandle := rfl
@[simp] theorem setPart_rdvs (x : Part) : (setPart s p x).rdvs = s.rdvs := rfl
@[simp] theorem setPart_xfers (x : Part) : (setPart s p x).xfers = s.xfers := rfl
@[simp] theorem setPart_flits (x : Part) : (setPart s p x).flits = s.flits := rfl
@[simp] theorem setPart_bops (x : Part) : (setPart s p x).bops = s.bops := rfl
@[simp] theorem setPart_notes (x : Part) : (setPart s p x).notes = s.notes := rfl
@[simp] theorem setPart_agenda (x : Part) : (setPart s p x).agenda = s.agenda := rfl
@[simp] theorem setPart_seq (x : Part) : (setPart s p x).seq = s.seq := rfl
@[simp] theorem setPart_cur (x : Part) : (setPart s p x).cur = s.cur := rfl
@[simp] theorem setPart_inbox (x : Part) : (setPart s p x).inbox = s.inbox := rfl
@[simp] theorem setPart_hostFails (x : Part) : (setPart s p x).hostFails = s.hostFails := rfl
@[simp] theorem setPart_fresh (x : Part) : (setPart s p x).fresh = s.fresh := rfl
@[simp] theorem modPart_now (f : Part → Part) : (modPart s p f).now = s.now := rfl
@[simp] theorem modPart_mem (f : Part → Part) : (modPart s p f).mem = s.mem := rfl
@[simp] theorem modPart_tags (f : Part → Part) : (modPart s p f).tags = s.tags := rfl
@[simp] theorem modPart_memBad (f : Part → Part) : (modPart s p f).memBad = s.memBad := rfl
@[simp] theorem modPart_tagBad (f : Part → Part) : (modPart s p f).tagBad = s.tagBad := rfl
@[simp] theorem modPart_table (f : Part → Part) : (modPart s p f).table = s.table := rfl
@[simp] theorem modPart_tableBad (f : Part → Part) : (modPart s p f).tableBad = s.tableBad := rfl
@[simp] theorem modPart_kept (f : Part → Part) : (modPart s p f).kept = s.kept := rfl
@[simp] theorem modPart_cores (f : Part → Part) : (modPart s p f).cores = s.cores := rfl
@[simp] theorem modPart_pkgs (f : Part → Part) : (modPart s p f).pkgs = s.pkgs := rfl
@[simp] theorem modPart_images (f : Part → Part) : (modPart s p f).images = s.images := rfl
@[simp] theorem modPart_placed (f : Part → Part) : (modPart s p f).placed = s.placed := rfl
@[simp] theorem modPart_nextHandle (f : Part → Part) : (modPart s p f).nextHandle = s.nextHandle := rfl
@[simp] theorem modPart_rdvs (f : Part → Part) : (modPart s p f).rdvs = s.rdvs := rfl
@[simp] theorem modPart_xfers (f : Part → Part) : (modPart s p f).xfers = s.xfers := rfl
@[simp] theorem modPart_flits (f : Part → Part) : (modPart s p f).flits = s.flits := rfl
@[simp] theorem modPart_bops (f : Part → Part) : (modPart s p f).bops = s.bops := rfl
@[simp] theorem modPart_notes (f : Part → Part) : (modPart s p f).notes = s.notes := rfl
@[simp] theorem modPart_agenda (f : Part → Part) : (modPart s p f).agenda = s.agenda := rfl
@[simp] theorem modPart_seq (f : Part → Part) : (modPart s p f).seq = s.seq := rfl
@[simp] theorem modPart_cur (f : Part → Part) : (modPart s p f).cur = s.cur := rfl
@[simp] theorem modPart_inbox (f : Part → Part) : (modPart s p f).inbox = s.inbox := rfl
@[simp] theorem modPart_hostFails (f : Part → Part) : (modPart s p f).hostFails = s.hostFails := rfl
@[simp] theorem modPart_fresh (f : Part → Part) : (modPart s p f).fresh = s.fresh := rfl
@[simp] theorem postSub_now (k : Option Nat) (c a b : Nat) (o : Option Src) (e : Ev) : (postSub s k c a b o e).now = s.now := rfl
@[simp] theorem postSub_mem (k : Option Nat) (c a b : Nat) (o : Option Src) (e : Ev) : (postSub s k c a b o e).mem = s.mem := rfl
@[simp] theorem postSub_tags (k : Option Nat) (c a b : Nat) (o : Option Src) (e : Ev) : (postSub s k c a b o e).tags = s.tags := rfl
@[simp] theorem postSub_memBad (k : Option Nat) (c a b : Nat) (o : Option Src) (e : Ev) : (postSub s k c a b o e).memBad = s.memBad := rfl
@[simp] theorem postSub_tagBad (k : Option Nat) (c a b : Nat) (o : Option Src) (e : Ev) : (postSub s k c a b o e).tagBad = s.tagBad := rfl
@[simp] theorem postSub_table (k : Option Nat) (c a b : Nat) (o : Option Src) (e : Ev) : (postSub s k c a b o e).table = s.table := rfl
@[simp] theorem postSub_tableBad (k : Option Nat) (c a b : Nat) (o : Option Src) (e : Ev) : (postSub s k c a b o e).tableBad = s.tableBad := rfl
@[simp] theorem postSub_kept (k : Option Nat) (c a b : Nat) (o : Option Src) (e : Ev) : (postSub s k c a b o e).kept = s.kept := rfl
@[simp] theorem postSub_cores (k : Option Nat) (c a b : Nat) (o : Option Src) (e : Ev) : (postSub s k c a b o e).cores = s.cores := rfl
@[simp] theorem postSub_parts (k : Option Nat) (c a b : Nat) (o : Option Src) (e : Ev) : (postSub s k c a b o e).parts = s.parts := rfl
@[simp] theorem postSub_pkgs (k : Option Nat) (c a b : Nat) (o : Option Src) (e : Ev) : (postSub s k c a b o e).pkgs = s.pkgs := rfl
@[simp] theorem postSub_images (k : Option Nat) (c a b : Nat) (o : Option Src) (e : Ev) : (postSub s k c a b o e).images = s.images := rfl
@[simp] theorem postSub_placed (k : Option Nat) (c a b : Nat) (o : Option Src) (e : Ev) : (postSub s k c a b o e).placed = s.placed := rfl
@[simp] theorem postSub_nextHandle (k : Option Nat) (c a b : Nat) (o : Option Src) (e : Ev) : (postSub s k c a b o e).nextHandle = s.nextHandle := rfl
@[simp] theorem postSub_rdvs (k : Option Nat) (c a b : Nat) (o : Option Src) (e : Ev) : (postSub s k c a b o e).rdvs = s.rdvs := rfl
@[simp] theorem postSub_xfers (k : Option Nat) (c a b : Nat) (o : Option Src) (e : Ev) : (postSub s k c a b o e).xfers = s.xfers := rfl
@[simp] theorem postSub_flits (k : Option Nat) (c a b : Nat) (o : Option Src) (e : Ev) : (postSub s k c a b o e).flits = s.flits := rfl
@[simp] theorem postSub_bops (k : Option Nat) (c a b : Nat) (o : Option Src) (e : Ev) : (postSub s k c a b o e).bops = s.bops := rfl
@[simp] theorem postSub_notes (k : Option Nat) (c a b : Nat) (o : Option Src) (e : Ev) : (postSub s k c a b o e).notes = s.notes := rfl
@[simp] theorem postSub_cur (k : Option Nat) (c a b : Nat) (o : Option Src) (e : Ev) : (postSub s k c a b o e).cur = s.cur := rfl
@[simp] theorem postSub_inbox (k : Option Nat) (c a b : Nat) (o : Option Src) (e : Ev) : (postSub s k c a b o e).inbox = s.inbox := rfl
@[simp] theorem postSub_hostFails (k : Option Nat) (c a b : Nat) (o : Option Src) (e : Ev) : (postSub s k c a b o e).hostFails = s.hostFails := rfl
@[simp] theorem postSub_fresh (k : Option Nat) (c a b : Nat) (o : Option Src) (e : Ev) : (postSub s k c a b o e).fresh = s.fresh := rfl
@[simp] theorem post_now (k : Option Nat) (c a : Nat) (o : Option Src) (e : Ev) : (post s k c a o e).now = s.now := rfl
@[simp] theorem post_mem (k : Option Nat) (c a : Nat) (o : Option Src) (e : Ev) : (post s k c a o e).mem = s.mem := rfl
@[simp] theorem post_tags (k : Option Nat) (c a : Nat) (o : Option Src) (e : Ev) : (post s k c a o e).tags = s.tags := rfl
@[simp] theorem post_memBad (k : Option Nat) (c a : Nat) (o : Option Src) (e : Ev) : (post s k c a o e).memBad = s.memBad := rfl
@[simp] theorem post_tagBad (k : Option Nat) (c a : Nat) (o : Option Src) (e : Ev) : (post s k c a o e).tagBad = s.tagBad := rfl
@[simp] theorem post_table (k : Option Nat) (c a : Nat) (o : Option Src) (e : Ev) : (post s k c a o e).table = s.table := rfl
@[simp] theorem post_tableBad (k : Option Nat) (c a : Nat) (o : Option Src) (e : Ev) : (post s k c a o e).tableBad = s.tableBad := rfl
@[simp] theorem post_kept (k : Option Nat) (c a : Nat) (o : Option Src) (e : Ev) : (post s k c a o e).kept = s.kept := rfl
@[simp] theorem post_cores (k : Option Nat) (c a : Nat) (o : Option Src) (e : Ev) : (post s k c a o e).cores = s.cores := rfl
@[simp] theorem post_parts (k : Option Nat) (c a : Nat) (o : Option Src) (e : Ev) : (post s k c a o e).parts = s.parts := rfl
@[simp] theorem post_pkgs (k : Option Nat) (c a : Nat) (o : Option Src) (e : Ev) : (post s k c a o e).pkgs = s.pkgs := rfl
@[simp] theorem post_images (k : Option Nat) (c a : Nat) (o : Option Src) (e : Ev) : (post s k c a o e).images = s.images := rfl
@[simp] theorem post_placed (k : Option Nat) (c a : Nat) (o : Option Src) (e : Ev) : (post s k c a o e).placed = s.placed := rfl
@[simp] theorem post_nextHandle (k : Option Nat) (c a : Nat) (o : Option Src) (e : Ev) : (post s k c a o e).nextHandle = s.nextHandle := rfl
@[simp] theorem post_rdvs (k : Option Nat) (c a : Nat) (o : Option Src) (e : Ev) : (post s k c a o e).rdvs = s.rdvs := rfl
@[simp] theorem post_xfers (k : Option Nat) (c a : Nat) (o : Option Src) (e : Ev) : (post s k c a o e).xfers = s.xfers := rfl
@[simp] theorem post_flits (k : Option Nat) (c a : Nat) (o : Option Src) (e : Ev) : (post s k c a o e).flits = s.flits := rfl
@[simp] theorem post_bops (k : Option Nat) (c a : Nat) (o : Option Src) (e : Ev) : (post s k c a o e).bops = s.bops := rfl
@[simp] theorem post_notes (k : Option Nat) (c a : Nat) (o : Option Src) (e : Ev) : (post s k c a o e).notes = s.notes := rfl
@[simp] theorem post_cur (k : Option Nat) (c a : Nat) (o : Option Src) (e : Ev) : (post s k c a o e).cur = s.cur := rfl
@[simp] theorem post_inbox (k : Option Nat) (c a : Nat) (o : Option Src) (e : Ev) : (post s k c a o e).inbox = s.inbox := rfl
@[simp] theorem post_hostFails (k : Option Nat) (c a : Nat) (o : Option Src) (e : Ev) : (post s k c a o e).hostFails = s.hostFails := rfl
@[simp] theorem post_fresh (k : Option Nat) (c a : Nat) (o : Option Src) (e : Ev) : (post s k c a o e).fresh = s.fresh := rfl
@[simp] theorem postAt_now (c a : Nat) (o : Option Src) (e : Ev) : (postAt s g c a o e).now = s.now := rfl
@[simp] theorem postAt_mem (c a : Nat) (o : Option Src) (e : Ev) : (postAt s g c a o e).mem = s.mem := rfl
@[simp] theorem postAt_tags (c a : Nat) (o : Option Src) (e : Ev) : (postAt s g c a o e).tags = s.tags := rfl
@[simp] theorem postAt_memBad (c a : Nat) (o : Option Src) (e : Ev) : (postAt s g c a o e).memBad = s.memBad := rfl
@[simp] theorem postAt_tagBad (c a : Nat) (o : Option Src) (e : Ev) : (postAt s g c a o e).tagBad = s.tagBad := rfl
@[simp] theorem postAt_table (c a : Nat) (o : Option Src) (e : Ev) : (postAt s g c a o e).table = s.table := rfl
@[simp] theorem postAt_tableBad (c a : Nat) (o : Option Src) (e : Ev) : (postAt s g c a o e).tableBad = s.tableBad := rfl
@[simp] theorem postAt_kept (c a : Nat) (o : Option Src) (e : Ev) : (postAt s g c a o e).kept = s.kept := rfl
@[simp] theorem postAt_cores (c a : Nat) (o : Option Src) (e : Ev) : (postAt s g c a o e).cores = s.cores := rfl
@[simp] theorem postAt_parts (c a : Nat) (o : Option Src) (e : Ev) : (postAt s g c a o e).parts = s.parts := rfl
@[simp] theorem postAt_pkgs (c a : Nat) (o : Option Src) (e : Ev) : (postAt s g c a o e).pkgs = s.pkgs := rfl
@[simp] theorem postAt_images (c a : Nat) (o : Option Src) (e : Ev) : (postAt s g c a o e).images = s.images := rfl
@[simp] theorem postAt_placed (c a : Nat) (o : Option Src) (e : Ev) : (postAt s g c a o e).placed = s.placed := rfl
@[simp] theorem postAt_nextHandle (c a : Nat) (o : Option Src) (e : Ev) : (postAt s g c a o e).nextHandle = s.nextHandle := rfl
@[simp] theorem postAt_rdvs (c a : Nat) (o : Option Src) (e : Ev) : (postAt s g c a o e).rdvs = s.rdvs := rfl
@[simp] theorem postAt_xfers (c a : Nat) (o : Option Src) (e : Ev) : (postAt s g c a o e).xfers = s.xfers := rfl
@[simp] theorem postAt_flits (c a : Nat) (o : Option Src) (e : Ev) : (postAt s g c a o e).flits = s.flits := rfl
@[simp] theorem postAt_bops (c a : Nat) (o : Option Src) (e : Ev) : (postAt s g c a o e).bops = s.bops := rfl
@[simp] theorem postAt_notes (c a : Nat) (o : Option Src) (e : Ev) : (postAt s g c a o e).notes = s.notes := rfl
@[simp] theorem postAt_cur (c a : Nat) (o : Option Src) (e : Ev) : (postAt s g c a o e).cur = s.cur := rfl
@[simp] theorem postAt_inbox (c a : Nat) (o : Option Src) (e : Ev) : (postAt s g c a o e).inbox = s.inbox := rfl
@[simp] theorem postAt_hostFails (c a : Nat) (o : Option Src) (e : Ev) : (postAt s g c a o e).hostFails = s.hostFails := rfl
@[simp] theorem postAt_fresh (c a : Nat) (o : Option Src) (e : Ev) : (postAt s g c a o e).fresh = s.fresh := rfl
@[simp] theorem memWrite_now (ws : List (Nat × Byte)) : (memWrite s ws).now = s.now := rfl
@[simp] theorem memWrite_tags (ws : List (Nat × Byte)) : (memWrite s ws).tags = s.tags := rfl
@[simp] theorem memWrite_memBad (ws : List (Nat × Byte)) : (memWrite s ws).memBad = s.memBad := rfl
@[simp] theorem memWrite_tagBad (ws : List (Nat × Byte)) : (memWrite s ws).tagBad = s.tagBad := rfl
@[simp] theorem memWrite_table (ws : List (Nat × Byte)) : (memWrite s ws).table = s.table := rfl
@[simp] theorem memWrite_tableBad (ws : List (Nat × Byte)) : (memWrite s ws).tableBad = s.tableBad := rfl
@[simp] theorem memWrite_kept (ws : List (Nat × Byte)) : (memWrite s ws).kept = s.kept := rfl
@[simp] theorem memWrite_cores (ws : List (Nat × Byte)) : (memWrite s ws).cores = s.cores := rfl
@[simp] theorem memWrite_parts (ws : List (Nat × Byte)) : (memWrite s ws).parts = s.parts := rfl
@[simp] theorem memWrite_pkgs (ws : List (Nat × Byte)) : (memWrite s ws).pkgs = s.pkgs := rfl
@[simp] theorem memWrite_images (ws : List (Nat × Byte)) : (memWrite s ws).images = s.images := rfl
@[simp] theorem memWrite_placed (ws : List (Nat × Byte)) : (memWrite s ws).placed = s.placed := rfl
@[simp] theorem memWrite_nextHandle (ws : List (Nat × Byte)) : (memWrite s ws).nextHandle = s.nextHandle := rfl
@[simp] theorem memWrite_rdvs (ws : List (Nat × Byte)) : (memWrite s ws).rdvs = s.rdvs := rfl
@[simp] theorem memWrite_xfers (ws : List (Nat × Byte)) : (memWrite s ws).xfers = s.xfers := rfl
@[simp] theorem memWrite_flits (ws : List (Nat × Byte)) : (memWrite s ws).flits = s.flits := rfl
@[simp] theorem memWrite_bops (ws : List (Nat × Byte)) : (memWrite s ws).bops = s.bops := rfl
@[simp] theorem memWrite_notes (ws : List (Nat × Byte)) : (memWrite s ws).notes = s.notes := rfl
@[simp] theorem memWrite_agenda (ws : List (Nat × Byte)) : (memWrite s ws).agenda = s.agenda := rfl
@[simp] theorem memWrite_seq (ws : List (Nat × Byte)) : (memWrite s ws).seq = s.seq := rfl
@[simp] theorem memWrite_cur (ws : List (Nat × Byte)) : (memWrite s ws).cur = s.cur := rfl
@[simp] theorem memWrite_inbox (ws : List (Nat × Byte)) : (memWrite s ws).inbox = s.inbox := rfl
@[simp] theorem memWrite_hostFails (ws : List (Nat × Byte)) : (memWrite s ws).hostFails = s.hostFails := rfl
@[simp] theorem memWrite_fresh (ws : List (Nat × Byte)) : (memWrite s ws).fresh = s.fresh := rfl
@[simp] theorem setTag_now (a t : Nat) : (setTag s a t).now = s.now := rfl
@[simp] theorem setTag_mem (a t : Nat) : (setTag s a t).mem = s.mem := rfl
@[simp] theorem setTag_memBad (a t : Nat) : (setTag s a t).memBad = s.memBad := rfl
@[simp] theorem setTag_table (a t : Nat) : (setTag s a t).table = s.table := rfl
@[simp] theorem setTag_tableBad (a t : Nat) : (setTag s a t).tableBad = s.tableBad := rfl
@[simp] theorem setTag_kept (a t : Nat) : (setTag s a t).kept = s.kept := rfl
@[simp] theorem setTag_cores (a t : Nat) : (setTag s a t).cores = s.cores := rfl
@[simp] theorem setTag_parts (a t : Nat) : (setTag s a t).parts = s.parts := rfl
@[simp] theorem setTag_pkgs (a t : Nat) : (setTag s a t).pkgs = s.pkgs := rfl
@[simp] theorem setTag_images (a t : Nat) : (setTag s a t).images = s.images := rfl
@[simp] theorem setTag_placed (a t : Nat) : (setTag s a t).placed = s.placed := rfl
@[simp] theorem setTag_nextHandle (a t : Nat) : (setTag s a t).nextHandle = s.nextHandle := rfl
@[simp] theorem setTag_rdvs (a t : Nat) : (setTag s a t).rdvs = s.rdvs := rfl
@[simp] theorem setTag_xfers (a t : Nat) : (setTag s a t).xfers = s.xfers := rfl
@[simp] theorem setTag_flits (a t : Nat) : (setTag s a t).flits = s.flits := rfl
@[simp] theorem setTag_bops (a t : Nat) : (setTag s a t).bops = s.bops := rfl
@[simp] theorem setTag_notes (a t : Nat) : (setTag s a t).notes = s.notes := rfl
@[simp] theorem setTag_agenda (a t : Nat) : (setTag s a t).agenda = s.agenda := rfl
@[simp] theorem setTag_seq (a t : Nat) : (setTag s a t).seq = s.seq := rfl
@[simp] theorem setTag_cur (a t : Nat) : (setTag s a t).cur = s.cur := rfl
@[simp] theorem setTag_inbox (a t : Nat) : (setTag s a t).inbox = s.inbox := rfl
@[simp] theorem setTag_hostFails (a t : Nat) : (setTag s a t).hostFails = s.hostFails := rfl
@[simp] theorem setTag_fresh (a t : Nat) : (setTag s a t).fresh = s.fresh := rfl
@[simp] theorem setBad_now (a v : Nat) : (setBad s a v).now = s.now := rfl
@[simp] theorem setBad_mem (a v : Nat) : (setBad s a v).mem = s.mem := rfl
@[simp] theorem setBad_tags (a v : Nat) : (setBad s a v).tags = s.tags := rfl
@[simp] theorem setBad_tagBad (a v : Nat) : (setBad s a v).tagBad = s.tagBad := rfl
@[simp] theorem setBad_table (a v : Nat) : (setBad s a v).table = s.table := rfl
@[simp] theorem setBad_tableBad (a v : Nat) : (setBad s a v).tableBad = s.tableBad := rfl
@[simp] theorem setBad_kept (a v : Nat) : (setBad s a v).kept = s.kept := rfl
@[simp] theorem setBad_cores (a v : Nat) : (setBad s a v).cores = s.cores := rfl
@[simp] theorem setBad_parts (a v : Nat) : (setBad s a v).parts = s.parts := rfl
@[simp] theorem setBad_pkgs (a v : Nat) : (setBad s a v).pkgs = s.pkgs := rfl
@[simp] theorem setBad_images (a v : Nat) : (setBad s a v).images = s.images := rfl
@[simp] theorem setBad_placed (a v : Nat) : (setBad s a v).placed = s.placed := rfl
@[simp] theorem setBad_nextHandle (a v : Nat) : (setBad s a v).nextHandle = s.nextHandle := rfl
@[simp] theorem setBad_rdvs (a v : Nat) : (setBad s a v).rdvs = s.rdvs := rfl
@[simp] theorem setBad_xfers (a v : Nat) : (setBad s a v).xfers = s.xfers := rfl
@[simp] theorem setBad_flits (a v : Nat) : (setBad s a v).flits = s.flits := rfl
@[simp] theorem setBad_bops (a v : Nat) : (setBad s a v).bops = s.bops := rfl
@[simp] theorem setBad_notes (a v : Nat) : (setBad s a v).notes = s.notes := rfl
@[simp] theorem setBad_agenda (a v : Nat) : (setBad s a v).agenda = s.agenda := rfl
@[simp] theorem setBad_seq (a v : Nat) : (setBad s a v).seq = s.seq := rfl
@[simp] theorem setBad_cur (a v : Nat) : (setBad s a v).cur = s.cur := rfl
@[simp] theorem setBad_inbox (a v : Nat) : (setBad s a v).inbox = s.inbox := rfl
@[simp] theorem setBad_hostFails (a v : Nat) : (setBad s a v).hostFails = s.hostFails := rfl
@[simp] theorem setBad_fresh (a v : Nat) : (setBad s a v).fresh = s.fresh := rfl

theorem postSub_agenda (k : Option Nat) (c a b : Nat) (o : Option Src) (e : Ev) :
    (postSub s k c a b o e).agenda = s.agenda ++ [⟨k, c, a * 65536 + b, s.seq, o, e⟩] := by
  unfold postSub; rfl
theorem postAt_agenda (c a : Nat) (o : Option Src) (e : Ev) :
    (postAt s g c a o e).agenda = s.agenda ++ [⟨clkOf s g, c, a * 65536 + 0, s.seq, o, e⟩] := by
  unfold postAt post postSub; rfl

end Sys2Proof.Machine
end

