-- ==== Sys2Proof/Laws/Frame.lean ====
section
/-! SUPPORT. What issuing an instruction leaves as it was: the parts that shared operations change, and what they make
due. -/

namespace Sys2Proof.Machine

variable {s t u : State} {g : Nat} {f : Core → Core}

/-! ### Posting -/

/-- `t` is `s` but for events that only count errors. -/
structure Posted (s t : State) : Prop where
  rest : t = { s with agenda := t.agenda, seq := t.seq }
  dues : dues t = dues s

theorem Posted.refl (s : State) : Posted s s := ⟨rfl, rfl⟩
theorem Posted.trans (a : Posted s t) (b : Posted t u) : Posted s u := by
  refine ⟨?_, b.dues.trans a.dues⟩
  rw [b.rest, a.rest]

theorem dues_postSub (s : State) (k : Option Nat) (c a b : Nat) (o : Option Src) (e : Ev) :
    dues (postSub s k c a b o e) = dues s ++ (if isCount e then [] else [(k, c, e)]) := by
  unfold dues
  rw [postSub_agenda]
  cases h : isCount e <;> simp [h]

theorem dues_post (s : State) (k : Option Nat) (c a : Nat) (o : Option Src) (e : Ev) (h : isCount e = false) :
    dues (post s k c a o e) = dues s ++ [(k, c, e)] := by
  unfold post; rw [dues_postSub, h]; rfl

theorem dues_postAt (s : State) (g c a : Nat) (o : Option Src) (e : Ev) (h : isCount e = false) :
    dues (postAt s g c a o e) = dues s ++ [(clkOf s g, c, e)] := dues_post s _ c a o e h

theorem posted_postError (s : State) (g k a w n : Nat) : Posted s (postError s g k a w n) := by
  unfold postError
  split
  · exact .refl s
  · refine ⟨rfl, ?_⟩
    unfold postAt post
    rw [dues_postSub]
    exact List.append_nil _

theorem posted_foldl {β : Type} {F : State → β → State} (hF : ∀ s x, Posted s (F s x)) (l : List β) (s : State) :
    Posted s (l.foldl F s) := by
  induction l generalizing s with
  | nil => exact .refl s
  | cons x l ih => exact (hF s x).trans (ih _)

theorem posted_countOperands (s : State) (i : Instr) : Posted s (countOperands s i) :=
  posted_foldl (fun s _ => posted_postError s _ _ _ _ _) _ _

theorem posted_countReads (s : State) (g a : Nat) (ws : List Nat) : Posted s (countReads s g a ws) :=
  posted_foldl (fun s _ => posted_postError s _ _ _ _ _) _ _

theorem posted_countBads (s : State) (g a : Nat) (bs : List (Nat × Nat)) : Posted s (countBads s g a bs) :=
  posted_foldl (fun s _ => posted_postError s _ _ _ _ _) _ _

theorem posted_countLookup (s : State) (g : Nat) : Posted s (countLookup s g) :=
  posted_foldl (fun s _ => posted_postError s _ _ _ _ _) _ _

/-! ### KeptBut -/

/-- A change of a core that does not look at its ports or landings. -/
def Plain (f : Core → Core) : Prop :=
  ∀ c p l, { f { c with ports := p, lands := l } with ports := [], lands := [] } = { f c with ports := [], lands := [] }

theorem plain_id : Plain id := fun _ _ _ => rfl

theorem KeptBut.refl (g : Nat) (s : State) : KeptBut g id s s := ⟨rfl, rfl, fun _ _ => rfl, rfl, fun _ => rfl⟩

theorem KeptBut.then (a : KeptBut g f s t) (b : KeptBut g id t u) : KeptBut g f s u := by
  refine ⟨?_, b.unit.trans a.unit, fun h hh => (b.others h hh).trans (a.others h hh), ?_, fun x => (b.memory x).trans (a.memory x)⟩
  · rw [b.rest, a.rest]
  · rw [b.core, a.core]; rfl

theorem KeptBut.after (hf : Plain f) (a : KeptBut g id s t) (b : KeptBut g f t u) : KeptBut g f s u := by
  refine ⟨?_, b.unit.trans a.unit, fun h hh => (b.others h hh).trans (a.others h hh), ?_, fun x => (b.memory x).trans (a.memory x)⟩
  · rw [b.rest, a.rest]
  · have h := hf (coreOf s g) (coreOf t g).ports (coreOf t g).lands
    have e : coreOf t g = { coreOf s g with ports := (coreOf t g).ports, lands := (coreOf t g).lands } := a.core
    rw [← e] at h
    have h2 := congrArg (fun c : Core => { c with ports := (coreOf u g).ports, lands := (coreOf u g).lands }) h
    rw [b.core]
    exact h2

theorem Posted.kept (a : Posted s t) (g : Nat) : KeptBut g id s t := by
  rw [a.rest]
  exact ⟨rfl, rfl, fun _ _ => rfl, rfl, fun _ => rfl⟩

theorem kept_modCore (s : State) (g : Nat) (f : Core → Core) : KeptBut g f s (modCore s g f) :=
  ⟨rfl, rfl, fun _ hh => coreOf_modCore_ne _ _ _ _ hh, by rw [coreOf_modCore_self], fun _ => rfl⟩

theorem kept_reserve (s : State) (g p b l c : Nat) : KeptBut g id s (reserve s g p b l c) := by
  refine ⟨rfl, rfl, fun _ hh => coreOf_modCore_ne _ _ _ _ hh, ?_, fun _ => rfl⟩
  unfold reserve; rw [coreOf_modCore_self]; rfl

theorem kept_noteLand (s : State) (g r c : Nat) (b : Bool) : KeptBut g id s (noteLand s g r c b) := by
  refine ⟨rfl, rfl, fun _ hh => coreOf_modCore_ne _ _ _ _ hh, ?_, fun _ => rfl⟩
  unfold noteLand; rw [coreOf_modCore_self]; rfl

theorem kept_postSub (s : State) (h : Nat) (k : Option Nat) (c a b : Nat) (o : Option Src) (e : Ev) :
    KeptBut h id s (postSub s k c a b o e) := ⟨rfl, rfl, fun _ _ => rfl, rfl, fun _ => rfl⟩
theorem kept_postAt (s : State) (h g c a : Nat) (o : Option Src) (e : Ev) :
    KeptBut h id s (postAt s g c a o e) := ⟨rfl, rfl, fun _ _ => rfl, rfl, fun _ => rfl⟩

theorem kept_foldl {β : Type} {F : State → β → State} (hF : ∀ s x, KeptBut g id s (F s x)) (l : List β) (s : State) :
    KeptBut g id s (l.foldl F s) := by
  induction l generalizing s with
  | nil => exact .refl g s
  | cons x l ih => exact (hF s x).then (ih _)

theorem kept_reserveRead (s : State) (g : Nat) (ls : List Nat) (c : Nat) : KeptBut g id s (reserveRead s g ls c) :=
  kept_foldl (fun s _ => kept_reserve s g _ _ _ _) _ _
theorem kept_reserveWrite (s : State) (g : Nat) (ls : List Nat) (c : Nat) : KeptBut g id s (reserveWrite s g ls c) :=
  kept_foldl (fun s _ => kept_reserve s g _ _ _ _) _ _

@[simp] theorem dues_modCore (s : State) (g : Nat) (f : Core → Core) : dues (modCore s g f) = dues s := rfl
@[simp] theorem dues_setCore (s : State) (g : Nat) (c : Core) : dues (setCore s g c) = dues s := rfl
@[simp] theorem dues_reserve (s : State) (g p b l c : Nat) : dues (reserve s g p b l c) = dues s := rfl
@[simp] theorem dues_noteLand (s : State) (g r c : Nat) (b : Bool) : dues (noteLand s g r c b) = dues s := rfl

theorem dues_foldl {β : Type} {F : State → β → State} (hF : ∀ s x, dues (F s x) = dues s) (l : List β) (s : State) :
    dues (l.foldl F s) = dues s := by
  induction l generalizing s with
  | nil => rfl
  | cons x l ih => exact (ih _).trans (hF s x)
@[simp] theorem dues_reserveRead (s : State) (g : Nat) (ls : List Nat) (c : Nat) : dues (reserveRead s g ls c) = dues s :=
  dues_foldl (fun _ _ => dues_reserve _ _ _ _ _ _) _ _
@[simp] theorem dues_reserveWrite (s : State) (g : Nat) (ls : List Nat) (c : Nat) : dues (reserveWrite s g ls c) = dues s :=
  dues_foldl (fun _ _ => dues_reserve _ _ _ _ _ _) _ _

/-! ### What depends on neither the cores nor the agenda -/

theorem KeptBut.parts (a : KeptBut g f s t) : t.parts = s.parts := by rw [a.rest]
theorem KeptBut.now (a : KeptBut g f s t) : t.now = s.now := by rw [a.rest]
theorem KeptBut.pkgs (a : KeptBut g f s t) : t.pkgs = s.pkgs := by rw [a.rest]
theorem clkOf_parts (h : t.parts = s.parts) (g : Nat) : clkOf t g = clkOf s g := by
  unfold clkOf partOfCore partAt partOf; rw [h]
theorem KeptBut.clk (a : KeptBut g f s t) (h : Nat) : clkOf t h = clkOf s h := clkOf_parts a.parts h
theorem KeptBut.cnow (a : KeptBut g f s t) (h : Nat) : cnow t h = cnow s h := by
  unfold Machine.cnow timeOn partOf; rw [a.clk h, a.parts, a.now]

/-! ### Results -/

theorem checked_ok {fs : List FaultRec} {act : State → State} (h : fs = []) : checked s fs act = .next (act s) := by
  subst h; rfl

theorem land_spec (s : State) (g c : Nat) (o : Option Src) (l : Landing) (hc : landingClash s g c l = false) :
    KeptBut g id s (land s g c o l) ∧ dues (land s g c o l) = dues s ++ [(clkOf s g, c, .instr (.resultLanding g l))] := by
  unfold land
  rw [hc]
  exact ⟨(kept_postAt s g g c 10 o _).then (kept_noteLand _ g _ _ _), by
    simp only [Bool.false_eq_true, if_false, dues_noteLand]; exact dues_postAt s g c 10 o _ rfl⟩

/-- A result lands at its cycle, and nothing else changes, unless another lands in its destination in that cycle. -/
theorem landResult_spec (s : State) (c k : Nat) (l : Landing) (hc : landingClash s s.cur.g c l = false) :
    KeptBut s.cur.g id s (landResult s c k l) ∧ dues (landResult s c k l) = dues s ++ [landingDue s c l] := by
  unfold landResult
  dsimp only
  split
  · have h := land_spec s s.cur.g c (some (srcNow s s.cur.g k 0xFFFF)) l hc
    exact ⟨h.1.then (kept_reserve _ _ _ _ _ _), h.2⟩
  · exact land_spec s s.cur.g c _ l hc

theorem scalarResult_spec (s : State) (d : RegField) (k n : Nat) (x : Word)
    (hc : d.toNat < 32 → landingClash s s.cur.g (landCyc s k n) (.sreg d.toNat x) = false) :
    KeptBut s.cur.g id s (scalarResult s d k n x) ∧ dues (scalarResult s d k n x) =
      dues s ++ (if d.toNat < 32 then [landingDue s (landCyc s k n) (.sreg d.toNat x)] else []) := by
  unfold scalarResult
  split
  · rename_i h; exact landResult_spec s _ k _ (hc h)
  · exact ⟨.refl _ _, (List.append_nil _).symm⟩

theorem dues_perform (s : State) (x : Perf) (h : isCount (.perform s.cur.g x) = false) :
    dues (perform s x) = dues s ++ [performDue s x] := dues_postAt s _ _ 30 _ _ h
theorem kept_perform (s : State) (g : Nat) (x : Perf) : KeptBut g id s (perform s x) := kept_postAt s _ _ _ _ _ _

/-- Does what a core waits for land with `l`, or is the port of `l` full? -/
def farClash (s : State) (g c : Nat) (l : Landing) : Bool :=
  (coreOf s g).waits.any (farResult c l) || ((coreOf s g).draining.any (farStatus s g c l) || portFull s g c l)

/-- Does the event land a result of core `g` in the destination of `l`? -/
def lands (g : Nat) (l : Landing) : Ev → Bool
  | .instr (.resultLanding h k) => h = g && sameDest k l
  | _ => false

theorem landingClash_eq (s : State) (g c : Nat) (l : Landing) :
    landingClash s g c l = (s.agenda.any (fun d => d.cyc = c && lands g l d.ev) || farClash s g c l) := by
  unfold landingClash farClash
  rw [Bool.or_assoc, Bool.or_assoc]
  rfl

theorem lands_isCount (g : Nat) (l : Landing) (e : Ev) (h : isCount e = true) : lands g l e = false := by
  unfold isCount at h
  split at h
  · rfl
  · cases h

theorem landingClash_dues (s : State) (g c : Nat) (l : Landing) :
    landingClash s g c l = ((dues s).any (fun d => d.2.1 = c && lands g l d.2.2) || farClash s g c l) := by
  rw [landingClash_eq]
  congr 1
  unfold dues
  induction s.agenda with
  | nil => rfl
  | cons d a ih =>
    rw [List.any_cons, ih]
    cases h : isCount d.ev with
    | false => simp [h]
    | true => simp [h, lands_isCount g l d.ev h]

/-- What is due elsewhere depends on neither the agenda nor the bundle in hand. -/
theorem farClash_rest (a : List Due) (n : Nat) (u : Cur) (g c : Nat) (l : Landing) :
    farClash { s with agenda := a, seq := n, cur := u } g c l = farClash s g c l := rfl

theorem Posted.clash (a : Posted s t) (g c : Nat) (l : Landing) : landingClash t g c l = landingClash s g c l := by
  have h : farClash t g c l = farClash s g c l := by
    rw [a.rest]; exact farClash_rest _ _ _ g c l
  rw [landingClash_dues, landingClash_dues, a.dues, h]

/-! ### Scalar and vector operations -/

theorem landCyc_posted (a : Posted s t) (k n : Nat) : landCyc t k n = landCyc s k n := by rw [a.rest]; rfl
theorem landingDue_posted (a : Posted s t) (c : Nat) (l : Landing) : landingDue t c l = landingDue s c l := by
  rw [a.rest]; rfl
theorem Posted.unit (a : Posted s t) : t.cur.g = s.cur.g := by rw [a.rest]

/-- A scalar operation with nothing wrong: its result lands after its latency, or nothing happens. -/
theorem scalarOp_completes (i : Instr) (d : RegField) (m : Md) (k n : Nat) (x : Word) (s : State)
    (hf : operandFaults s i = [])
    (hc : guardMd s m = true → d.toNat < 32 → landingClash s s.cur.g (landCyc s k n) (.sreg d.toNat x) = false) :
    ∃ t, scalarOp i d m k n x s = .next t ∧ KeptBut s.cur.g id s t ∧ dues t = dues s ++
      (if guardMd s m = true ∧ d.toNat < 32 then [landingDue s (landCyc s k n) (.sreg d.toNat x)] else []) := by
  have hp := posted_countOperands s i
  refine ⟨_, checked_ok hf, ?_⟩
  cases hg : guardMd s m with
  | false => simp only [Bool.false_eq_true, if_false, false_and]; exact ⟨hp.kept _, by rw [hp.dues, List.append_nil]⟩
  | true =>
    have h := scalarResult_spec (countOperands s i) d k n x
      (by rw [hp.unit, landCyc_posted hp, hp.clash]; exact hc hg)
    rw [hp.unit, landCyc_posted hp, landingDue_posted hp, hp.dues] at h
    simp only [if_true, true_and]
    exact ⟨(hp.kept _).then h.1, h.2⟩

theorem kept_noteVreads (s : State) (g : Nat) (i : Instr) : KeptBut g id s (noteVreads s i) :=
  ⟨rfl, rfl, fun _ _ => rfl, rfl, fun _ => rfl⟩
@[simp] theorem dues_noteVreads (s : State) (i : Instr) : dues (noteVreads s i) = dues s := rfl

theorem farClash_vecReads (s : State) (i : Instr) (h : Bool) (a : RegField) (m : Md) (g c : Nat) (l : Landing) :
    farClash (vecReads s i h a m) g c l = farClash s g c l := by
  unfold vecReads
  rw [(posted_countOperands s i).rest]
  dsimp only
  split
  · exact farClash_rest _ _ _ g c l
  · exact farClash_rest _ _ _ g c l

/-- The reads of a vector slot make its capture due and nothing else. -/
theorem vecReads_spec (s : State) (i : Instr) (h : Bool) (a : RegField) (m : Md) :
    KeptBut s.cur.g id s (vecReads s i h a m) ∧ dues (vecReads s i h a m) =
      dues s ++ (if h = true ∧ guardMd s m = true then [performDue s (.capture (latchOf s) (vVal s a))] else []) := by
  have hp := posted_countOperands s i
  have hk := (hp.kept s.cur.g).then (kept_noteVreads (countOperands s i) s.cur.g i)
  have hd : dues (noteVreads (countOperands s i) i) = dues s := hp.dues
  have e : vecReads s i h a m = if h && guardMd s m then
      perform (noteVreads (countOperands s i) i) (.capture (latchOf s) (vVal s a)) else noteVreads (countOperands s i) i := by
    unfold vecReads
    rw [hp.rest]; rfl
  have hdue : performDue (noteVreads (countOperands s i) i) = performDue s := by
    funext x; unfold performDue noteVreads; rw [hp.rest]; rfl
  rw [e]
  cases hg : (h && guardMd s m) with
  | false =>
    have : ¬ (h = true ∧ guardMd s m = true) := by
      intro ⟨a, b⟩; rw [a, b] at hg; cases hg
    rw [if_neg this]
    exact ⟨hk, by simp [hd]⟩
  | true =>
    have : h = true ∧ guardMd s m = true := by simpa using hg
    rw [if_pos this, if_pos rfl, dues_perform _ _ rfl, hd, hdue]
    exact ⟨hk.then (kept_perform _ _ _), rfl⟩

/-- A guarded result: it lands, or nothing does. -/
theorem landGuarded_spec (s : State) (m : Md) (c k : Nat) (l : Landing)
    (hc : guardMd s m = true → landingClash s s.cur.g c l = false) :
    KeptBut s.cur.g id s (landGuarded s m c k l) ∧ dues (landGuarded s m c k l) =
      dues s ++ (if guardMd s m = true then [landingDue s c l] else []) := by
  unfold landGuarded
  cases hg : guardMd s m with
  | true => simpa using landResult_spec s c k l (hc hg)
  | false =>
    simp only [Bool.false_eq_true, if_false, List.append_nil]
    split
    · exact ⟨kept_reserve _ _ _ _ _ _, rfl⟩
    · exact ⟨.refl _ _, rfl⟩

theorem KeptBut.live (a : KeptBut g id s t) : (coreOf t g).live = (coreOf s g).live := by rw [a.core]; rfl

/-- A state that differs only in what a slot's issue notes reads registers and guards as before. -/
theorem KeptBut.sVal (a : KeptBut s.cur.g id s t) (r : RegField) : sVal t r = sVal s r := by
  have h1 : (coreOf t s.cur.g).vid = (coreOf s s.cur.g).vid := by rw [a.core]; rfl
  have h2 : (coreOf t s.cur.g).nvc = (coreOf s s.cur.g).nvc := by rw [a.core]; rfl
  unfold Machine.sVal sReg lcReg
  dsimp only
  rw [a.unit, a.cnow, a.live, h1, h2]

theorem KeptBut.guard (a : KeptBut s.cur.g id s t) (m : Md) : guardMd t m = guardMd s m := by
  cases m with
  | none => rfl
  | some m => unfold guardMd guardOf; dsimp only; rw [a.sVal]

/-- A vector operation with nothing wrong: its capture takes place and its result lands after its latency, or with a
false guard neither. -/
theorem vecOp_completes (i : Instr) (h : Bool) (a : RegField) (m : Md) (k n : Nat) (l : Landing) (s : State)
    (hf : vecFaults s i = []) (hl : landFaults s s.cur.g (landCyc s k n) l = [])
    (hc : guardMd s m = true → landingClash s s.cur.g (landCyc s k n) l = false) :
    ∃ t, vecOp i h a m k n l s = .next t ∧ KeptBut s.cur.g id s t ∧
      dues t = dues s ++ vecDues s h a m (landCyc s k n) l := by
  have hr := vecReads_spec s i h a m
  unfold vecOp
  dsimp only
  refine ⟨_, checked_ok (by rw [hf, hl]; rfl), ?_⟩
  have hg := hr.1.guard m
  have hclash : landingClash (vecReads s i h a m) s.cur.g (landCyc s k n) l = landingClash s s.cur.g (landCyc s k n) l := by
    rw [landingClash_dues, landingClash_dues, hr.2, List.any_append, farClash_vecReads]
    congr 1
    split
    · simp [performDue, lands]
    · simp
  have hw := landGuarded_spec (vecReads s i h a m) m (landCyc s k n) k l (by
    rw [hg, hr.1.unit, hclash]; exact hc)
  rw [hr.1.unit] at hw
  refine ⟨hr.1.then hw.1, ?_⟩
  rw [hw.2, hr.2, hg]
  have hd : landingDue (vecReads s i h a m) (landCyc s k n) l = landingDue s (landCyc s k n) l := by
    unfold landingDue; rw [hr.1.unit, hr.1.clk]
  rw [hd]
  unfold vecDues
  cases guardMd s m <;> cases h <;> simp

/-- A vector slot with a scalar destination. -/
theorem vecScalar_completes (i : Instr) (h : Bool) (a d : RegField) (m : Md) (k n : Nat) (x : Word) (s : State)
    (hf : vecFaults s i = []) (hl : d.toNat < 32 → landFaults s s.cur.g (landCyc s k n) (.sreg d.toNat x) = [])
    (hc : guardMd s m = true → d.toNat < 32 → landingClash s s.cur.g (landCyc s k n) (.sreg d.toNat x) = false) :
    ∃ t, vecScalar i h a d m k n x s = .next t ∧ KeptBut s.cur.g id s t ∧
      dues t = dues s ++ (if d.toNat < 32 then vecDues s h a m (landCyc s k n) (.sreg d.toNat x)
        else if h = true ∧ guardMd s m = true then [performDue s (.capture (latchOf s) (vVal s a))] else []) := by
  unfold vecScalar
  by_cases hd : d.toNat < 32
  · rw [if_pos hd, if_pos hd]
    exact vecOp_completes i h a m k n _ s hf (hl hd) (fun hg => hc hg hd)
  · rw [if_neg hd, if_neg hd]
    exact ⟨_, checked_ok hf, vecReads_spec s i h a m⟩

end Sys2Proof.Machine
end

