-- ==== Sys2Proof/Laws/Faults.lean ====
section
/-! SUPPORT. The faults of a cycle: which of them is the first, and what finding one does. -/

namespace Sys2Proof.Machine

variable {s t : State} {g : Nat}

/-! ### The first fault (R355) -/

/-- The fault `q` comes before `r` in the order of R355. -/
def Before (q r : FaultRec) : Prop :=
  faultRank q.cls < faultRank r.cls ∨ faultRank q.cls = faultRank r.cls ∧ q.slot < r.slot

theorem firstFault_none {fs : List FaultRec} : firstFault fs = none ↔ fs = [] := by
  cases fs with
  | nil => simp [firstFault]
  | cons r rs =>
    simp only [firstFault, reduceCtorEq, iff_false]
    split
    · simp
    · split <;> simp

/-- The first of the faults is one of them, and none of them comes before it. -/
theorem firstFault_spec {fs : List FaultRec} {r : FaultRec} (h : firstFault fs = some r) :
    r ∈ fs ∧ ∀ q ∈ fs, ¬ Before q r := by
  induction fs generalizing r with
  | nil => cases h
  | cons x fs ih =>
    have irr : ∀ y, ¬ Before y y := fun y => by unfold Before; omega
    unfold firstFault at h
    split at h
    · rename_i hn
      cases h
      rw [firstFault_none] at hn
      subst hn
      exact ⟨by simp, fun q hq => by rw [List.mem_singleton] at hq; subst hq; exact irr q⟩
    · rename_i y hy
      obtain ⟨hm, hl⟩ := ih hy
      split at h
      · rename_i hb
        cases h
        refine ⟨List.mem_cons_of_mem _ hm, fun q hq => ?_⟩
        rcases List.mem_cons.mp hq with rfl | hq
        · unfold Before; omega
        · exact hl q hq
      · rename_i hb
        cases h
        refine ⟨by simp, fun q hq => ?_⟩
        rcases List.mem_cons.mp hq with rfl | hq
        · exact irr q
        · have := hl q hq
          unfold Before at this ⊢
          omega

/-- An instruction with the faults found at its issue has its effect where there are none, and the core takes the first of
them where there are some. -/
theorem checked_cases {fs : List FaultRec} {act : State → State} (h : checked s fs act = .next t) :
    (fs = [] ∧ t = act s) ∨ ∃ r, firstFault fs = some r ∧ t = takeFault (noteFaults s fs) s.cur.g r := by
  unfold checked at h
  split at h
  · rename_i r hr; cases h; exact .inr ⟨r, hr, rfl⟩
  · rename_i hn; cases h; exact .inl ⟨firstFault_none.mp hn, rfl⟩

/-! ### Finding a fault away from an issue -/

theorem findFault_other {ph : Nat} {r : FaultRec} (h : takesLater (coreOf s g) = false) :
    findFault s g ph r = takeFault s g r := by
  unfold findFault
  rw [h]; rfl

/-- A fault that is found is noted at its core, which takes the first of them later in the cycle; nothing else changes. -/
theorem findFault_spec {ph : Nat} {r : FaultRec} (h : takesLater (coreOf s g) = true) :
    KeptBut g (fun c => { c with found := c.found ++ [r] }) s (findFault s g ph r) ∧
    ∃ d ∈ (findFault s g ph r).agenda, d.ev = .faults g ∧ d.clk = clkOf s g ∧ d.cyc = cnow s g ∧ d.ph = ph * 65536 + 0xFFFF := by
  unfold findFault
  dsimp only
  rw [if_pos h]
  split
  · rename_i ha
    refine ⟨kept_modCore _ _ _, ?_⟩
    obtain ⟨d, hd, hp⟩ := List.any_eq_true.mp ha
    simp only [Bool.and_eq_true, decide_eq_true_eq] at hp
    exact ⟨d, hd, hp.1.1.1, hp.1.1.2, hp.1.2, hp.2⟩
  · refine ⟨(kept_postSub s g _ _ _ _ _ _).after (fun _ _ _ => rfl) (kept_modCore _ _ _), ?_⟩
    rw [modCore_agenda, postSub_agenda]
    exact ⟨_, List.mem_append_right _ (List.mem_singleton.mpr rfl), rfl, rfl, rfl, rfl⟩

/-- What a fault found at a running core gives. -/
theorem findFault_finds {ph : Nat} {r : FaultRec} {ok : FaultRec → Prop} (h : (coreOf s g).run = .running) (hr : ok r) :
    Finds s (findFault s g ph r) g ph ok := by
  obtain ⟨k, d, hd, he, hc, hy, hp⟩ := findFault_spec (ph := ph) (r := r) (by unfold takesLater; rw [h] : takesLater (coreOf s g) = true)
  exact ⟨r, hr, by rw [k.core], by rw [k.core], d, hd, hc, hy, hp, he⟩

/-! ### Small updates of a core -/

@[simp] theorem newUnit_core (s : State) (g t : Nat) : coreOf (newUnit s g t) g = { coreOf s g with unitFrom := 16 * t } := by
  unfold newUnit; rw [coreOf_modCore_self]
theorem kept_newUnit (s : State) (g t : Nat) : KeptBut g (fun c => { c with unitFrom := 16 * t }) s (newUnit s g t) :=
  kept_modCore s g _

/-- Where results or status words land with another in one register, only the values that they will land change. -/
theorem kept_freeFar (s : State) (g c : Nat) (l : Landing) : KeptBut g (fun k => { k with
    waits := k.waits.map (fun w => if farResult c l w then (w.1, w.2.1, w.2.2.1, w.2.2.2 % 128 + 128) else w)
    draining := k.draining.map (fun d => if farStatus s g c l d then (d.1, d.2.1, d.2.2.1 % 128 + 128, d.2.2.2) else d) })
    s (freeFar s g c l) := kept_modCore s g _

/-- Clearing MST writes the directory of its core and counts the entries it corrects. -/
theorem kept_clearMstNow (s : State) (g : Nat) (es : List Nat) :
    KeptBut g (fun c => clearMst c es) s (clearMstNow s g es) :=
  (kept_modCore s g _).then ((posted_foldl (fun s _ => posted_postError s _ _ _ _ _) _ _).kept g)

end Sys2Proof.Machine
end

