-- ==== Sys2Proof/Laws/Inv.lean ====
section
/-! SUPPORT. The invariant under the plainest updates: a state keeps it when its memory is one that has it. -/

namespace Sys2Proof.Machine

/-- Whatever state an outcome goes on to keeps the invariant. -/
def Good (o : Host.Outcome State Fault Refusal) : Prop := ∀ t, o = .next t → Inv t

theorem good_next {s : State} (h : Inv s) : Good (.next s) := by
  intro t e; cases e; exact h
theorem good_fault (r : Fault) : Good (.fault r) := by intro t e; cases e
theorem good_refused (r : Refusal) : Good (.refused r) := by intro t e; cases e

theorem inv_mk {a1 m a3 a4 a5 a6 a7 a8 a9 a10 a11 a12 a13 a14 a15 a16 a17 a18 a19 a20 a21 a22 a23 a24 a25}
    (h : Memory.wf m) :
    Inv ⟨a1, m, a3, a4, a5, a6, a7, a8, a9, a10, a11, a12, a13, a14, a15, a16, a17, a18, a19, a20, a21, a22, a23, a24, a25⟩ := h

theorem inv_foldl {β : Type} {f : State → β → State} {l : List β} {s : State}
    (hf : ∀ s x, Inv s → Inv (f s x)) (h : Inv s) : Inv (l.foldl f s) := by
  induction l generalizing s with
  | nil => exact h
  | cons x l ih => exact ih (hf s x h)

theorem inv_foldl1 {β γ : Type} {f : State × γ → β → State × γ} {l : List β} {q : State × γ}
    (hf : ∀ q x, Inv q.1 → Inv (f q x).1) (h : Inv q.1) : Inv (l.foldl f q).1 := by
  induction l generalizing q with
  | nil => exact h
  | cons x l ih => exact ih (hf q x h)

theorem memWrite_inv (s : State) (ws : List (Nat × Byte)) (h : Inv s) : Inv (memWrite s ws) := tabWf_setAll _ ws h

theorem inv_ite {c : Prop} [Decidable c] {a b : State} (ha : Inv a) (hb : Inv b) : Inv (if c then a else b) := by
  split <;> assumption

end Sys2Proof.Machine
end

