-- ==== Sys2Proof/Laws/InvOps.lean ====
section
/-! SUPPORT. Memory keeps its canonical form: the shared operations. -/

namespace Sys2Proof.Machine

theorem setPkg_inv (x0 : State) (x1 : Nat) (x2 : Pkg) (h0 : Inv x0) :
    Inv (setPkg x0 x1 x2) := by
  unfold setPkg
  repeat' first
    | with_reducible assumption

theorem setCore_inv (x0 : State) (x1 : Nat) (x2 : Core) (h0 : Inv x0) :
    Inv (setCore x0 x1 x2) := by
  unfold setCore
  repeat' first
    | with_reducible assumption

theorem modCore_inv (x0 : State) (x1 : Nat) (x2 : Core → Core) (h0 : Inv x0) :
    Inv (modCore x0 x1 x2) := by
  unfold modCore
  repeat' first
    | with_reducible assumption | with_reducible intro _ | with_reducible apply setCore_inv

theorem setPart_inv (x0 : State) (x1 : Nat) (x2 : Part) (h0 : Inv x0) :
    Inv (setPart x0 x1 x2) := by
  unfold setPart
  repeat' first
    | with_reducible assumption

theorem modPart_inv (x0 : State) (x1 : Nat) (x2 : Part → Part) (h0 : Inv x0) :
    Inv (modPart x0 x1 x2) := by
  unfold modPart
  repeat' first
    | with_reducible assumption | with_reducible intro _ | with_reducible apply setPart_inv

theorem modPkg_inv (x0 : State) (x1 : Nat) (x2 : Pkg → Pkg) (h0 : Inv x0) :
    Inv (modPkg x0 x1 x2) := by
  unfold modPkg
  repeat' first
    | with_reducible assumption | with_reducible intro _ | with_reducible apply setPkg_inv

theorem postSub_inv (x0 : State) (x1 : Option Nat) (x2 : Nat) (x3 : Nat) (x4 : Nat) (x5 : Option Src) (x6 : Ev) (h0 : Inv x0) :
    Inv (postSub x0 x1 x2 x3 x4 x5 x6) := by
  unfold postSub
  repeat' first
    | with_reducible assumption

theorem post_inv (x0 : State) (x1 : Option Nat) (x2 : Nat) (x3 : Nat) (x4 : Option Src) (x5 : Ev) (h0 : Inv x0) :
    Inv (post x0 x1 x2 x3 x4 x5) := by
  unfold post
  repeat' first
    | with_reducible assumption | with_reducible intro _ | with_reducible apply postSub_inv

theorem postAt_inv (x0 : State) (x1 : Nat) (x2 : Nat) (x3 : Nat) (x4 : Option Src) (x5 : Ev) (h0 : Inv x0) :
    Inv (postAt x0 x1 x2 x3 x4 x5) := by
  unfold postAt
  repeat' first
    | with_reducible assumption | with_reducible intro _ | with_reducible apply post_inv

theorem noteLand_inv (x0 : State) (x1 : Nat) (x2 : Nat) (x3 : Nat) (x4 : Bool) (h0 : Inv x0) :
    Inv (noteLand x0 x1 x2 x3 x4) := by
  unfold noteLand
  repeat' first
    | with_reducible assumption | with_reducible intro _ | with_reducible apply modCore_inv

theorem freeWord_inv (x0 : State) (h0 : Inv x0) :
    Inv (freeWord x0).2 := by
  unfold freeWord
  repeat' first
    | with_reducible assumption

theorem freeVec_inv (x0 : State) (h0 : Inv x0) :
    Inv (freeVec x0).2 := by
  unfold freeVec
  repeat' first
    | with_reducible assumption

theorem freeLanding_inv (x0 : State) (x1 : Landing) (h0 : Inv x0) :
    Inv (freeLanding x0 x1).2 := by
  unfold freeLanding
  repeat' first
    | with_reducible assumption | with_reducible intro _ | with_reducible apply freeVec_inv
    | with_reducible apply freeWord_inv | with_reducible apply inv_foldl | with_reducible apply inv_foldl1
    | dsimp only | split

theorem freeFar_inv (x0 : State) (x1 : Nat) (x2 : Nat) (x3 : Landing) (h0 : Inv x0) :
    Inv (freeFar x0 x1 x2 x3) := by
  unfold freeFar
  repeat' first
    | with_reducible assumption | with_reducible intro _ | with_reducible apply modCore_inv
    | with_reducible apply inv_foldl | with_reducible apply inv_foldl1 | dsimp only | split

theorem land_inv (x0 : State) (x1 : Nat) (x2 : Nat) (x3 : Option Src) (x4 : Landing) (h0 : Inv x0) :
    Inv (land x0 x1 x2 x3 x4) := by
  unfold land
  repeat' first
    | with_reducible assumption | with_reducible intro _ | with_reducible apply postAt_inv
    | with_reducible apply noteLand_inv | with_reducible apply freeFar_inv | with_reducible apply freeLanding_inv
    | with_reducible apply inv_foldl | with_reducible apply inv_foldl1 | dsimp only | split

theorem countError_inv (x0 : State) (x1 : Nat) (x2 : Nat) (x3 : Nat) (x4 : Nat) (x5 : Nat) (h0 : Inv x0) :
    Inv (countError x0 x1 x2 x3 x4 x5) := by
  unfold countError
  repeat' first
    | with_reducible assumption | with_reducible intro _ | with_reducible apply modCore_inv

theorem postError_inv (x0 : State) (x1 : Nat) (x2 : Nat) (x3 : Nat) (x4 : Nat) (x5 : Nat) (h0 : Inv x0) :
    Inv (postError x0 x1 x2 x3 x4 x5) := by
  unfold postError
  repeat' first
    | with_reducible assumption | with_reducible intro _ | with_reducible apply postAt_inv
    | with_reducible apply inv_foldl | with_reducible apply inv_foldl1 | dsimp only | split

theorem memPut_inv (x0 : State) (x1 : Nat) (x2 : List Byte) (h0 : Inv x0) :
    Inv (memPut x0 x1 x2) := by
  unfold memPut
  repeat' first
    | with_reducible assumption | with_reducible intro _ | with_reducible apply memWrite_inv

theorem setTag_inv (x0 : State) (x1 : Nat) (x2 : Nat) (h0 : Inv x0) :
    Inv (setTag x0 x1 x2) := by
  unfold setTag
  repeat' first
    | with_reducible assumption

theorem poisonTag_inv (x0 : State) (x1 : Nat) (h0 : Inv x0) :
    Inv (poisonTag x0 x1) := by
  unfold poisonTag
  repeat' first
    | with_reducible assumption

theorem setBad_inv (x0 : State) (x1 : Nat) (x2 : Nat) (h0 : Inv x0) :
    Inv (setBad x0 x1 x2) := by
  unfold setBad
  repeat' first
    | with_reducible assumption

theorem wordWritten_inv (x0 : Bool) (x1 : Bool) (x2 : Nat) (x3 : State) (x4 : Nat) (h3 : Inv x3) :
    Inv (wordWritten x0 x1 x2 x3 x4) := by
  unfold wordWritten
  repeat' first
    | with_reducible assumption | with_reducible intro _ | with_reducible apply setBad_inv
    | with_reducible apply memPut_inv | with_reducible apply postError_inv
    | with_reducible apply setCore_inv | dsimp only | split

theorem clearMstNow_inv (x0 : State) (x1 : Nat) (x2 : List Nat) (h0 : Inv x0) :
    Inv (clearMstNow x0 x1 x2) := by
  unfold clearMstNow
  repeat' first
    | with_reducible assumption | with_reducible intro _ | with_reducible apply modCore_inv
    | with_reducible apply postError_inv | with_reducible apply inv_foldl | with_reducible apply inv_foldl1
    | dsimp only | split

theorem meetRegions_inv (x0 : State) (x1 : Nat) (x2 : List Nat) (x3 : Option Nat) (x4 : Bool) (h0 : Inv x0) :
    Inv (meetRegions x0 x1 x2 x3 x4) := by
  unfold meetRegions
  repeat' first
    | with_reducible assumption | with_reducible intro _ | with_reducible apply clearMstNow_inv
    | with_reducible apply postAt_inv | with_reducible apply modCore_inv | with_reducible apply inv_foldl
    | with_reducible apply inv_foldl1 | dsimp only | split

theorem setRdv_inv (x0 : State) (x1 : Rdv) (h0 : Inv x0) :
    Inv (setRdv x0 x1) := by
  unfold setRdv
  repeat' first
    | with_reducible assumption

theorem rdvTry_inv (x0 : State) (x1 : Nat) (h0 : Inv x0) :
    Inv (rdvTry x0 x1) := by
  unfold rdvTry
  repeat' first
    | with_reducible assumption | with_reducible intro _ | with_reducible apply setRdv_inv
    | with_reducible apply post_inv | dsimp only | split

theorem commitCheck_inv (x0 : State) (x1 : Nat) (h0 : Inv x0) :
    Inv (commitCheck x0 x1) := by
  unfold commitCheck
  repeat' first
    | with_reducible assumption | with_reducible intro _ | with_reducible apply rdvTry_inv
    | with_reducible apply setRdv_inv | with_reducible apply inv_foldl | with_reducible apply inv_foldl1
    | dsimp only | split

theorem barrierCheck_inv (x0 : State) (x1 : Nat) (x2 : Nat) (x3 : List Nat) (h0 : Inv x0) :
    Inv (barrierCheck x0 x1 x2 x3) := by
  unfold barrierCheck
  repeat' first
    | with_reducible assumption | with_reducible intro _ | with_reducible apply rdvTry_inv
    | with_reducible apply setRdv_inv | with_reducible apply inv_foldl

theorem dropWritebacks_inv (x0 : State) (x1 : Nat) (x2 : List Nat) (h0 : Inv x0) :
    Inv (dropWritebacks x0 x1 x2) := by
  unfold dropWritebacks
  repeat' first
    | with_reducible assumption

theorem writeSliceAs_inv (x0 : Bool) (x1 : State) (x2 : Nat) (x3 : List (Nat × Byte)) (x4 : Nat) (x5 : Bool) (x6 : Option Nat) (x7 : Nat) (h1 : Inv x1) :
    Inv (writeSliceAs x0 x1 x2 x3 x4 x5 x6 x7) := by
  unfold writeSliceAs
  repeat' first
    | with_reducible assumption | with_reducible intro _ | with_reducible apply dropWritebacks_inv
    | with_reducible apply barrierCheck_inv | with_reducible apply meetRegions_inv
    | with_reducible apply wordWritten_inv | with_reducible apply setTag_inv
    | with_reducible apply memWrite_inv | with_reducible apply inv_foldl
    | with_reducible apply inv_foldl1 | dsimp only | split

theorem writeSlice_inv (x0 : State) (x1 : Nat) (x2 : List (Nat × Byte)) (x3 : Nat) (x4 : Bool) (x5 : Option Nat) (x6 : Nat) (h0 : Inv x0) :
    Inv (writeSlice x0 x1 x2 x3 x4 x5 x6) := by
  unfold writeSlice
  repeat' first
    | with_reducible assumption | with_reducible intro _ | with_reducible apply writeSliceAs_inv

theorem countWords_inv (x0 : State) (x1 : Nat) (x2 : Nat) (x3 : List (Nat × Bool)) (h0 : Inv x0) :
    Inv (countWords x0 x1 x2 x3) := by
  unfold countWords
  repeat' first
    | with_reducible assumption | with_reducible intro _ | with_reducible apply postError_inv
    | with_reducible apply inv_foldl

theorem countCopy_inv (x0 : State) (x1 : Nat) (x2 : List Nat) (h0 : Inv x0) :
    Inv (countCopy x0 x1 x2) := countWords_inv _ _ _ _ (countWords_inv _ _ _ _ h0)

theorem countReads_inv (x0 : State) (x1 : Nat) (x2 : Nat) (x3 : List Nat) (h0 : Inv x0) :
    Inv (countReads x0 x1 x2 x3) := by
  unfold countReads
  repeat' first
    | with_reducible assumption | with_reducible intro _ | with_reducible apply postError_inv
    | with_reducible apply inv_foldl

theorem countLoad_inv (x0 : State) (x1 : Nat) (x2 : List Nat) (h0 : Inv x0) :
    Inv (countLoad x0 x1 x2) := by
  unfold countLoad
  repeat' first
    | with_reducible assumption | with_reducible intro _ | with_reducible apply countReads_inv

theorem decideFreezeAt_inv (x0 : State) (x1 : Nat) (x2 : Nat) (x3 : Nat) (h0 : Inv x0) :
    Inv (decideFreezeAt x0 x1 x2 x3) := by
  unfold decideFreezeAt
  repeat' first
    | with_reducible assumption | with_reducible intro _ | with_reducible apply setPart_inv
    | with_reducible apply postSub_inv | with_reducible apply inv_foldl | with_reducible apply inv_foldl1 | dsimp only
    | split

theorem decideFreeze_inv (x0 : State) (x1 : Nat) (x2 : Nat) (x3 : Nat) (h0 : Inv x0) :
    Inv (decideFreeze x0 x1 x2 x3) := by
  unfold decideFreeze
  repeat' first
    | with_reducible assumption | with_reducible intro _ | with_reducible apply decideFreezeAt_inv
    | with_reducible apply post_inv | with_reducible apply inv_foldl | dsimp only | split

theorem postResume_inv (x0 : State) (x1 : Nat) (h0 : Inv x0) :
    Inv (postResume x0 x1) := by
  unfold postResume
  repeat' first
    | with_reducible assumption | with_reducible intro _ | with_reducible apply post_inv
    | with_reducible apply modPart_inv | dsimp only | split

theorem clearReasonAt_inv (x0 : State) (x1 : Nat) (x2 : Nat) (h0 : Inv x0) :
    Inv (clearReasonAt x0 x1 x2) := by
  unfold clearReasonAt
  repeat' first
    | with_reducible assumption | with_reducible intro _ | with_reducible apply postResume_inv
    | with_reducible apply modPart_inv | with_reducible apply setPart_inv | with_reducible apply inv_foldl
    | with_reducible apply inv_foldl1 | dsimp only | split

theorem clearReason_inv (x0 : State) (x1 : Nat) (x2 : Nat) (h0 : Inv x0) :
    Inv (clearReason x0 x1 x2) := by
  unfold clearReason
  repeat' first
    | with_reducible assumption | with_reducible intro _ | with_reducible apply clearReasonAt_inv
    | with_reducible apply inv_foldl | dsimp only | split

theorem recordAt_inv (x0 : State) (x1 : Nat) (x2 : Peer) (h0 : Inv x0) :
    Inv (recordAt x0 x1 x2) := by
  unfold recordAt
  repeat' first
    | with_reducible assumption | with_reducible intro _ | with_reducible apply post_inv
    | with_reducible apply setPart_inv | dsimp only | split

theorem recordPeer_inv (x0 : State) (x1 : Nat) (x2 : Peer) (h0 : Inv x0) :
    Inv (recordPeer x0 x1 x2) := by
  unfold recordPeer
  repeat' first
    | with_reducible assumption | with_reducible intro _ | with_reducible apply recordAt_inv
    | with_reducible apply inv_foldl

theorem freezeFailed_inv (x0 : State) (x1 : Nat) (h0 : Inv x0) :
    Inv (freezeFailed x0 x1) := by
  unfold freezeFailed
  repeat' first
    | with_reducible assumption | with_reducible intro _ | with_reducible apply decideFreeze_inv
    | with_reducible apply inv_foldl

theorem launchFlit_inv (x0 : State) (x1 : Flit) (h0 : Inv x0) :
    Inv (launchFlit x0 x1) := by
  unfold launchFlit
  repeat' first
    | with_reducible assumption | with_reducible intro _ | with_reducible apply postAt_inv

theorem discardPass_inv (x0 : State) (x1 : Nat) (x2 : Nat) (h0 : Inv x0) :
    Inv (discardPass x0 x1 x2) := by
  unfold discardPass
  repeat' first
    | with_reducible assumption | with_reducible intro _ | with_reducible apply modCore_inv | dsimp only
    | split

theorem withdraw_inv (x0 : State) (x1 : Nat) (h0 : Inv x0) :
    Inv (withdraw x0 x1) := by
  unfold withdraw
  repeat' first
    | with_reducible assumption | with_reducible intro _ | with_reducible apply modPart_inv | dsimp only
    | split

theorem stopCore_inv (x0 : State) (x1 : Nat) (h0 : Inv x0) :
    Inv (stopCore x0 x1) := by
  unfold stopCore
  repeat' first
    | with_reducible assumption | with_reducible intro _ | with_reducible apply freezeFailed_inv
    | with_reducible apply recordPeer_inv | with_reducible apply modCore_inv | dsimp only | split

theorem rollback_inv (x0 : State) (x1 : Nat) (x2 : Nat) (x3 : FaultRec) (h0 : Inv x0) :
    Inv (rollback x0 x1 x2 x3) := by
  unfold rollback
  repeat' first
    | with_reducible assumption | with_reducible intro _ | with_reducible apply stopCore_inv
    | with_reducible apply withdraw_inv | with_reducible apply discardPass_inv
    | with_reducible apply launchFlit_inv | with_reducible apply postAt_inv
    | with_reducible apply modCore_inv | with_reducible apply inv_foldl | dsimp only | split

theorem mergeFault_inv (x0 : State) (x1 : Nat) (x2 : Roll) (x3 : FaultRec) (h0 : Inv x0) :
    Inv (mergeFault x0 x1 x2 x3) := by
  unfold mergeFault
  repeat' first
    | with_reducible assumption | with_reducible intro _ | with_reducible apply modCore_inv
    | with_reducible apply inv_foldl | with_reducible apply inv_foldl1 | dsimp only | split

theorem countUncorr_inv (x0 : State) (x1 : Nat) (x2 : FaultRec) (h0 : Inv x0) :
    Inv (countUncorr x0 x1 x2) := by
  unfold countUncorr
  repeat' first
    | with_reducible assumption | with_reducible intro _ | with_reducible apply postError_inv
    | with_reducible apply inv_foldl | with_reducible apply inv_foldl1 | dsimp only | split

theorem holdFault_inv (x0 : State) (x1 : Nat) (x2 : FaultRec) (h0 : Inv x0) :
    Inv (holdFault x0 x1 x2) := by
  unfold holdFault
  repeat' first
    | with_reducible assumption | with_reducible intro _ | with_reducible apply modCore_inv

theorem takeFault_inv (x0 : State) (x1 : Nat) (x2 : FaultRec) (h0 : Inv x0) :
    Inv (takeFault x0 x1 x2) := by
  unfold takeFault
  repeat' first
    | with_reducible assumption | with_reducible intro _ | with_reducible apply holdFault_inv
    | with_reducible apply countUncorr_inv | with_reducible apply mergeFault_inv
    | with_reducible apply rollback_inv | with_reducible apply inv_foldl | with_reducible apply inv_foldl1
    | dsimp only | split

theorem noteFaults_inv (x0 : State) (x1 : List FaultRec) (h0 : Inv x0) :
    Inv (noteFaults x0 x1) := by
  unfold noteFaults
  repeat' first
    | with_reducible assumption

theorem checked_inv (s : State) (fs : List FaultRec) (act : State → State) (hs : Inv s)
    (ha : ∀ s, Inv s → Inv (act s)) : Good (checked s fs act) := by
  unfold checked
  split
  · exact good_next (takeFault_inv _ _ _ (noteFaults_inv _ _ hs))
  · exact good_next (ha s hs)

theorem takeCmd_inv (x0 : State) (h0 : Inv x0) :
    Inv (takeCmd x0) := by
  unfold takeCmd
  repeat' first
    | with_reducible assumption | with_reducible intro _ | with_reducible apply modCore_inv

theorem countOperands_inv (x0 : State) (x1 : Instr) (h0 : Inv x0) :
    Inv (countOperands x0 x1) := by
  unfold countOperands
  repeat' first
    | with_reducible assumption | with_reducible intro _ | with_reducible apply postError_inv
    | with_reducible apply inv_foldl | with_reducible apply inv_foldl1

theorem reserve_inv (x0 : State) (x1 : Nat) (x2 : Nat) (x3 : Nat) (x4 : Nat) (x5 : Nat) (h0 : Inv x0) :
    Inv (reserve x0 x1 x2 x3 x4 x5) := by
  unfold reserve
  repeat' first
    | with_reducible assumption | with_reducible intro _ | with_reducible apply modCore_inv

theorem noteVreads_inv (x0 : State) (x1 : Instr) (h0 : Inv x0) :
    Inv (noteVreads x0 x1) := by
  unfold noteVreads
  repeat' first
    | with_reducible assumption

theorem landResult_inv (x0 : State) (x1 : Nat) (x2 : Nat) (x3 : Landing) (h0 : Inv x0) :
    Inv (landResult x0 x1 x2 x3) := by
  unfold landResult
  repeat' first
    | with_reducible assumption | with_reducible intro _ | with_reducible apply reserve_inv
    | with_reducible apply land_inv | dsimp only | split

theorem scalarResult_inv (x0 : State) (x1 : RegField) (x2 : Nat) (x3 : Nat) (x4 : Word) (h0 : Inv x0) :
    Inv (scalarResult x0 x1 x2 x3 x4) := by
  unfold scalarResult
  repeat' first
    | with_reducible assumption | with_reducible intro _ | with_reducible apply landResult_inv
    | with_reducible apply inv_foldl | with_reducible apply inv_foldl1 | dsimp only | split

theorem reserveRead_inv (x0 : State) (x1 : Nat) (x2 : List Nat) (x3 : Nat) (h0 : Inv x0) :
    Inv (reserveRead x0 x1 x2 x3) := by
  unfold reserveRead
  repeat' first
    | with_reducible assumption | with_reducible intro _ | with_reducible apply reserve_inv
    | with_reducible apply inv_foldl

theorem reserveWrite_inv (x0 : State) (x1 : Nat) (x2 : List Nat) (x3 : Nat) (h0 : Inv x0) :
    Inv (reserveWrite x0 x1 x2 x3) := by
  unfold reserveWrite
  repeat' first
    | with_reducible assumption | with_reducible intro _ | with_reducible apply reserve_inv
    | with_reducible apply inv_foldl

theorem countLines_inv (x0 : State) (x1 : List Nat) (h0 : Inv x0) :
    Inv (countLines x0 x1) := by
  unfold countLines
  repeat' first
    | with_reducible assumption | with_reducible intro _ | with_reducible apply modCore_inv

theorem logLine_inv (x0 : State) (x1 : Nat) (x2 : Nat) (h0 : Inv x0) :
    Inv (logLine x0 x1 x2) := by
  unfold logLine
  repeat' first
    | with_reducible assumption | with_reducible intro _ | with_reducible apply countCopy_inv
    | with_reducible apply setCore_inv | dsimp only | split

theorem storeNow_inv (x0 : State) (x1 : Nat) (x2 : List (Nat × Byte)) (x3 : Bool) (h0 : Inv x0) :
    Inv (storeNow x0 x1 x2 x3) := by
  unfold storeNow
  repeat' first
    | with_reducible assumption | with_reducible intro _ | with_reducible apply logLine_inv
    | with_reducible apply writeSlice_inv | with_reducible apply inv_foldl

theorem perform_inv (x0 : State) (x1 : Perf) (h0 : Inv x0) :
    Inv (perform x0 x1) := by
  unfold perform
  repeat' first
    | with_reducible assumption | with_reducible intro _ | with_reducible apply postAt_inv

theorem findFault_inv (x0 : State) (x1 : Nat) (x2 : Nat) (x3 : FaultRec) (h0 : Inv x0) :
    Inv (findFault x0 x1 x2 x3) := by
  unfold findFault
  repeat' first
    | with_reducible assumption | with_reducible intro _ | with_reducible apply takeFault_inv
    | with_reducible apply modCore_inv | with_reducible apply postSub_inv | with_reducible apply inv_foldl
    | with_reducible apply inv_foldl1 | dsimp only | split

end Sys2Proof.Machine
end

