-- ==== Sys2Proof/Laws/InvScalar.lean ====
section
/-! SUPPORT. Memory keeps its canonical form: the scalar, control and system instructions. -/

namespace Sys2Proof.Machine

theorem scalarOp_inv (x0 : Instr) (x1 : RegField) (x2 : Md) (x3 : Nat) (x4 : Nat) (x5 : Word) (x6 : State) (h6 : Inv x6) :
    Good (scalarOp x0 x1 x2 x3 x4 x5 x6) := by
  unfold scalarOp
  repeat' first
    | with_reducible assumption | with_reducible intro _ | with_reducible apply scalarResult_inv
    | with_reducible apply countOperands_inv | with_reducible apply checked_inv | exact good_fault _
    | exact good_refused _ | with_reducible apply good_next | with_reducible apply inv_foldl
    | with_reducible apply inv_foldl1 | dsimp only | split

theorem execAdd_inv (x0 : RegField) (x1 : RegField) (x2 : RegField) (x3 : Md) (x4 : State) (h4 : Inv x4) :
    Good (execAdd x0 x1 x2 x3 x4) := by
  unfold execAdd
  repeat' first
    | with_reducible assumption | with_reducible intro _ | with_reducible apply scalarOp_inv

theorem execSub_inv (x0 : RegField) (x1 : RegField) (x2 : RegField) (x3 : Md) (x4 : State) (h4 : Inv x4) :
    Good (execSub x0 x1 x2 x3 x4) := by
  unfold execSub
  repeat' first
    | with_reducible assumption | with_reducible intro _ | with_reducible apply scalarOp_inv

theorem execMul_inv (x0 : RegField) (x1 : RegField) (x2 : RegField) (x3 : Md) (x4 : State) (h4 : Inv x4) :
    Good (execMul x0 x1 x2 x3 x4) := by
  unfold execMul
  repeat' first
    | with_reducible assumption | with_reducible intro _ | with_reducible apply scalarOp_inv

theorem execMulh_inv (x0 : RegField) (x1 : RegField) (x2 : RegField) (x3 : Md) (x4 : State) (h4 : Inv x4) :
    Good (execMulh x0 x1 x2 x3 x4) := by
  unfold execMulh
  repeat' first
    | with_reducible assumption | with_reducible intro _ | with_reducible apply scalarOp_inv

theorem execMulhn_inv (x0 : RegField) (x1 : RegField) (x2 : RegField) (x3 : Md) (x4 : State) (h4 : Inv x4) :
    Good (execMulhn x0 x1 x2 x3 x4) := by
  unfold execMulhn
  repeat' first
    | with_reducible assumption | with_reducible intro _ | with_reducible apply scalarOp_inv

theorem execDiv_inv (x0 : RegField) (x1 : RegField) (x2 : RegField) (x3 : Md) (x4 : State) (h4 : Inv x4) :
    Good (execDiv x0 x1 x2 x3 x4) := by
  unfold execDiv
  repeat' first
    | with_reducible assumption | with_reducible intro _ | with_reducible apply scalarOp_inv

theorem execDivn_inv (x0 : RegField) (x1 : RegField) (x2 : RegField) (x3 : Md) (x4 : State) (h4 : Inv x4) :
    Good (execDivn x0 x1 x2 x3 x4) := by
  unfold execDivn
  repeat' first
    | with_reducible assumption | with_reducible intro _ | with_reducible apply scalarOp_inv

theorem execRem_inv (x0 : RegField) (x1 : RegField) (x2 : RegField) (x3 : Md) (x4 : State) (h4 : Inv x4) :
    Good (execRem x0 x1 x2 x3 x4) := by
  unfold execRem
  repeat' first
    | with_reducible assumption | with_reducible intro _ | with_reducible apply scalarOp_inv

theorem execRemn_inv (x0 : RegField) (x1 : RegField) (x2 : RegField) (x3 : Md) (x4 : State) (h4 : Inv x4) :
    Good (execRemn x0 x1 x2 x3 x4) := by
  unfold execRemn
  repeat' first
    | with_reducible assumption | with_reducible intro _ | with_reducible apply scalarOp_inv

theorem execMinS_inv (x0 : RegField) (x1 : RegField) (x2 : RegField) (x3 : Md) (x4 : State) (h4 : Inv x4) :
    Good (execMinS x0 x1 x2 x3 x4) := by
  unfold execMinS
  repeat' first
    | with_reducible assumption | with_reducible intro _ | with_reducible apply scalarOp_inv

theorem execMinn_inv (x0 : RegField) (x1 : RegField) (x2 : RegField) (x3 : Md) (x4 : State) (h4 : Inv x4) :
    Good (execMinn x0 x1 x2 x3 x4) := by
  unfold execMinn
  repeat' first
    | with_reducible assumption | with_reducible intro _ | with_reducible apply scalarOp_inv

theorem execMaxS_inv (x0 : RegField) (x1 : RegField) (x2 : RegField) (x3 : Md) (x4 : State) (h4 : Inv x4) :
    Good (execMaxS x0 x1 x2 x3 x4) := by
  unfold execMaxS
  repeat' first
    | with_reducible assumption | with_reducible intro _ | with_reducible apply scalarOp_inv

theorem execMaxn_inv (x0 : RegField) (x1 : RegField) (x2 : RegField) (x3 : Md) (x4 : State) (h4 : Inv x4) :
    Good (execMaxn x0 x1 x2 x3 x4) := by
  unfold execMaxn
  repeat' first
    | with_reducible assumption | with_reducible intro _ | with_reducible apply scalarOp_inv

theorem execSlt_inv (x0 : RegField) (x1 : RegField) (x2 : RegField) (x3 : Md) (x4 : State) (h4 : Inv x4) :
    Good (execSlt x0 x1 x2 x3 x4) := by
  unfold execSlt
  repeat' first
    | with_reducible assumption | with_reducible intro _ | with_reducible apply scalarOp_inv

theorem execSltn_inv (x0 : RegField) (x1 : RegField) (x2 : RegField) (x3 : Md) (x4 : State) (h4 : Inv x4) :
    Good (execSltn x0 x1 x2 x3 x4) := by
  unfold execSltn
  repeat' first
    | with_reducible assumption | with_reducible intro _ | with_reducible apply scalarOp_inv

theorem execSeq_inv (x0 : RegField) (x1 : RegField) (x2 : RegField) (x3 : Md) (x4 : State) (h4 : Inv x4) :
    Good (execSeq x0 x1 x2 x3 x4) := by
  unfold execSeq
  repeat' first
    | with_reducible assumption | with_reducible intro _ | with_reducible apply scalarOp_inv

theorem execAndS_inv (x0 : RegField) (x1 : RegField) (x2 : RegField) (x3 : Md) (x4 : State) (h4 : Inv x4) :
    Good (execAndS x0 x1 x2 x3 x4) := by
  unfold execAndS
  repeat' first
    | with_reducible assumption | with_reducible intro _ | with_reducible apply scalarOp_inv

theorem execOrS_inv (x0 : RegField) (x1 : RegField) (x2 : RegField) (x3 : Md) (x4 : State) (h4 : Inv x4) :
    Good (execOrS x0 x1 x2 x3 x4) := by
  unfold execOrS
  repeat' first
    | with_reducible assumption | with_reducible intro _ | with_reducible apply scalarOp_inv

theorem execXorS_inv (x0 : RegField) (x1 : RegField) (x2 : RegField) (x3 : Md) (x4 : State) (h4 : Inv x4) :
    Good (execXorS x0 x1 x2 x3 x4) := by
  unfold execXorS
  repeat' first
    | with_reducible assumption | with_reducible intro _ | with_reducible apply scalarOp_inv

theorem execAndn_inv (x0 : RegField) (x1 : RegField) (x2 : RegField) (x3 : Md) (x4 : State) (h4 : Inv x4) :
    Good (execAndn x0 x1 x2 x3 x4) := by
  unfold execAndn
  repeat' first
    | with_reducible assumption | with_reducible intro _ | with_reducible apply scalarOp_inv

theorem execShl_inv (x0 : RegField) (x1 : RegField) (x2 : RegField) (x3 : Md) (x4 : State) (h4 : Inv x4) :
    Good (execShl x0 x1 x2 x3 x4) := by
  unfold execShl
  repeat' first
    | with_reducible assumption | with_reducible intro _ | with_reducible apply scalarOp_inv

theorem execShr_inv (x0 : RegField) (x1 : RegField) (x2 : RegField) (x3 : Md) (x4 : State) (h4 : Inv x4) :
    Good (execShr x0 x1 x2 x3 x4) := by
  unfold execShr
  repeat' first
    | with_reducible assumption | with_reducible intro _ | with_reducible apply scalarOp_inv

theorem execSar_inv (x0 : RegField) (x1 : RegField) (x2 : RegField) (x3 : Md) (x4 : State) (h4 : Inv x4) :
    Good (execSar x0 x1 x2 x3 x4) := by
  unfold execSar
  repeat' first
    | with_reducible assumption | with_reducible intro _ | with_reducible apply scalarOp_inv

theorem execSel_inv (x0 : RegField) (x1 : RegField) (x2 : RegField) (x3 : Md) (x4 : State) (h4 : Inv x4) :
    Good (execSel x0 x1 x2 x3 x4) := by
  unfold execSel
  repeat' first
    | with_reducible assumption | with_reducible intro _ | with_reducible apply scalarOp_inv

theorem execClz_inv (x0 : RegField) (x1 : RegField) (x2 : Md) (x3 : State) (h3 : Inv x3) :
    Good (execClz x0 x1 x2 x3) := by
  unfold execClz
  repeat' first
    | with_reducible assumption | with_reducible intro _ | with_reducible apply scalarOp_inv

theorem execCtz_inv (x0 : RegField) (x1 : RegField) (x2 : Md) (x3 : State) (h3 : Inv x3) :
    Good (execCtz x0 x1 x2 x3) := by
  unfold execCtz
  repeat' first
    | with_reducible assumption | with_reducible intro _ | with_reducible apply scalarOp_inv

theorem execPopc_inv (x0 : RegField) (x1 : RegField) (x2 : Md) (x3 : State) (h3 : Inv x3) :
    Good (execPopc x0 x1 x2 x3) := by
  unfold execPopc
  repeat' first
    | with_reducible assumption | with_reducible intro _ | with_reducible apply scalarOp_inv

theorem execAddi_inv (x0 : RegField) (x1 : RegField) (x2 : Imm) (x3 : State) (h3 : Inv x3) :
    Good (execAddi x0 x1 x2 x3) := by
  unfold execAddi
  repeat' first
    | with_reducible assumption | with_reducible intro _ | with_reducible apply scalarOp_inv

theorem execAndi_inv (x0 : RegField) (x1 : RegField) (x2 : Imm) (x3 : State) (h3 : Inv x3) :
    Good (execAndi x0 x1 x2 x3) := by
  unfold execAndi
  repeat' first
    | with_reducible assumption | with_reducible intro _ | with_reducible apply scalarOp_inv

theorem execOri_inv (x0 : RegField) (x1 : RegField) (x2 : Imm) (x3 : State) (h3 : Inv x3) :
    Good (execOri x0 x1 x2 x3) := by
  unfold execOri
  repeat' first
    | with_reducible assumption | with_reducible intro _ | with_reducible apply scalarOp_inv

theorem execXori_inv (x0 : RegField) (x1 : RegField) (x2 : Imm) (x3 : State) (h3 : Inv x3) :
    Good (execXori x0 x1 x2 x3) := by
  unfold execXori
  repeat' first
    | with_reducible assumption | with_reducible intro _ | with_reducible apply scalarOp_inv

theorem execShli_inv (x0 : RegField) (x1 : RegField) (x2 : Imm) (x3 : State) (h3 : Inv x3) :
    Good (execShli x0 x1 x2 x3) := by
  unfold execShli
  repeat' first
    | with_reducible assumption | with_reducible intro _ | with_reducible apply scalarOp_inv

theorem execShri_inv (x0 : RegField) (x1 : RegField) (x2 : Imm) (x3 : State) (h3 : Inv x3) :
    Good (execShri x0 x1 x2 x3) := by
  unfold execShri
  repeat' first
    | with_reducible assumption | with_reducible intro _ | with_reducible apply scalarOp_inv

theorem execSari_inv (x0 : RegField) (x1 : RegField) (x2 : Imm) (x3 : State) (h3 : Inv x3) :
    Good (execSari x0 x1 x2 x3) := by
  unfold execSari
  repeat' first
    | with_reducible assumption | with_reducible intro _ | with_reducible apply scalarOp_inv

theorem execSlti_inv (x0 : RegField) (x1 : RegField) (x2 : Imm) (x3 : State) (h3 : Inv x3) :
    Good (execSlti x0 x1 x2 x3) := by
  unfold execSlti
  repeat' first
    | with_reducible assumption | with_reducible intro _ | with_reducible apply scalarOp_inv

theorem execSltni_inv (x0 : RegField) (x1 : RegField) (x2 : Imm) (x3 : State) (h3 : Inv x3) :
    Good (execSltni x0 x1 x2 x3) := by
  unfold execSltni
  repeat' first
    | with_reducible assumption | with_reducible intro _ | with_reducible apply scalarOp_inv

theorem execLi_inv (x0 : Bool) (x1 : RegField) (x2 : Imm) (x3 : State) (h3 : Inv x3) :
    Good (execLi x0 x1 x2 x3) := by
  unfold execLi
  repeat' first
    | with_reducible assumption | with_reducible intro _ | with_reducible apply scalarOp_inv

theorem execAgen_inv (x0 : BitVec 2) (x1 : RegField) (x2 : RegField) (x3 : RegField) (x4 : Md) (x5 : State) (h5 : Inv x5) :
    Good (execAgen x0 x1 x2 x3 x4 x5) := by
  unfold execAgen
  repeat' first
    | with_reducible assumption | with_reducible intro _ | with_reducible apply scalarOp_inv

theorem execLcset_inv (x0 : BitVec 2) (x1 : RegField) (x2 : Imm) (x3 : State) (h3 : Inv x3) :
    Good (execLcset x0 x1 x2 x3) := by
  unfold execLcset
  repeat' first
    | with_reducible assumption | with_reducible intro _ | with_reducible apply landResult_inv
    | with_reducible apply countOperands_inv | with_reducible apply checked_inv

theorem repairRequest_inv (x0 : State) (x1 : Nat) (x2 : Nat) (x3 : Nat) (h0 : Inv x0) :
    Inv (repairRequest x0 x1 x2 x3) := by
  unfold repairRequest
  repeat' first
    | with_reducible assumption | with_reducible intro _ | with_reducible apply writeSliceAs_inv
    | with_reducible apply setCore_inv | dsimp only | split

theorem sysWrite_inv (x0 : State) (x1 : Nat) (x2 : Nat) (x3 : Word) (h0 : Inv x0) :
    Inv (sysWrite x0 x1 x2 x3) := by
  unfold sysWrite
  repeat' first
    | with_reducible assumption | with_reducible intro _ | with_reducible apply repairRequest_inv
    | with_reducible apply postAt_inv | with_reducible apply setCore_inv | dsimp only | split

theorem setTable_inv (x0 : State) (x1 : Nat) (x2 : Nat) (x3 : BitVec 128) (h0 : Inv x0) :
    Inv (setTable x0 x1 x2 x3) := by
  unfold setTable
  repeat' first
    | with_reducible assumption

theorem writeTableHalf_inv (x0 : State) (x1 : Nat) (x2 : Nat) (x3 : Bool) (x4 : Word) (h0 : Inv x0) :
    Inv (writeTableHalf x0 x1 x2 x3 x4) := by
  unfold writeTableHalf
  repeat' first
    | with_reducible assumption | with_reducible intro _ | with_reducible apply setTable_inv
    | dsimp only | split

theorem writeLinj_inv (x0 : State) (x1 : Nat) (x2 : Nat) (x3 : Word) (h0 : Inv x0) :
    Inv (writeLinj x0 x1 x2 x3) := by
  unfold writeLinj
  repeat' first
    | with_reducible assumption | with_reducible intro _ | with_reducible apply modPkg_inv

theorem systemWrite_inv (x0 : State) (x1 : Nat) (x2 : Nat) (x3 : Word) (h0 : Inv x0) :
    Inv (systemWrite x0 x1 x2 x3) := by
  unfold systemWrite
  repeat' first
    | with_reducible assumption | with_reducible intro _ | with_reducible apply writeLinj_inv
    | with_reducible apply writeTableHalf_inv | with_reducible apply post_inv
    | with_reducible apply modCore_inv | with_reducible apply setCore_inv | dsimp only | split

theorem execLds_inv (x0 : BitVec 2) (x1 : RegField) (x2 : RegField) (x3 : Imm) (x4 : State) (h4 : Inv x4) :
    Good (execLds x0 x1 x2 x3 x4) := by
  unfold execLds
  repeat' first
    | with_reducible assumption | with_reducible intro _ | with_reducible apply reserveRead_inv
    | with_reducible apply scalarResult_inv | with_reducible apply countOperands_inv
    | with_reducible apply checked_inv | with_reducible apply countLoad_inv | dsimp only | split

theorem execSts_inv (x0 : BitVec 2) (x1 : RegField) (x2 : RegField) (x3 : Imm) (x4 : State) (h4 : Inv x4) :
    Good (execSts x0 x1 x2 x3 x4) := by
  unfold execSts
  repeat' first
    | with_reducible assumption | with_reducible intro _ | with_reducible apply perform_inv
    | with_reducible apply countLines_inv | with_reducible apply reserveWrite_inv
    | with_reducible apply countOperands_inv | with_reducible apply checked_inv
    | with_reducible apply memPut_inv | exact good_fault _ | exact good_refused _
    | with_reducible apply good_next | with_reducible apply inv_foldl | with_reducible apply inv_foldl1
    | dsimp only | split

theorem setNext_inv (x0 : State) (x1 : Next) (h0 : Inv x0) :
    Inv (setNext x0 x1) := by
  unfold setNext
  repeat' first
    | with_reducible assumption | with_reducible intro _ | with_reducible apply modCore_inv

theorem execBr_inv (x0 : Imm) (x1 : State) (h1 : Inv x1) :
    Good (execBr x0 x1) := by
  unfold execBr
  repeat' first
    | with_reducible assumption | with_reducible intro _ | with_reducible apply setNext_inv
    | with_reducible apply checked_inv

theorem execBrc_inv (x0 : Bool) (x1 : RegField) (x2 : Imm) (x3 : State) (h3 : Inv x3) :
    Good (execBrc x0 x1 x2 x3) := by
  unfold execBrc
  repeat' first
    | with_reducible assumption | with_reducible intro _ | with_reducible apply setNext_inv
    | with_reducible apply countOperands_inv | with_reducible apply checked_inv

theorem landAtMoor_inv (x0 : State) (x1 : Landing) (h0 : Inv x0) :
    Inv (landAtMoor x0 x1) := by
  unfold landAtMoor
  repeat' first
    | with_reducible assumption | with_reducible intro _ | with_reducible apply modCore_inv

theorem execCall_inv (x0 : RegField) (x1 : Imm) (x2 : State) (h2 : Inv x2) :
    Good (execCall x0 x1 x2) := by
  unfold execCall
  repeat' first
    | with_reducible assumption | with_reducible intro _ | with_reducible apply landAtMoor_inv
    | with_reducible apply setNext_inv | with_reducible apply scalarResult_inv
    | with_reducible apply checked_inv | exact good_fault _ | exact good_refused _
    | with_reducible apply good_next | with_reducible apply inv_foldl | with_reducible apply inv_foldl1
    | dsimp only | split

theorem execRet_inv (x0 : RegField) (x1 : State) (h1 : Inv x1) :
    Good (execRet x0 x1) := by
  unfold execRet
  repeat' first
    | with_reducible assumption | with_reducible intro _ | with_reducible apply setNext_inv
    | with_reducible apply countOperands_inv | with_reducible apply checked_inv

theorem execRepeatLoop_inv (x0 : BitVec 2) (x1 : RegField) (x2 : Imm) (x3 : State) (h3 : Inv x3) :
    Good (execRepeatLoop x0 x1 x2 x3) := by
  unfold execRepeatLoop
  repeat' first
    | with_reducible assumption | with_reducible intro _ | with_reducible apply landAtMoor_inv
    | with_reducible apply setNext_inv | with_reducible apply countOperands_inv
    | with_reducible apply checked_inv | exact good_fault _ | exact good_refused _
    | with_reducible apply good_next | with_reducible apply inv_foldl | with_reducible apply inv_foldl1
    | dsimp only | split

theorem sendCommits_inv (x0 : State) (x1 : Nat) (x2 : Pass) (x3 : Nat) (h0 : Inv x0) :
    Inv (sendCommits x0 x1 x2 x3) := by
  unfold sendCommits
  repeat' first
    | with_reducible assumption | with_reducible intro _ | with_reducible apply launchFlit_inv
    | with_reducible apply inv_foldl

theorem shadowCopy_inv (x0 : State) (x1 : Nat) (h0 : Inv x0) :
    Inv (shadowCopy x0 x1) := by
  unfold shadowCopy
  repeat' first
    | with_reducible assumption | with_reducible intro _ | with_reducible apply postError_inv
    | with_reducible apply setCore_inv | with_reducible apply inv_foldl
    | with_reducible apply inv_foldl1 | dsimp only | split

theorem beginPass_inv (x0 : State) (x1 : Nat) (x2 : Nat) (x3 : Nat) (x4 : Nat) (x5 : BitVec 32) (x6 : Bool) (h0 : Inv x0) :
    Inv (beginPass x0 x1 x2 x3 x4 x5 x6) := by
  unfold beginPass
  repeat' first
    | with_reducible assumption | with_reducible intro _ | with_reducible apply shadowCopy_inv
    | with_reducible apply sendCommits_inv | with_reducible apply postAt_inv
    | with_reducible apply modCore_inv | with_reducible apply inv_foldl | with_reducible apply inv_foldl1
    | dsimp only | split

theorem execMoor_inv (x0 : BitVec 19) (x1 : BitVec 28) (x2 : BitVec 28) (x3 : BitVec 4) (x4 : BitVec 9) (x5 : Bool) (x6 : State) (h6 : Inv x6) :
    Good (execMoor x0 x1 x2 x3 x4 x5 x6) := by
  unfold execMoor
  repeat' first
    | with_reducible assumption | with_reducible intro _ | with_reducible apply beginPass_inv
    | with_reducible apply checked_inv

theorem rdvOp_inv (x0 : Instr) (x1 : Nat) (x2 : Nat) (x3 : Nat) (x4 : Word) (x5 : Word) (x6 : State) (h6 : Inv x6) :
    Good (rdvOp x0 x1 x2 x3 x4 x5 x6) := by
  unfold rdvOp
  repeat' first
    | with_reducible assumption | with_reducible intro _ | with_reducible apply countOperands_inv
    | with_reducible apply perform_inv | with_reducible apply checked_inv | exact good_fault _ | exact good_refused _
    | with_reducible apply good_next | with_reducible apply inv_foldl | with_reducible apply inv_foldl1 | dsimp only
    | split

theorem execRdvPlain_inv (x0 : BitVec 3) (x1 : RegField) (x2 : State) (h2 : Inv x2) :
    Good (execRdvPlain x0 x1 x2) := by
  unfold execRdvPlain
  repeat' first
    | with_reducible assumption | with_reducible intro _ | with_reducible apply rdvOp_inv

theorem execRdvBar_inv (x0 : BitVec 3) (x1 : RegField) (x2 : RegField) (x3 : RegField) (x4 : State) (h4 : Inv x4) :
    Good (execRdvBar x0 x1 x2 x3 x4) := by
  unfold execRdvBar
  repeat' first
    | with_reducible assumption | with_reducible intro _ | with_reducible apply rdvOp_inv

theorem execRdvWm_inv (x0 : BitVec 3) (x1 : RegField) (x2 : RegField) (x3 : RegField) (x4 : State) (h4 : Inv x4) :
    Good (execRdvWm x0 x1 x2 x3 x4) := by
  unfold execRdvWm
  repeat' first
    | with_reducible assumption | with_reducible intro _ | with_reducible apply rdvOp_inv

theorem execRdvCmt_inv (x0 : BitVec 3) (x1 : RegField) (x2 : RegField) (x3 : RegField) (x4 : State) (h4 : Inv x4) :
    Good (execRdvCmt x0 x1 x2 x3 x4) := by
  unfold execRdvCmt
  repeat' first
    | with_reducible assumption | with_reducible intro _ | with_reducible apply rdvOp_inv

theorem execRdvLp_inv (x0 : BitVec 3) (x1 : State) (h1 : Inv x1) :
    Good (execRdvLp x0 x1) := by
  unfold execRdvLp
  repeat' first
    | with_reducible assumption | with_reducible intro _ | with_reducible apply perform_inv
    | with_reducible apply checked_inv

theorem arriveRdv_inv (x0 : State) (x1 : Nat) (x2 : Nat) (x3 : Nat) (x4 : Nat) (x5 : Nat) (x6 : Word) (x7 : Word) (h0 : Inv x0) :
    Inv (arriveRdv x0 x1 x2 x3 x4 x5 x6 x7) := by
  unfold arriveRdv
  repeat' first
    | with_reducible assumption | with_reducible intro _ | with_reducible apply takeFault_inv
    | with_reducible apply rdvTry_inv | with_reducible apply setRdv_inv
    | with_reducible apply modCore_inv | dsimp only | split

theorem performAt_inv (x0 : State) (x1 : Nat) (x2 : Perf) (h0 : Inv x0) :
    Inv (performAt x0 x1 x2) := by
  unfold performAt
  repeat' first
    | with_reducible assumption | with_reducible intro _ | with_reducible apply postAt_inv

theorem execHalt_inv (x0 : State) (h0 : Inv x0) :
    Good (execHalt x0) := by
  unfold execHalt
  repeat' first
    | with_reducible assumption | with_reducible intro _ | with_reducible apply performAt_inv
    | with_reducible apply setNext_inv | with_reducible apply checked_inv

theorem beginUnit_inv (x0 : State) (x1 : Nat) (x2 : Nat) (h0 : Inv x0) :
    Inv (beginUnit x0 x1 x2) := by
  unfold beginUnit
  repeat' first
    | with_reducible assumption | with_reducible intro _ | with_reducible apply writeSliceAs_inv
    | with_reducible apply setCore_inv | with_reducible apply inv_foldl | with_reducible apply inv_foldl1 | dsimp only
    | split

theorem newUnit_inv (x0 : State) (x1 : Nat) (x2 : Nat) (h0 : Inv x0) :
    Inv (newUnit x0 x1 x2) := by
  unfold newUnit
  repeat' first
    | with_reducible assumption | with_reducible intro _ | with_reducible apply modCore_inv
    | with_reducible apply inv_foldl | with_reducible apply inv_foldl1 | dsimp only | split

theorem haltUnit_inv (x0 : State) (x1 : Nat) (h0 : Inv x0) :
    Inv (haltUnit x0 x1) := by
  unfold haltUnit
  repeat' first
    | with_reducible assumption | with_reducible intro _ | with_reducible apply sendCommits_inv
    | with_reducible apply postAt_inv | with_reducible apply beginUnit_inv | with_reducible apply modCore_inv
    | with_reducible apply newUnit_inv | with_reducible apply inv_foldl | with_reducible apply inv_foldl1 | dsimp only
    | split

theorem execTrap_inv (x0 : Bool) (x1 : RegField) (x2 : Imm) (x3 : State) (h3 : Inv x3) :
    Good (execTrap x0 x1 x2 x3) := by
  unfold execTrap
  repeat' first
    | with_reducible assumption | with_reducible intro _ | with_reducible apply countOperands_inv
    | with_reducible apply checked_inv

theorem leaveOp_inv (x0 : Bool) (x1 : State) (h1 : Inv x1) :
    Good (leaveOp x0 x1) := by
  unfold leaveOp
  repeat' first
    | with_reducible assumption | with_reducible intro _ | with_reducible apply performAt_inv
    | with_reducible apply setNext_inv | with_reducible apply checked_inv

theorem execRett_inv (x0 : State) (h0 : Inv x0) :
    Good (execRett x0) := by
  unfold execRett
  repeat' first
    | with_reducible assumption | with_reducible intro _ | with_reducible apply leaveOp_inv

theorem execResync_inv (x0 : State) (h0 : Inv x0) :
    Good (execResync x0) := by
  unfold execResync
  repeat' first
    | with_reducible assumption | with_reducible intro _ | with_reducible apply leaveOp_inv

theorem leaveHandler_inv (x0 : State) (x1 : Nat) (x2 : Bool) (h0 : Inv x0) :
    Inv (leaveHandler x0 x1 x2) := by
  unfold leaveHandler
  repeat' first
    | with_reducible assumption | with_reducible intro _ | with_reducible apply postAt_inv
    | with_reducible apply modCore_inv | with_reducible apply inv_foldl | with_reducible apply inv_foldl1
    | dsimp only | split

theorem countDir_inv (x0 : State) (x1 : Nat) (x2 : Nat) (h0 : Inv x0) :
    Inv (countDir x0 x1 x2) := by
  unfold countDir
  repeat' first
    | with_reducible assumption | with_reducible intro _ | with_reducible apply postError_inv
    | with_reducible apply inv_foldl | with_reducible apply inv_foldl1 | dsimp only | split

theorem controlRead_inv (x0 : State) (x1 : RegField) (x2 : Nat) (h0 : Inv x0) :
    Inv (controlRead x0 x1 x2) := by
  unfold controlRead
  repeat' first
    | with_reducible assumption | with_reducible intro _ | with_reducible apply modCore_inv
    | with_reducible apply countDir_inv | with_reducible apply scalarResult_inv | with_reducible apply inv_foldl
    | with_reducible apply inv_foldl1 | dsimp only | split

theorem controlWrite_inv (x0 : State) (x1 : Nat) (x2 : Word) (h0 : Inv x0) :
    Inv (controlWrite x0 x1 x2) := by
  unfold controlWrite
  repeat' first
    | with_reducible assumption | with_reducible intro _ | with_reducible apply systemWrite_inv
    | with_reducible apply memPut_inv | with_reducible apply modCore_inv | dsimp only | split

theorem execSysrd_inv (x0 : RegField) (x1 : RegField) (x2 : Imm) (x3 : State) (h3 : Inv x3) :
    Good (execSysrd x0 x1 x2 x3) := by
  unfold execSysrd
  repeat' first
    | with_reducible assumption | with_reducible intro _ | with_reducible apply countDir_inv
    | with_reducible apply scalarResult_inv | with_reducible apply performAt_inv | with_reducible apply reserve_inv
    | with_reducible apply noteLand_inv | with_reducible apply countOperands_inv
    | with_reducible apply controlRead_inv | with_reducible apply checked_inv | exact good_fault _
    | exact good_refused _ | with_reducible apply good_next | with_reducible apply inv_foldl
    | with_reducible apply inv_foldl1 | dsimp only | split

theorem execSyswr_inv (x0 : RegField) (x1 : RegField) (x2 : Imm) (x3 : State) (h3 : Inv x3) :
    Good (execSyswr x0 x1 x2 x3) := by
  unfold execSyswr
  repeat' first
    | with_reducible assumption | with_reducible intro _ | with_reducible apply controlWrite_inv
    | with_reducible apply performAt_inv | with_reducible apply countOperands_inv
    | with_reducible apply checked_inv | dsimp only | split

theorem execCancel_inv (x0 : BitVec 2) (x1 : RegField) (x2 : Imm) (x3 : State) (h3 : Inv x3) :
    Good (execCancel x0 x1 x2 x3) := by
  unfold execCancel
  repeat' first
    | with_reducible assumption | with_reducible intro _ | with_reducible apply perform_inv
    | with_reducible apply countOperands_inv | with_reducible apply checked_inv

theorem cancelFrom_inv (x0 : State) (x1 : Nat) (x2 : Nat) (x3 : Nat) (h0 : Inv x0) :
    Inv (cancelFrom x0 x1 x2 x3) := by
  unfold cancelFrom
  repeat' first
    | with_reducible assumption | with_reducible intro _ | with_reducible apply post_inv
    | with_reducible apply inv_foldl | with_reducible apply inv_foldl1 | dsimp only | split

theorem execWinv_inv (x0 : RegField) (x1 : RegField) (x2 : Md) (x3 : State) (h3 : Inv x3) :
    Good (execWinv x0 x1 x2 x3) := by
  unfold execWinv
  repeat' first
    | with_reducible assumption | with_reducible intro _ | with_reducible apply perform_inv
    | with_reducible apply countOperands_inv | with_reducible apply checked_inv | exact good_fault _
    | exact good_refused _ | with_reducible apply good_next | with_reducible apply inv_foldl
    | with_reducible apply inv_foldl1 | dsimp only | split

theorem execIdle_inv (x0 : BitVec 24) (x1 : State) (h1 : Inv x1) :
    Good (execIdle x0 x1) := by
  unfold execIdle
  repeat' first
    | with_reducible assumption | with_reducible intro _ | with_reducible apply checked_inv
    | with_reducible apply postAt_inv

end Sys2Proof.Machine
end

