-- ==== Sys2Proof/Laws/InvVector.lean ====
section
/-! SUPPORT. Memory keeps its canonical form: the vector instructions. -/

namespace Sys2Proof.Machine

theorem vecReads_inv (x0 : State) (x1 : Instr) (x2 : Bool) (x3 : RegField) (x4 : Md) (h0 : Inv x0) :
    Inv (vecReads x0 x1 x2 x3 x4) := by
  unfold vecReads
  repeat' first
    | with_reducible assumption | with_reducible intro _ | with_reducible apply perform_inv
    | with_reducible apply noteVreads_inv | with_reducible apply countOperands_inv
    | with_reducible apply inv_foldl | with_reducible apply inv_foldl1 | dsimp only | split

theorem landGuarded_inv (x0 : State) (x1 : Md) (x2 : Nat) (x3 : Nat) (x4 : Landing) (h0 : Inv x0) :
    Inv (landGuarded x0 x1 x2 x3 x4) := by
  unfold landGuarded
  repeat' first
    | with_reducible assumption | with_reducible intro _ | with_reducible apply landResult_inv
    | with_reducible apply reserve_inv | with_reducible apply inv_foldl | with_reducible apply inv_foldl1
    | dsimp only | split

theorem vecOp_inv (x0 : Instr) (x1 : Bool) (x2 : RegField) (x3 : Md) (x4 : Nat) (x5 : Nat) (x6 : Landing) (x7 : State) (h7 : Inv x7) :
    Good (vecOp x0 x1 x2 x3 x4 x5 x6 x7) := by
  unfold vecOp
  repeat' first
    | with_reducible assumption | with_reducible intro _ | with_reducible apply landGuarded_inv
    | with_reducible apply vecReads_inv | with_reducible apply checked_inv

theorem vecScalar_inv (x0 : Instr) (x1 : Bool) (x2 : RegField) (x3 : RegField) (x4 : Md) (x5 : Nat) (x6 : Nat) (x7 : Word) (x8 : State) (h8 : Inv x8) :
    Good (vecScalar x0 x1 x2 x3 x4 x5 x6 x7 x8) := by
  unfold vecScalar
  repeat' first
    | with_reducible assumption | with_reducible intro _ | with_reducible apply vecOp_inv
    | with_reducible apply vecReads_inv | with_reducible apply checked_inv | exact good_fault _
    | exact good_refused _ | with_reducible apply good_next | with_reducible apply inv_foldl
    | with_reducible apply inv_foldl1 | dsimp only | split

theorem popChamois_inv (x0 : State) (h0 : Inv x0) :
    Inv (popChamois x0) := by
  unfold popChamois
  repeat' first
    | with_reducible assumption | with_reducible intro _ | with_reducible apply modCore_inv

theorem execVadd_inv (x0 : BitVec 3) (x1 : RegField) (x2 : RegField) (x3 : RegField) (x4 : Bool) (x5 : Md) (x6 : State) (h6 : Inv x6) :
    Good (execVadd x0 x1 x2 x3 x4 x5 x6) := by
  unfold execVadd
  repeat' first
    | with_reducible assumption | with_reducible intro _ | with_reducible apply vecOp_inv

theorem execVsub_inv (x0 : BitVec 3) (x1 : RegField) (x2 : RegField) (x3 : RegField) (x4 : Bool) (x5 : Md) (x6 : State) (h6 : Inv x6) :
    Good (execVsub x0 x1 x2 x3 x4 x5 x6) := by
  unfold execVsub
  repeat' first
    | with_reducible assumption | with_reducible intro _ | with_reducible apply vecOp_inv

theorem execVmul_inv (x0 : BitVec 3) (x1 : RegField) (x2 : RegField) (x3 : RegField) (x4 : Bool) (x5 : Md) (x6 : State) (h6 : Inv x6) :
    Good (execVmul x0 x1 x2 x3 x4 x5 x6) := by
  unfold execVmul
  repeat' first
    | with_reducible assumption | with_reducible intro _ | with_reducible apply vecOp_inv

theorem execVfma_inv (x0 : BitVec 3) (x1 : RegField) (x2 : RegField) (x3 : RegField) (x4 : Bool) (x5 : Md) (x6 : State) (h6 : Inv x6) :
    Good (execVfma x0 x1 x2 x3 x4 x5 x6) := by
  unfold execVfma
  repeat' first
    | with_reducible assumption | with_reducible intro _ | with_reducible apply vecOp_inv

theorem execVfms_inv (x0 : BitVec 3) (x1 : RegField) (x2 : RegField) (x3 : RegField) (x4 : Bool) (x5 : Md) (x6 : State) (h6 : Inv x6) :
    Good (execVfms x0 x1 x2 x3 x4 x5 x6) := by
  unfold execVfms
  repeat' first
    | with_reducible assumption | with_reducible intro _ | with_reducible apply vecOp_inv

theorem execVmin_inv (x0 : BitVec 3) (x1 : RegField) (x2 : RegField) (x3 : RegField) (x4 : Bool) (x5 : Md) (x6 : State) (h6 : Inv x6) :
    Good (execVmin x0 x1 x2 x3 x4 x5 x6) := by
  unfold execVmin
  repeat' first
    | with_reducible assumption | with_reducible intro _ | with_reducible apply vecOp_inv

theorem execVmax_inv (x0 : BitVec 3) (x1 : RegField) (x2 : RegField) (x3 : RegField) (x4 : Bool) (x5 : Md) (x6 : State) (h6 : Inv x6) :
    Good (execVmax x0 x1 x2 x3 x4 x5 x6) := by
  unfold execVmax
  repeat' first
    | with_reducible assumption | with_reducible intro _ | with_reducible apply vecOp_inv

theorem execVabs_inv (x0 : BitVec 3) (x1 : RegField) (x2 : RegField) (x3 : Bool) (x4 : Md) (x5 : State) (h5 : Inv x5) :
    Good (execVabs x0 x1 x2 x3 x4 x5) := by
  unfold execVabs
  repeat' first
    | with_reducible assumption | with_reducible intro _ | with_reducible apply vecOp_inv

theorem execVneg_inv (x0 : BitVec 3) (x1 : RegField) (x2 : RegField) (x3 : Bool) (x4 : Md) (x5 : State) (h5 : Inv x5) :
    Good (execVneg x0 x1 x2 x3 x4 x5) := by
  unfold execVneg
  repeat' first
    | with_reducible assumption | with_reducible intro _ | with_reducible apply vecOp_inv

theorem execVadds_inv (x0 : BitVec 3) (x1 : RegField) (x2 : RegField) (x3 : RegField) (x4 : Bool) (x5 : Md) (x6 : State) (h6 : Inv x6) :
    Good (execVadds x0 x1 x2 x3 x4 x5 x6) := by
  unfold execVadds
  repeat' first
    | with_reducible assumption | with_reducible intro _ | with_reducible apply vecOp_inv

theorem execVsubs_inv (x0 : BitVec 3) (x1 : RegField) (x2 : RegField) (x3 : RegField) (x4 : Bool) (x5 : Md) (x6 : State) (h6 : Inv x6) :
    Good (execVsubs x0 x1 x2 x3 x4 x5 x6) := by
  unfold execVsubs
  repeat' first
    | with_reducible assumption | with_reducible intro _ | with_reducible apply vecOp_inv

theorem execVmulh_inv (x0 : BitVec 3) (x1 : RegField) (x2 : RegField) (x3 : RegField) (x4 : Bool) (x5 : Md) (x6 : State) (h6 : Inv x6) :
    Good (execVmulh x0 x1 x2 x3 x4 x5 x6) := by
  unfold execVmulh
  repeat' first
    | with_reducible assumption | with_reducible intro _ | with_reducible apply vecOp_inv

theorem execVminn_inv (x0 : BitVec 3) (x1 : RegField) (x2 : RegField) (x3 : RegField) (x4 : Bool) (x5 : Md) (x6 : State) (h6 : Inv x6) :
    Good (execVminn x0 x1 x2 x3 x4 x5 x6) := by
  unfold execVminn
  repeat' first
    | with_reducible assumption | with_reducible intro _ | with_reducible apply vecOp_inv

theorem execVmaxn_inv (x0 : BitVec 3) (x1 : RegField) (x2 : RegField) (x3 : RegField) (x4 : Bool) (x5 : Md) (x6 : State) (h6 : Inv x6) :
    Good (execVmaxn x0 x1 x2 x3 x4 x5 x6) := by
  unfold execVmaxn
  repeat' first
    | with_reducible assumption | with_reducible intro _ | with_reducible apply vecOp_inv

theorem execVaddsn_inv (x0 : BitVec 3) (x1 : RegField) (x2 : RegField) (x3 : RegField) (x4 : Bool) (x5 : Md) (x6 : State) (h6 : Inv x6) :
    Good (execVaddsn x0 x1 x2 x3 x4 x5 x6) := by
  unfold execVaddsn
  repeat' first
    | with_reducible assumption | with_reducible intro _ | with_reducible apply vecOp_inv

theorem execVsubsn_inv (x0 : BitVec 3) (x1 : RegField) (x2 : RegField) (x3 : RegField) (x4 : Bool) (x5 : Md) (x6 : State) (h6 : Inv x6) :
    Good (execVsubsn x0 x1 x2 x3 x4 x5 x6) := by
  unfold execVsubsn
  repeat' first
    | with_reducible assumption | with_reducible intro _ | with_reducible apply vecOp_inv

theorem execVmulhn_inv (x0 : BitVec 3) (x1 : RegField) (x2 : RegField) (x3 : RegField) (x4 : Bool) (x5 : Md) (x6 : State) (h6 : Inv x6) :
    Good (execVmulhn x0 x1 x2 x3 x4 x5 x6) := by
  unfold execVmulhn
  repeat' first
    | with_reducible assumption | with_reducible intro _ | with_reducible apply vecOp_inv

theorem execVcmp_inv (x0 : BitVec 3) (x1 : BitVec 3) (x2 : BitVec 3) (x3 : RegField) (x4 : RegField) (x5 : Bool) (x6 : Md) (x7 : State) (h7 : Inv x7) :
    Good (execVcmp x0 x1 x2 x3 x4 x5 x6 x7) := by
  unfold execVcmp
  repeat' first
    | with_reducible assumption | with_reducible intro _ | with_reducible apply vecOp_inv

theorem execVcmpn_inv (x0 : BitVec 3) (x1 : BitVec 3) (x2 : BitVec 3) (x3 : RegField) (x4 : RegField) (x5 : Bool) (x6 : Md) (x7 : State) (h7 : Inv x7) :
    Good (execVcmpn x0 x1 x2 x3 x4 x5 x6 x7) := by
  unfold execVcmpn
  repeat' first
    | with_reducible assumption | with_reducible intro _ | with_reducible apply vecOp_inv

theorem execVsel_inv (x0 : BitVec 3) (x1 : RegField) (x2 : RegField) (x3 : RegField) (x4 : Bool) (x5 : Md) (x6 : State) (h6 : Inv x6) :
    Good (execVsel x0 x1 x2 x3 x4 x5 x6) := by
  unfold execVsel
  repeat' first
    | with_reducible assumption | with_reducible intro _ | with_reducible apply vecOp_inv

theorem execVand_inv (x0 : RegField) (x1 : RegField) (x2 : RegField) (x3 : Bool) (x4 : Md) (x5 : State) (h5 : Inv x5) :
    Good (execVand x0 x1 x2 x3 x4 x5) := by
  unfold execVand
  repeat' first
    | with_reducible assumption | with_reducible intro _ | with_reducible apply vecOp_inv

theorem execVor_inv (x0 : RegField) (x1 : RegField) (x2 : RegField) (x3 : Bool) (x4 : Md) (x5 : State) (h5 : Inv x5) :
    Good (execVor x0 x1 x2 x3 x4 x5) := by
  unfold execVor
  repeat' first
    | with_reducible assumption | with_reducible intro _ | with_reducible apply vecOp_inv

theorem execVxor_inv (x0 : RegField) (x1 : RegField) (x2 : RegField) (x3 : Bool) (x4 : Md) (x5 : State) (h5 : Inv x5) :
    Good (execVxor x0 x1 x2 x3 x4 x5) := by
  unfold execVxor
  repeat' first
    | with_reducible assumption | with_reducible intro _ | with_reducible apply vecOp_inv

theorem execVandn_inv (x0 : RegField) (x1 : RegField) (x2 : RegField) (x3 : Bool) (x4 : Md) (x5 : State) (h5 : Inv x5) :
    Good (execVandn x0 x1 x2 x3 x4 x5) := by
  unfold execVandn
  repeat' first
    | with_reducible assumption | with_reducible intro _ | with_reducible apply vecOp_inv

theorem execVshl_inv (x0 : BitVec 3) (x1 : RegField) (x2 : RegField) (x3 : RegField) (x4 : Bool) (x5 : Md) (x6 : State) (h6 : Inv x6) :
    Good (execVshl x0 x1 x2 x3 x4 x5 x6) := by
  unfold execVshl
  repeat' first
    | with_reducible assumption | with_reducible intro _ | with_reducible apply vecOp_inv

theorem execVshr_inv (x0 : BitVec 3) (x1 : RegField) (x2 : RegField) (x3 : RegField) (x4 : Bool) (x5 : Md) (x6 : State) (h6 : Inv x6) :
    Good (execVshr x0 x1 x2 x3 x4 x5 x6) := by
  unfold execVshr
  repeat' first
    | with_reducible assumption | with_reducible intro _ | with_reducible apply vecOp_inv

theorem execVsar_inv (x0 : BitVec 3) (x1 : RegField) (x2 : RegField) (x3 : RegField) (x4 : Bool) (x5 : Md) (x6 : State) (h6 : Inv x6) :
    Good (execVsar x0 x1 x2 x3 x4 x5 x6) := by
  unfold execVsar
  repeat' first
    | with_reducible assumption | with_reducible intro _ | with_reducible apply vecOp_inv

theorem execVcvt_inv (x0 : BitVec 2) (x1 : RegField) (x2 : RegField) (x3 : Bool) (x4 : Md) (x5 : State) (h5 : Inv x5) :
    Good (execVcvt x0 x1 x2 x3 x4 x5) := by
  unfold execVcvt
  repeat' first
    | with_reducible assumption | with_reducible intro _ | with_reducible apply popChamois_inv
    | with_reducible apply landGuarded_inv | with_reducible apply vecReads_inv
    | with_reducible apply checked_inv | exact good_fault _ | exact good_refused _
    | with_reducible apply good_next | with_reducible apply inv_foldl | with_reducible apply inv_foldl1
    | dsimp only | split

theorem execVrcp_inv (x0 : BitVec 3) (x1 : RegField) (x2 : RegField) (x3 : Bool) (x4 : Md) (x5 : State) (h5 : Inv x5) :
    Good (execVrcp x0 x1 x2 x3 x4 x5) := by
  unfold execVrcp
  repeat' first
    | with_reducible assumption | with_reducible intro _ | with_reducible apply vecOp_inv

theorem execVrsq_inv (x0 : BitVec 3) (x1 : RegField) (x2 : RegField) (x3 : Bool) (x4 : Md) (x5 : State) (h5 : Inv x5) :
    Good (execVrsq x0 x1 x2 x3 x4 x5) := by
  unfold execVrsq
  repeat' first
    | with_reducible assumption | with_reducible intro _ | with_reducible apply vecOp_inv

theorem execVsqrt_inv (x0 : BitVec 3) (x1 : RegField) (x2 : RegField) (x3 : Bool) (x4 : Md) (x5 : State) (h5 : Inv x5) :
    Good (execVsqrt x0 x1 x2 x3 x4 x5) := by
  unfold execVsqrt
  repeat' first
    | with_reducible assumption | with_reducible intro _ | with_reducible apply vecOp_inv

theorem execVdiv_inv (x0 : BitVec 3) (x1 : RegField) (x2 : RegField) (x3 : RegField) (x4 : Bool) (x5 : Md) (x6 : State) (h6 : Inv x6) :
    Good (execVdiv x0 x1 x2 x3 x4 x5 x6) := by
  unfold execVdiv
  repeat' first
    | with_reducible assumption | with_reducible intro _ | with_reducible apply vecOp_inv

theorem execVexp2_inv (x0 : BitVec 3) (x1 : RegField) (x2 : RegField) (x3 : Bool) (x4 : Md) (x5 : State) (h5 : Inv x5) :
    Good (execVexp2 x0 x1 x2 x3 x4 x5) := by
  unfold execVexp2
  repeat' first
    | with_reducible assumption | with_reducible intro _ | with_reducible apply vecOp_inv

theorem execVlog2_inv (x0 : BitVec 3) (x1 : RegField) (x2 : RegField) (x3 : Bool) (x4 : Md) (x5 : State) (h5 : Inv x5) :
    Good (execVlog2 x0 x1 x2 x3 x4 x5) := by
  unfold execVlog2
  repeat' first
    | with_reducible assumption | with_reducible intro _ | with_reducible apply vecOp_inv

theorem execVred_inv (x0 : BitVec 3) (x1 : RegField) (x2 : RegField) (x3 : BitVec 3) (x4 : Bool) (x5 : Md) (x6 : State) (h6 : Inv x6) :
    Good (execVred x0 x1 x2 x3 x4 x5 x6) := by
  unfold execVred
  repeat' first
    | with_reducible assumption | with_reducible intro _ | with_reducible apply vecOp_inv

theorem execVscan_inv (x0 : BitVec 3) (x1 : RegField) (x2 : RegField) (x3 : BitVec 3) (x4 : Bool) (x5 : Md) (x6 : State) (h6 : Inv x6) :
    Good (execVscan x0 x1 x2 x3 x4 x5 x6) := by
  unfold execVscan
  repeat' first
    | with_reducible assumption | with_reducible intro _ | with_reducible apply vecOp_inv

theorem execVperm_inv (x0 : RegField) (x1 : RegField) (x2 : RegField) (x3 : Bool) (x4 : Md) (x5 : State) (h5 : Inv x5) :
    Good (execVperm x0 x1 x2 x3 x4 x5) := by
  unfold execVperm
  repeat' first
    | with_reducible assumption | with_reducible intro _ | with_reducible apply vecOp_inv

theorem execVshuf_inv (x0 : BitVec 3) (x1 : RegField) (x2 : RegField) (x3 : RegField) (x4 : Bool) (x5 : Md) (x6 : State) (h6 : Inv x6) :
    Good (execVshuf x0 x1 x2 x3 x4 x5 x6) := by
  unfold execVshuf
  repeat' first
    | with_reducible assumption | with_reducible intro _ | with_reducible apply vecOp_inv

theorem execVbcast_inv (x0 : RegField) (x1 : RegField) (x2 : RegField) (x3 : Bool) (x4 : Md) (x5 : State) (h5 : Inv x5) :
    Good (execVbcast x0 x1 x2 x3 x4 x5) := by
  unfold execVbcast
  repeat' first
    | with_reducible assumption | with_reducible intro _ | with_reducible apply vecOp_inv

theorem execVsplat_inv (x0 : BitVec 3) (x1 : RegField) (x2 : RegField) (x3 : Imm) (x4 : State) (h4 : Inv x4) :
    Good (execVsplat x0 x1 x2 x3 x4) := by
  unfold execVsplat
  repeat' first
    | with_reducible assumption | with_reducible intro _ | with_reducible apply vecOp_inv

theorem execVlane_inv (x0 : RegField) (x1 : RegField) (x2 : RegField) (x3 : Bool) (x4 : Md) (x5 : State) (h5 : Inv x5) :
    Good (execVlane x0 x1 x2 x3 x4 x5) := by
  unfold execVlane
  repeat' first
    | with_reducible assumption | with_reducible intro _ | with_reducible apply vecScalar_inv

theorem execVext_inv (x0 : RegField) (x1 : RegField) (x2 : RegField) (x3 : Bool) (x4 : Md) (x5 : State) (h5 : Inv x5) :
    Good (execVext x0 x1 x2 x3 x4 x5) := by
  unfold execVext
  repeat' first
    | with_reducible assumption | with_reducible intro _ | with_reducible apply vecOp_inv

theorem execVins_inv (x0 : RegField) (x1 : RegField) (x2 : RegField) (x3 : Md) (x4 : State) (h4 : Inv x4) :
    Good (execVins x0 x1 x2 x3 x4) := by
  unfold execVins
  repeat' first
    | with_reducible assumption | with_reducible intro _ | with_reducible apply vecOp_inv

theorem execVdot_inv (x0 : BitVec 3) (x1 : RegField) (x2 : RegField) (x3 : RegField) (x4 : Bool) (x5 : Md) (x6 : State) (h6 : Inv x6) :
    Good (execVdot x0 x1 x2 x3 x4 x5 x6) := by
  unfold execVdot
  repeat' first
    | with_reducible assumption | with_reducible intro _ | with_reducible apply vecOp_inv

theorem execVpack_inv (x0 : Bool) (x1 : RegField) (x2 : RegField) (x3 : RegField) (x4 : Bool) (x5 : Md) (x6 : State) (h6 : Inv x6) :
    Good (execVpack x0 x1 x2 x3 x4 x5 x6) := by
  unfold execVpack
  repeat' first
    | with_reducible assumption | with_reducible intro _ | with_reducible apply vecOp_inv

theorem execVunpack_inv (x0 : Bool) (x1 : RegField) (x2 : RegField) (x3 : BitVec 2) (x4 : Bool) (x5 : Md) (x6 : State) (h6 : Inv x6) :
    Good (execVunpack x0 x1 x2 x3 x4 x5 x6) := by
  unfold execVunpack
  repeat' first
    | with_reducible assumption | with_reducible intro _ | with_reducible apply vecOp_inv

theorem execVmov_inv (x0 : RegField) (x1 : RegField) (x2 : Bool) (x3 : Md) (x4 : State) (h4 : Inv x4) :
    Good (execVmov x0 x1 x2 x3 x4) := by
  unfold execVmov
  repeat' first
    | with_reducible assumption | with_reducible intro _ | with_reducible apply vecOp_inv

theorem execMand_inv (x0 : RegField) (x1 : RegField) (x2 : RegField) (x3 : Md) (x4 : State) (h4 : Inv x4) :
    Good (execMand x0 x1 x2 x3 x4) := by
  unfold execMand
  repeat' first
    | with_reducible assumption | with_reducible intro _ | with_reducible apply vecOp_inv

theorem execMor_inv (x0 : RegField) (x1 : RegField) (x2 : RegField) (x3 : Md) (x4 : State) (h4 : Inv x4) :
    Good (execMor x0 x1 x2 x3 x4) := by
  unfold execMor
  repeat' first
    | with_reducible assumption | with_reducible intro _ | with_reducible apply vecOp_inv

theorem execMxor_inv (x0 : RegField) (x1 : RegField) (x2 : RegField) (x3 : Md) (x4 : State) (h4 : Inv x4) :
    Good (execMxor x0 x1 x2 x3 x4) := by
  unfold execMxor
  repeat' first
    | with_reducible assumption | with_reducible intro _ | with_reducible apply vecOp_inv

theorem execMnot_inv (x0 : RegField) (x1 : RegField) (x2 : Md) (x3 : State) (h3 : Inv x3) :
    Good (execMnot x0 x1 x2 x3) := by
  unfold execMnot
  repeat' first
    | with_reducible assumption | with_reducible intro _ | with_reducible apply vecOp_inv

theorem execMpop_inv (x0 : RegField) (x1 : RegField) (x2 : Md) (x3 : State) (h3 : Inv x3) :
    Good (execMpop x0 x1 x2 x3) := by
  unfold execMpop
  repeat' first
    | with_reducible assumption | with_reducible intro _ | with_reducible apply vecScalar_inv

theorem execMfirst_inv (x0 : RegField) (x1 : RegField) (x2 : Md) (x3 : State) (h3 : Inv x3) :
    Good (execMfirst x0 x1 x2 x3) := by
  unfold execMfirst
  repeat' first
    | with_reducible assumption | with_reducible intro _ | with_reducible apply vecScalar_inv

theorem vecLoad_inv (x0 : Instr) (x1 : RegField) (x2 : Md) (x3 : Elems) (x4 : Nat) (x5 : List FaultRec) (x6 : State) (h6 : Inv x6) :
    Good (vecLoad x0 x1 x2 x3 x4 x5 x6) := by
  unfold vecLoad
  repeat' first
    | with_reducible assumption | with_reducible intro _ | with_reducible apply landGuarded_inv
    | with_reducible apply reserveRead_inv | with_reducible apply noteVreads_inv
    | with_reducible apply countOperands_inv | with_reducible apply checked_inv
    | with_reducible apply countLoad_inv | dsimp only | split

theorem vecStore_inv (x0 : Instr) (x1 : RegField) (x2 : Md) (x3 : Elems) (x4 : Nat) (x5 : List FaultRec) (x6 : State) (h6 : Inv x6) :
    Good (vecStore x0 x1 x2 x3 x4 x5 x6) := by
  unfold vecStore
  repeat' first
    | with_reducible assumption | with_reducible intro _ | with_reducible apply perform_inv
    | with_reducible apply countLines_inv | with_reducible apply reserveWrite_inv
    | with_reducible apply noteVreads_inv | with_reducible apply countOperands_inv
    | with_reducible apply checked_inv | exact good_fault _ | exact good_refused _
    | with_reducible apply good_next | with_reducible apply inv_foldl | with_reducible apply inv_foldl1
    | dsimp only | split

theorem execVld_inv (x0 : BitVec 2) (x1 : RegField) (x2 : RegField) (x3 : Imm) (x4 : State) (h4 : Inv x4) :
    Good (execVld x0 x1 x2 x3 x4) := by
  unfold execVld
  repeat' first
    | with_reducible assumption | with_reducible intro _ | with_reducible apply vecLoad_inv

theorem execVlds_inv (x0 : BitVec 3) (x1 : RegField) (x2 : RegField) (x3 : RegField) (x4 : Md) (x5 : State) (h5 : Inv x5) :
    Good (execVlds x0 x1 x2 x3 x4 x5) := by
  unfold execVlds
  repeat' first
    | with_reducible assumption | with_reducible intro _ | with_reducible apply vecLoad_inv

theorem execVldg_inv (x0 : BitVec 3) (x1 : RegField) (x2 : RegField) (x3 : RegField) (x4 : Md) (x5 : State) (h5 : Inv x5) :
    Good (execVldg x0 x1 x2 x3 x4 x5) := by
  unfold execVldg
  repeat' first
    | with_reducible assumption | with_reducible intro _ | with_reducible apply vecLoad_inv

theorem execVst_inv (x0 : BitVec 2) (x1 : RegField) (x2 : RegField) (x3 : Imm) (x4 : State) (h4 : Inv x4) :
    Good (execVst x0 x1 x2 x3 x4) := by
  unfold execVst
  repeat' first
    | with_reducible assumption | with_reducible intro _ | with_reducible apply vecStore_inv

theorem execVsts_inv (x0 : BitVec 3) (x1 : RegField) (x2 : RegField) (x3 : RegField) (x4 : Md) (x5 : State) (h5 : Inv x5) :
    Good (execVsts x0 x1 x2 x3 x4 x5) := by
  unfold execVsts
  repeat' first
    | with_reducible assumption | with_reducible intro _ | with_reducible apply vecStore_inv

theorem execVstx_inv (x0 : BitVec 3) (x1 : RegField) (x2 : RegField) (x3 : RegField) (x4 : Md) (x5 : State) (h5 : Inv x5) :
    Good (execVstx x0 x1 x2 x3 x4 x5) := by
  unfold execVstx
  repeat' first
    | with_reducible assumption | with_reducible intro _ | with_reducible apply vecStore_inv

theorem execVstm_inv (x0 : BitVec 3) (x1 : RegField) (x2 : RegField) (x3 : RegField) (x4 : Md) (x5 : State) (h5 : Inv x5) :
    Good (execVstm x0 x1 x2 x3 x4 x5) := by
  unfold execVstm
  repeat' first
    | with_reducible assumption | with_reducible intro _ | with_reducible apply perform_inv
    | with_reducible apply countLines_inv | with_reducible apply reserveWrite_inv
    | with_reducible apply reserveRead_inv | with_reducible apply noteVreads_inv
    | with_reducible apply reserve_inv | with_reducible apply countOperands_inv
    | with_reducible apply checked_inv | with_reducible apply countLoad_inv
    | with_reducible apply land_inv | with_reducible apply inv_foldl | dsimp only | split

end Sys2Proof.Machine
end

