-- ==== Sys2Proof/Laws/InvMatrix.lean ====
section
/-! SUPPORT. Memory keeps its canonical form: the matrix engine and the X unit. -/

namespace Sys2Proof.Machine

theorem fixElem_inv (x0 : State) (x1 : Nat) (x2 : Nat) (x3 : Nat) (x4 : Nat) (x5 : Nat) (x6 : Nat) (h0 : Inv x0) :
    Inv (fixElem x0 x1 x2 x3 x4 x5 x6) := by
  unfold fixElem
  repeat' first
    | with_reducible assumption | with_reducible intro _ | with_reducible apply setBad_inv
    | with_reducible apply memPut_inv | with_reducible apply postError_inv
    | with_reducible apply modCore_inv | dsimp only | split

theorem reserveHold_inv (x0 : State) (x1 : Nat) (x2 : Nat) (x3 : Nat) (x4 : List Nat) (h0 : Inv x0) :
    Inv (reserveHold x0 x1 x2 x3 x4) := by
  unfold reserveHold
  repeat' first
    | with_reducible assumption | with_reducible intro _ | with_reducible apply reserve_inv
    | with_reducible apply inv_foldl

theorem engineOp_inv (x0 : List FaultRec) (x1 : Nat → State → State) (x2 : State) (h1 : ∀ a s, Inv s → Inv (x1 a s)) (h2 : Inv x2) :
    Good (engineOp x0 x1 x2) := by
  unfold engineOp
  repeat' first
    | with_reducible assumption | with_reducible intro _ | with_reducible apply h1
    | with_reducible apply takeCmd_inv | with_reducible apply checked_inv | dsimp only | split

theorem countBads_inv (x0 : State) (x1 : Nat) (x2 : Nat) (x3 : List (Nat × Nat)) (h0 : Inv x0) :
    Inv (countBads x0 x1 x2 x3) := by
  unfold countBads
  repeat' first
    | with_reducible assumption | with_reducible intro _ | with_reducible apply postError_inv
    | with_reducible apply inv_foldl

theorem modMop_inv (x0 : State) (x1 : Nat) (x2 : Nat) (x3 : MOp → MOp) (h0 : Inv x0) :
    Inv (modMop x0 x1 x2 x3) := by
  unfold modMop
  repeat' first
    | with_reducible assumption | with_reducible intro _ | with_reducible apply modCore_inv

theorem addMop_inv (x0 : State) (x1 : Nat) (x2 : MOp) (h0 : Inv x0) :
    Inv (addMop x0 x1 x2) := by
  unfold addMop
  repeat' first
    | with_reducible assumption | with_reducible intro _ | with_reducible apply modCore_inv

theorem postReads_inv (x0 : State) (x1 : Nat) (x2 : Option Src) (x3 : MOp) (x4 : Nat) (x5 : Nat) (x6 : Nat) (h0 : Inv x0) :
    Inv (postReads x0 x1 x2 x3 x4 x5 x6) := by
  unfold postReads
  repeat' first
    | with_reducible assumption | with_reducible intro _ | with_reducible apply postAt_inv
    | with_reducible apply inv_foldl

theorem postLandings_inv (x0 : State) (x1 : Nat) (x2 : MOp) (x3 : Bool) (x4 : Bool) (h0 : Inv x0) :
    Inv (postLandings x0 x1 x2 x3 x4) := by
  unfold postLandings
  repeat' first
    | with_reducible assumption | with_reducible intro _ | with_reducible apply noteLand_inv
    | with_reducible apply postAt_inv | with_reducible apply inv_foldl | with_reducible apply inv_foldl1
    | dsimp only | split

theorem noteSeen_inv (x0 : State) (x1 : Nat) (x2 : Nat) (x3 : Nat) (h0 : Inv x0) :
    Inv (noteSeen x0 x1 x2 x3) := by
  unfold noteSeen
  repeat' first
    | with_reducible assumption | with_reducible intro _ | with_reducible apply modCore_inv

theorem countStart_inv (x0 : State) (x1 : Nat) (x2 : MOp) (h0 : Inv x0) :
    Inv (countStart x0 x1 x2) := by
  unfold countStart
  repeat' first
    | with_reducible assumption | with_reducible intro _ | with_reducible apply noteSeen_inv
    | with_reducible apply countBads_inv | with_reducible apply inv_foldl
    | with_reducible apply inv_foldl1 | dsimp only | split

theorem multiply_inv (x0 : Instr) (x1 : Bool) (x2 : BitVec 3) (x3 : BitVec 3) (x4 : Bool) (x5 : Bool) (x6 : Bool) (x7 : RegField) (x8 : RegField) (x9 : Bool) (x10 : Md) (x11 : State) (h11 : Inv x11) :
    Good (multiply x0 x1 x2 x3 x4 x5 x6 x7 x8 x9 x10 x11) := by
  unfold multiply
  repeat' first
    | with_reducible assumption | with_reducible intro _ | with_reducible apply countStart_inv
    | with_reducible apply postLandings_inv | with_reducible apply postReads_inv
    | with_reducible apply addMop_inv | with_reducible apply engineOp_inv
    | with_reducible apply reserveHold_inv | with_reducible apply countOperands_inv | dsimp only | split

theorem execMma_inv (x0 : BitVec 3) (x1 : BitVec 3) (x2 : Bool) (x3 : Bool) (x4 : Bool) (x5 : RegField) (x6 : RegField) (x7 : Bool) (x8 : Md) (x9 : State) (h9 : Inv x9) :
    Good (execMma x0 x1 x2 x3 x4 x5 x6 x7 x8 x9) := by
  unfold execMma
  repeat' first
    | with_reducible assumption | with_reducible intro _ | with_reducible apply multiply_inv

theorem execMmat_inv (x0 : BitVec 3) (x1 : BitVec 3) (x2 : Bool) (x3 : Bool) (x4 : Bool) (x5 : RegField) (x6 : RegField) (x7 : Bool) (x8 : Md) (x9 : State) (h9 : Inv x9) :
    Good (execMmat x0 x1 x2 x3 x4 x5 x6 x7 x8 x9) := by
  unfold execMmat
  repeat' first
    | with_reducible assumption | with_reducible intro _ | with_reducible apply multiply_inv

theorem streamFlit_inv (x0 : State) (x1 : Nat) (x2 : Nat) (x3 : MOp) (x4 : Nat) (x5 : Nat) (x6 : BitVec 512) (x7 : Bool) (h0 : Inv x0) :
    Inv (streamFlit x0 x1 x2 x3 x4 x5 x6 x7) := by
  unfold streamFlit
  repeat' first
    | with_reducible assumption | with_reducible intro _ | with_reducible apply launchFlit_inv
    | dsimp only | split

theorem startGang_inv (x0 : State) (x1 : Nat) (x2 : MOp) (h0 : Inv x0) :
    Inv (startGang x0 x1 x2) := by
  unfold startGang
  repeat' first
    | with_reducible assumption | with_reducible intro _ | with_reducible apply streamFlit_inv
    | with_reducible apply postReads_inv | with_reducible apply addMop_inv | with_reducible apply postAt_inv
    | with_reducible apply inv_foldl | with_reducible apply inv_foldl1 | dsimp only | split

theorem execMmag_inv (x0 : BitVec 3) (x1 : BitVec 3) (x2 : Bool) (x3 : Bool) (x4 : Bool) (x5 : RegField) (x6 : RegField) (x7 : Bool) (x8 : Modifier) (x9 : State) (h9 : Inv x9) :
    Good (execMmag x0 x1 x2 x3 x4 x5 x6 x7 x8 x9) := by
  unfold execMmag
  repeat' first
    | with_reducible assumption | with_reducible intro _ | with_reducible apply startGang_inv
    | with_reducible apply countStart_inv | with_reducible apply postLandings_inv
    | with_reducible apply postReads_inv | with_reducible apply addMop_inv
    | with_reducible apply engineOp_inv | with_reducible apply reserveHold_inv
    | with_reducible apply countOperands_inv | with_reducible apply modCore_inv | dsimp only | split

theorem tileOp_inv (x0 : List FaultRec) (x1 : Instr) (x2 : Bool) (x3 : Nat) (x4 : State → MOp → MOp) (x5 : List (Nat × Nat)) (x6 : Option Nat) (x7 : Bool) (x8 : Bool) (x9 : State → MOp → State) (x10 : State) (h9 : ∀ s m, Inv s → Inv (x9 s m)) (h10 : Inv x10) :
    Good (tileOp x0 x1 x2 x3 x4 x5 x6 x7 x8 x9 x10) := by
  unfold tileOp
  repeat' first
    | with_reducible assumption | with_reducible intro _ | with_reducible apply h9
    | with_reducible apply postLandings_inv | with_reducible apply postReads_inv
    | with_reducible apply addMop_inv | with_reducible apply engineOp_inv
    | with_reducible apply reserveHold_inv | with_reducible apply countOperands_inv | exact good_fault _
    | exact good_refused _ | with_reducible apply good_next | with_reducible apply inv_foldl
    | with_reducible apply inv_foldl1 | dsimp only | split

theorem execMclr_inv (x0 : Bool) (x1 : BitVec 3) (x2 : Md) (x3 : State) (h3 : Inv x3) :
    Good (execMclr x0 x1 x2 x3) := by
  unfold execMclr
  repeat' first
    | with_reducible assumption | with_reducible intro _ | with_reducible apply tileOp_inv

theorem execMload_inv (x0 : BitVec 3) (x1 : Bool) (x2 : Bool) (x3 : RegField) (x4 : Md) (x5 : State) (h5 : Inv x5) :
    Good (execMload x0 x1 x2 x3 x4 x5) := by
  unfold execMload
  repeat' first
    | with_reducible assumption | with_reducible intro _ | with_reducible apply tileOp_inv

theorem execMout_inv (x0 : BitVec 2) (x1 : BitVec 3) (x2 : Bool) (x3 : Bool) (x4 : RegField) (x5 : RegField) (x6 : Md) (x7 : State) (h7 : Inv x7) :
    Good (execMout x0 x1 x2 x3 x4 x5 x6 x7) := by
  unfold execMout
  repeat' first
    | with_reducible assumption | with_reducible intro _ | with_reducible apply tileOp_inv
    | with_reducible apply reserveWrite_inv | with_reducible apply postAt_inv | exact good_fault _
    | exact good_refused _ | with_reducible apply good_next | with_reducible apply inv_foldl
    | with_reducible apply inv_foldl1 | dsimp only | split

theorem execMmarg_inv (x0 : RegField) (x1 : RegField) (x2 : Md) (x3 : State) (h3 : Inv x3) :
    Good (execMmarg x0 x1 x2 x3) := by
  unfold execMmarg
  repeat' first
    | with_reducible assumption | with_reducible intro _ | with_reducible apply tileOp_inv

theorem execMchk_inv (x0 : BitVec 3) (x1 : RegField) (x2 : Md) (x3 : State) (h3 : Inv x3) :
    Good (execMchk x0 x1 x2 x3) := by
  unfold execMchk
  repeat' first
    | with_reducible assumption | with_reducible intro _ | with_reducible apply tileOp_inv

theorem execMchkSp_inv (x0 : RegField) (x1 : Md) (x2 : State) (h2 : Inv x2) :
    Good (execMchkSp x0 x1 x2) := by
  unfold execMchkSp
  repeat' first
    | with_reducible assumption | with_reducible intro _ | with_reducible apply tileOp_inv

theorem execVmrd_inv (x0 : BitVec 3) (x1 : RegField) (x2 : RegField) (x3 : BitVec 2) (x4 : Md) (x5 : State) (h5 : Inv x5) :
    Good (execVmrd x0 x1 x2 x3 x4 x5) := by
  unfold execVmrd
  repeat' first
    | with_reducible assumption | with_reducible intro _ | with_reducible apply noteSeen_inv
    | with_reducible apply countBads_inv | with_reducible apply landGuarded_inv
    | with_reducible apply vecReads_inv | with_reducible apply checked_inv

theorem execVmwr_inv (x0 : BitVec 3) (x1 : RegField) (x2 : RegField) (x3 : BitVec 2) (x4 : Md) (x5 : State) (h5 : Inv x5) :
    Good (execVmwr x0 x1 x2 x3 x4 x5) := by
  unfold execVmwr
  repeat' first
    | with_reducible assumption | with_reducible intro _ | with_reducible apply landGuarded_inv
    | with_reducible apply vecReads_inv | with_reducible apply checked_inv

theorem streamSums_inv (x0 : State) (x1 : Nat) (x2 : MOp) (x3 : Nat) (x4 : List Nat) (h0 : Inv x0) :
    Inv (streamSums x0 x1 x2 x3 x4) := by
  unfold streamSums
  repeat' first
    | with_reducible assumption | with_reducible intro _ | with_reducible apply streamFlit_inv
    | with_reducible apply inv_foldl | with_reducible apply inv_foldl1 | dsimp only | split

theorem streamLine_inv (x0 : State) (x1 : Nat) (x2 : MOp) (x3 : Nat) (x4 : Bool) (h0 : Inv x0) :
    Inv (streamLine x0 x1 x2 x3 x4) := by
  unfold streamLine
  repeat' first
    | with_reducible assumption | with_reducible intro _ | with_reducible apply streamSums_inv
    | with_reducible apply streamFlit_inv | with_reducible apply inv_foldl
    | with_reducible apply inv_foldl1 | dsimp only | split

theorem engineReadAt_inv (x0 : State) (x1 : Nat) (x2 : Nat) (x3 : Nat) (x4 : Nat) (h0 : Inv x0) :
    Inv (engineReadAt x0 x1 x2 x3 x4) := by
  unfold engineReadAt
  repeat' first
    | with_reducible assumption | with_reducible intro _ | with_reducible apply countLoad_inv
    | with_reducible apply countWords_inv | with_reducible apply streamLine_inv | with_reducible apply countCopy_inv
    | with_reducible apply modMop_inv | with_reducible apply findFault_inv | with_reducible apply inv_foldl
    | with_reducible apply inv_foldl1 | dsimp only | split

theorem withCells_inv (x0 : State) (x1 : Nat) (x2 : MOp) (x3 : Nat) (x4 : List (Nat × Nat)) (x5 : State → State) (h0 : Inv x0) (h5 : ∀ s, Inv s → Inv (x5 s)) :
    Inv (withCells x0 x1 x2 x3 x4 x5) := by
  unfold withCells
  repeat' first
    | with_reducible assumption | with_reducible intro _ | with_reducible apply h5
    | with_reducible apply countBads_inv | with_reducible apply countWords_inv | with_reducible apply findFault_inv
    | with_reducible apply inv_foldl | with_reducible apply inv_foldl1 | dsimp only | split

theorem moutReadAt_inv (x0 : State) (x1 : Nat) (x2 : Nat) (x3 : Nat) (h0 : Inv x0) :
    Inv (moutReadAt x0 x1 x2 x3) := by
  unfold moutReadAt
  repeat' first
    | with_reducible assumption | with_reducible intro _ | with_reducible apply withCells_inv
    | with_reducible apply noteSeen_inv | with_reducible apply modMop_inv | dsimp only | split

theorem moutRowAt_inv (x0 : State) (x1 : Nat) (x2 : Nat) (x3 : Nat) (h0 : Inv x0) :
    Inv (moutRowAt x0 x1 x2 x3) := by
  unfold moutRowAt
  repeat' first
    | with_reducible assumption | with_reducible intro _ | with_reducible apply writeSlice_inv
    | with_reducible apply inv_foldl | with_reducible apply inv_foldl1 | dsimp only | split

theorem completionAdds_inv (x0 : State) (x1 : Nat) (x2 : MOp) (h0 : Inv x0) :
    Inv (completionAdds x0 x1 x2) := by
  unfold completionAdds
  repeat' first
    | with_reducible assumption | with_reducible intro _ | with_reducible apply postSub_inv
    | with_reducible apply modCore_inv | with_reducible apply inv_foldl | with_reducible apply inv_foldl1
    | dsimp only | split

theorem withSlot_inv (x0 : State) (x1 : Nat) (x2 : MOp) (x3 : Nat) (x4 : State → State) (h0 : Inv x0) (h4 : ∀ s, Inv s → Inv (x4 s)) :
    Inv (withSlot x0 x1 x2 x3 x4) := by
  unfold withSlot
  repeat' first
    | with_reducible assumption | with_reducible intro _ | with_reducible apply h4
    | with_reducible apply withCells_inv

theorem execMatrixReadable_inv (x0 : Nat) (x1 : Nat) (x2 : State) (h2 : Inv x2) :
    Good (execMatrixReadable x0 x1 x2) := by
  unfold execMatrixReadable
  repeat' first
    | with_reducible assumption | with_reducible intro _ | with_reducible apply withSlot_inv
    | with_reducible apply land_inv | with_reducible apply completionAdds_inv | with_reducible apply modCore_inv
    | with_reducible apply findFault_inv | exact good_fault _ | exact good_refused _ | with_reducible apply good_next
    | with_reducible apply inv_foldl | with_reducible apply inv_foldl1 | dsimp only | split

theorem correctElem_inv (x0 : State) (x1 : Nat) (x2 : Nat) (x3 : Nat) (x4 : Nat) (x5 : Nat) (x6 : CheckRes) (h0 : Inv x0) :
    Inv (correctElem x0 x1 x2 x3 x4 x5 x6) := by
  unfold correctElem
  repeat' first
    | with_reducible assumption | with_reducible intro _ | with_reducible apply fixElem_inv
    | with_reducible apply modCore_inv | with_reducible apply inv_foldl | with_reducible apply inv_foldl1
    | dsimp only | split

theorem correctCell_inv (x0 : State) (x1 : Nat) (x2 : Nat) (x3 : Nat) (x4 : Nat) (x5 : CheckRes) (h0 : Inv x0) :
    Inv (correctCell x0 x1 x2 x3 x4 x5) := by
  unfold correctCell
  repeat' first
    | with_reducible assumption | with_reducible intro _ | with_reducible apply modCore_inv
    | with_reducible apply inv_foldl | with_reducible apply inv_foldl1 | dsimp only | split

theorem fixGangBuffers_inv (x0 : State) (x1 : MOp) (x2 : Nat) (x3 : CheckRes) (h0 : Inv x0) :
    Inv (fixGangBuffers x0 x1 x2 x3) := by
  unfold fixGangBuffers
  repeat' first
    | with_reducible assumption | with_reducible intro _ | with_reducible apply modCore_inv
    | with_reducible apply inv_foldl | with_reducible apply inv_foldl1 | dsimp only | split

theorem operandCheck_inv (x0 : State) (x1 : Nat) (x2 : MOp) (x3 : Nat × Nat × Nat × Word × List (BitVec 32)) (h0 : Inv x0) :
    Inv (operandCheck x0 x1 x2 x3).1 := by
  unfold operandCheck
  repeat' first
    | with_reducible assumption | with_reducible intro _ | with_reducible apply fixGangBuffers_inv
    | with_reducible apply correctElem_inv | with_reducible apply modCore_inv
    | with_reducible apply inv_foldl | with_reducible apply inv_foldl1 | dsimp only | split

theorem operandChecks_inv (x0 : State) (x1 : Nat) (x2 : MOp) (h0 : Inv x0) :
    Inv (operandChecks x0 x1 x2).1 := by
  unfold operandChecks
  repeat' first
    | with_reducible assumption | with_reducible intro _ | with_reducible apply operandCheck_inv
    | with_reducible apply inv_foldl | with_reducible apply inv_foldl1

theorem checkMultiply_inv (x0 : State) (x1 : Nat) (x2 : MOp) (h0 : Inv x0) :
    Inv (checkMultiply x0 x1 x2) := by
  unfold checkMultiply
  repeat' first
    | with_reducible assumption | with_reducible intro _ | with_reducible apply findFault_inv
    | with_reducible apply completionAdds_inv | with_reducible apply correctCell_inv
    | with_reducible apply modCore_inv | with_reducible apply operandChecks_inv | with_reducible apply withCells_inv
    | with_reducible apply inv_foldl | with_reducible apply inv_foldl1 | dsimp only | split

theorem checkTile_inv (x0 : State) (x1 : Nat) (x2 : MOp) (x3 : Nat) (x4 : Grid) (x5 : List Val × List Val) (x6 : State → CheckRes → State) (x7 : CheckRes → FaultRec) (h0 : Inv x0) (h6 : ∀ s m, Inv s → Inv (x6 s m)) :
    Inv (checkTile x0 x1 x2 x3 x4 x5 x6 x7) := by
  unfold checkTile
  repeat' first
    | with_reducible assumption | with_reducible intro _ | with_reducible apply h6
    | with_reducible apply findFault_inv | with_reducible apply modCore_inv | with_reducible apply withSlot_inv
    | with_reducible apply inv_foldl | with_reducible apply inv_foldl1 | dsimp only | split

theorem checkMload_inv (x0 : State) (x1 : Nat) (x2 : MOp) (h0 : Inv x0) :
    Inv (checkMload x0 x1 x2) := by
  unfold checkMload
  repeat' first
    | with_reducible assumption | with_reducible intro _ | with_reducible apply withCells_inv
    | with_reducible apply checkTile_inv | with_reducible apply findFault_inv | with_reducible apply modCore_inv
    | with_reducible apply correctElem_inv | with_reducible apply inv_foldl | with_reducible apply inv_foldl1
    | dsimp only | split

theorem checkMout_inv (x0 : State) (x1 : Nat) (x2 : MOp) (h0 : Inv x0) :
    Inv (checkMout x0 x1 x2) := by
  unfold checkMout
  repeat' first
    | with_reducible assumption | with_reducible intro _ | with_reducible apply checkTile_inv
    | with_reducible apply correctCell_inv | with_reducible apply fixElem_inv
    | with_reducible apply inv_foldl | with_reducible apply inv_foldl1 | dsimp only | split

theorem landMmarg_inv (x0 : State) (x1 : Nat) (x2 : MOp) (h0 : Inv x0) :
    Inv (landMmarg x0 x1 x2) := by
  unfold landMmarg
  repeat' first
    | with_reducible assumption | with_reducible intro _ | with_reducible apply withCells_inv
    | with_reducible apply modCore_inv | with_reducible apply inv_foldl | with_reducible apply inv_foldl1
    | dsimp only | split

theorem checkCells_inv (x0 : State) (x1 : Nat) (x2 : MOp) (h0 : Inv x0) :
    Inv (checkCells x0 x1 x2) := by
  unfold checkCells
  repeat' first
    | with_reducible assumption | with_reducible intro _ | with_reducible apply checkTile_inv
    | with_reducible apply correctCell_inv | with_reducible apply withCells_inv | dsimp only | split

theorem checkScratch_inv (x0 : State) (x1 : Nat) (x2 : MOp) (h0 : Inv x0) :
    Inv (checkScratch x0 x1 x2) := by
  unfold checkScratch
  repeat' first
    | with_reducible assumption | with_reducible intro _ | with_reducible apply checkTile_inv
    | with_reducible apply correctElem_inv | with_reducible apply inv_foldl
    | with_reducible apply inv_foldl1 | dsimp only | split

theorem execMarginCheck_inv (x0 : Nat) (x1 : Nat) (x2 : State) (h2 : Inv x2) :
    Good (execMarginCheck x0 x1 x2) := by
  unfold execMarginCheck
  repeat' first
    | with_reducible assumption | with_reducible intro _ | with_reducible apply checkScratch_inv
    | with_reducible apply checkCells_inv | with_reducible apply landMmarg_inv
    | with_reducible apply checkMout_inv | with_reducible apply checkMload_inv
    | with_reducible apply checkMultiply_inv | with_reducible apply good_next | dsimp only | split

theorem beginShare_inv (x0 : State) (x1 : Nat) (x2 : MOp) (h0 : Inv x0) :
    Inv (beginShare x0 x1 x2) := by
  unfold beginShare
  repeat' first
    | with_reducible assumption | with_reducible intro _ | with_reducible apply countStart_inv
    | with_reducible apply postLandings_inv | with_reducible apply postReads_inv
    | with_reducible apply addMop_inv | with_reducible apply reserveHold_inv
    | with_reducible apply takeFault_inv | dsimp only | split

theorem execMemberShareStart_inv (x0 : Nat) (x1 : Nat) (x2 : State) (h2 : Inv x2) :
    Good (execMemberShareStart x0 x1 x2) := by
  unfold execMemberShareStart
  repeat' first
    | with_reducible assumption | with_reducible intro _ | with_reducible apply beginShare_inv
    | with_reducible apply modCore_inv | with_reducible apply good_next | dsimp only | split

theorem streamLand_inv (x0 : State) (x1 : Nat) (x2 : Nat) (x3 : Nat) (x4 : List Byte) (x5 : Bool) (h0 : Inv x0) :
    Inv (streamLand x0 x1 x2 x3 x4 x5) := by
  unfold streamLand
  repeat' first
    | with_reducible assumption | with_reducible intro _ | with_reducible apply modCore_inv

theorem execScl_inv (x0 : BitVec 4) (x1 : RegField) (x2 : Imm) (x3 : State) (h3 : Inv x3) :
    Good (execScl x0 x1 x2 x3) := by
  unfold execScl
  repeat' first
    | with_reducible assumption | with_reducible intro _ | with_reducible apply reserveRead_inv
    | with_reducible apply landResult_inv | with_reducible apply countOperands_inv
    | with_reducible apply checked_inv | with_reducible apply countLoad_inv | dsimp only | split

theorem execSclv_inv (x0 : BitVec 4) (x1 : RegField) (x2 : Md) (x3 : State) (h3 : Inv x3) :
    Good (execSclv x0 x1 x2 x3) := by
  unfold execSclv
  repeat' first
    | with_reducible assumption | with_reducible intro _ | with_reducible apply landGuarded_inv
    | with_reducible apply noteVreads_inv | with_reducible apply countOperands_inv
    | with_reducible apply checked_inv

theorem execXpack_inv (x0 : BitVec 2) (x1 : RegField) (x2 : RegField) (x3 : BitVec 3) (x4 : Md) (x5 : State) (h5 : Inv x5) :
    Good (execXpack x0 x1 x2 x3 x4 x5) := by
  unfold execXpack
  repeat' first
    | with_reducible assumption | with_reducible intro _ | with_reducible apply landGuarded_inv
    | with_reducible apply noteVreads_inv | with_reducible apply countOperands_inv
    | with_reducible apply checked_inv

theorem execXunpack_inv (x0 : BitVec 2) (x1 : RegField) (x2 : RegField) (x3 : BitVec 3) (x4 : Md) (x5 : State) (h5 : Inv x5) :
    Good (execXunpack x0 x1 x2 x3 x4 x5) := by
  unfold execXunpack
  repeat' first
    | with_reducible assumption | with_reducible intro _ | with_reducible apply landGuarded_inv
    | with_reducible apply noteVreads_inv | with_reducible apply countOperands_inv
    | with_reducible apply checked_inv

theorem execRndpop_inv (x0 : Bool) (x1 : RegField) (x2 : Md) (x3 : State) (h3 : Inv x3) :
    Good (execRndpop x0 x1 x2 x3) := by
  unfold execRndpop
  repeat' first
    | with_reducible assumption | with_reducible intro _ | with_reducible apply popChamois_inv
    | with_reducible apply landGuarded_inv | with_reducible apply countOperands_inv
    | with_reducible apply checked_inv

theorem execRndseed_inv (x0 : RegField) (x1 : Md) (x2 : State) (h2 : Inv x2) :
    Good (execRndseed x0 x1 x2) := by
  unfold execRndseed
  repeat' first
    | with_reducible assumption | with_reducible intro _ | with_reducible apply performAt_inv
    | with_reducible apply countOperands_inv | with_reducible apply checked_inv | exact good_fault _
    | exact good_refused _ | with_reducible apply good_next | with_reducible apply inv_foldl
    | with_reducible apply inv_foldl1 | dsimp only | split

theorem seedChamois_inv (x0 : State) (x1 : Nat) (x2 : Word) (h0 : Inv x0) :
    Inv (seedChamois x0 x1 x2) := by
  unfold seedChamois
  repeat' first
    | with_reducible assumption | with_reducible intro _ | with_reducible apply modCore_inv

theorem execChamoisAppend_inv (x0 : Nat) (x1 : State) (h1 : Inv x1) :
    Good (execChamoisAppend x0 x1) := by
  unfold execChamoisAppend
  repeat' first
    | with_reducible assumption | with_reducible intro _ | with_reducible apply modCore_inv
    | with_reducible apply good_next | dsimp only | split

end Sys2Proof.Machine
end

