-- ==== Sys2Proof/Laws/InvTransfer.lean ====
section
/-! SUPPORT. Memory keeps its canonical form: the L and Q slots. -/

namespace Sys2Proof.Machine

theorem countLookup_inv (x0 : State) (x1 : Nat) (h0 : Inv x0) :
    Inv (countLookup x0 x1) := by
  unfold countLookup
  repeat' first
    | with_reducible assumption | with_reducible intro _ | with_reducible apply postError_inv
    | with_reducible apply inv_foldl

theorem askRepair_inv (x0 : State) (x1 : Nat) (h0 : Inv x0) :
    Inv (askRepair x0 x1) := by
  unfold askRepair
  repeat' first
    | with_reducible assumption | with_reducible intro _ | with_reducible apply postAt_inv
    | with_reducible apply inv_foldl | with_reducible apply inv_foldl1 | dsimp only | split

theorem noteOp_inv (x0 : State) (x1 : Nat) (x2 : Nat) (h0 : Inv x0) :
    Inv (noteOp x0 x1 x2) := by
  unfold noteOp
  repeat' first
    | with_reducible assumption | with_reducible intro _ | with_reducible apply land_inv
    | with_reducible apply modCore_inv | with_reducible apply inv_foldl | with_reducible apply inv_foldl1 | dsimp only
    | split

theorem drainFrom_inv (x0 : State) (x1 : Nat) (x2 : Nat) (x3 : Nat) (x4 : Nat) (x5 : Src) (h0 : Inv x0) :
    Inv (drainFrom x0 x1 x2 x3 x4 x5) := by
  unfold drainFrom
  repeat' first
    | with_reducible assumption | with_reducible intro _ | with_reducible apply postSub_inv
    | with_reducible apply reserve_inv | with_reducible apply noteLand_inv | with_reducible apply freeFar_inv
    | with_reducible apply modCore_inv | with_reducible apply inv_foldl | with_reducible apply inv_foldl1 | dsimp only
    | split

theorem orderDrains_inv (x0 : State) (x1 : Nat) (x2 : Nat) (x3 : Nat) (x4 : Bool) (x5 : Src) (h0 : Inv x0) :
    Inv (orderDrains x0 x1 x2 x3 x4 x5) := by
  unfold orderDrains
  repeat' first
    | with_reducible assumption | with_reducible intro _ | with_reducible apply drainFrom_inv
    | dsimp only | split

theorem noteWrite_inv (x0 : State) (x1 : Nat) (x2 : Nat) (x3 : Nat) (h0 : Inv x0) :
    Inv (noteWrite x0 x1 x2 x3) := by
  unfold noteWrite
  repeat' first
    | with_reducible assumption | with_reducible intro _ | with_reducible apply modCore_inv

theorem noteStaged_inv (x0 : State) (x1 : Nat) (x2 : Nat) (x3 : Nat) (x4 : Nat) (x5 : Nat) (x6 : Nat) (x7 : List Hop) (h0 : Inv x0) :
    Inv (noteStaged x0 x1 x2 x3 x4 x5 x6 x7) := by
  unfold noteStaged
  repeat' first
    | with_reducible assumption | with_reducible intro _ | with_reducible apply modCore_inv | dsimp only
    | split

theorem takePort_inv (x0 : State) (x1 : Nat) (x2 : Nat) (x3 : Nat) (x4 : Bool) (h0 : Inv x0) :
    Inv (takePort x0 x1 x2 x3 x4) := by
  unfold takePort
  repeat' first
    | with_reducible assumption | with_reducible intro _ | with_reducible apply reserve_inv
    | with_reducible apply inv_foldl | with_reducible apply inv_foldl1 | dsimp only | split

theorem takePorts_inv (g : Nat) (x : Xfer) (d : Nat) (l : List Nat) (s : State) (h : Inv s) :
    Inv (takePorts g x d l s).1 := by
  induction l generalizing s with
  | nil => exact h
  | cons k l ih =>
    unfold takePorts
    dsimp only
    split
    · exact h
    · exact ih _ (inv_foldl (fun s u hs => takePort_inv _ _ _ _ _ hs) h)

theorem postAsk_inv (x0 : State) (x1 : Nat) (x2 : Option Src) (x3 : Nat) (x4 : Nat) (x5 : Nat) (x6 : Nat) (h0 : Inv x0) :
    Inv (postAsk x0 x1 x2 x3 x4 x5 x6) := by
  unfold postAsk
  repeat' first
    | with_reducible assumption | with_reducible intro _ | with_reducible apply postAt_inv

theorem postPieces_inv (x0 : State) (x1 : Nat) (x2 : Xfer) (x3 : Nat) (h0 : Inv x0) :
    Inv (postPieces x0 x1 x2 x3) := by
  unfold postPieces
  repeat' first
    | with_reducible assumption | with_reducible intro _ | with_reducible apply postAsk_inv
    | with_reducible apply takePorts_inv | with_reducible apply postAt_inv
    | with_reducible apply inv_foldl | with_reducible apply inv_foldl1 | dsimp only | split

theorem addXfer_inv (x0 : State) (x1 : Xfer) (h0 : Inv x0) :
    Inv (addXfer x0 x1) := by
  unfold addXfer
  repeat' first
    | with_reducible assumption

theorem modXfer_inv (x0 : State) (x1 : Nat) (x2 : Xfer → Xfer) (h0 : Inv x0) :
    Inv (modXfer x0 x1 x2) := by
  unfold modXfer
  repeat' first
    | with_reducible assumption

theorem startXfer_inv (x0 : State) (x1 : Nat) (x2 : Xfer) (x3 : Nat) (x4 : Nat) (x5 : Bool) (h0 : Inv x0) :
    Inv (startXfer x0 x1 x2 x3 x4 x5) := by
  unfold startXfer
  repeat' first
    | with_reducible assumption | with_reducible intro _ | with_reducible apply addXfer_inv
    | with_reducible apply postPieces_inv | with_reducible apply noteStaged_inv
    | with_reducible apply noteWrite_inv | with_reducible apply noteOp_inv
    | with_reducible apply countLookup_inv | with_reducible apply noteLand_inv
    | with_reducible apply postSub_inv | dsimp only | split

theorem lookup_inv (x0 : State) (x1 : Bool) (h0 : Inv x0) :
    Inv (lookup x0 x1) := by
  unfold lookup
  repeat' first
    | with_reducible assumption | with_reducible intro _ | with_reducible apply askRepair_inv
    | with_reducible apply inv_foldl | with_reducible apply inv_foldl1 | dsimp only | split

theorem copyOp_inv (x0 : Instr) (x1 : Md) (x2 : Nat) (x3 : Nat) (x4 : Nat) (x5 : Nat) (x6 : Nat) (x7 : Word) (x8 : Pieces) (x9 : State → Nat → Xfer) (x10 : List FaultRec) (x11 : Bool) (x12 : State) (h12 : Inv x12) :
    Good (copyOp x0 x1 x2 x3 x4 x5 x6 x7 x8 x9 x10 x11 x12) := by
  unfold copyOp
  repeat' first
    | with_reducible assumption | with_reducible intro _ | with_reducible apply lookup_inv
    | with_reducible apply startXfer_inv | with_reducible apply engineOp_inv
    | with_reducible apply countOperands_inv | dsimp only | split

theorem plainCopy_inv (x0 : Instr) (x1 : Nat) (x2 : Bool) (x3 : Bool) (x4 : Word) (x5 : BitVec 4) (x6 : RegField) (x7 : RegField) (x8 : BitVec 3) (x9 : Md) (x10 : List FaultRec) (x11 : State) (h11 : Inv x11) :
    Good (plainCopy x0 x1 x2 x3 x4 x5 x6 x7 x8 x9 x10 x11) := by
  unfold plainCopy
  repeat' first
    | with_reducible assumption | with_reducible intro _ | with_reducible apply copyOp_inv

theorem execCpy_inv (x0 : Bool) (x1 : BitVec 4) (x2 : RegField) (x3 : RegField) (x4 : BitVec 3) (x5 : Md) (x6 : State) (h6 : Inv x6) :
    Good (execCpy x0 x1 x2 x3 x4 x5 x6) := by
  unfold execCpy
  repeat' first
    | with_reducible assumption | with_reducible intro _ | with_reducible apply plainCopy_inv

theorem execCpys_inv (x0 : Bool) (x1 : BitVec 4) (x2 : RegField) (x3 : RegField) (x4 : BitVec 3) (x5 : Md) (x6 : State) (h6 : Inv x6) :
    Good (execCpys x0 x1 x2 x3 x4 x5 x6) := by
  unfold execCpys
  repeat' first
    | with_reducible assumption | with_reducible intro _ | with_reducible apply plainCopy_inv

theorem execCpym_inv (x0 : BitVec 4) (x1 : RegField) (x2 : RegField) (x3 : BitVec 3) (x4 : Modifier) (x5 : State) (h5 : Inv x5) :
    Good (execCpym x0 x1 x2 x3 x4 x5) := by
  unfold execCpym
  repeat' first
    | with_reducible assumption | with_reducible intro _ | with_reducible apply plainCopy_inv

theorem execCpyt_inv (x0 : Bool) (x1 : BitVec 4) (x2 : RegField) (x3 : RegField) (x4 : Modifier) (x5 : State) (h5 : Inv x5) :
    Good (execCpyt x0 x1 x2 x3 x4 x5) := by
  unfold execCpyt
  repeat' first
    | with_reducible assumption | with_reducible intro _ | with_reducible apply lookup_inv
    | with_reducible apply startXfer_inv | with_reducible apply engineOp_inv
    | with_reducible apply countOperands_inv | dsimp only | split

theorem execCode_inv (x0 : BitVec 2) (x1 : BitVec 4) (x2 : RegField) (x3 : RegField) (x4 : BitVec 3) (x5 : Md) (x6 : State) (h6 : Inv x6) :
    Good (execCode x0 x1 x2 x3 x4 x5 x6) := by
  unfold execCode
  repeat' first
    | with_reducible assumption | with_reducible intro _ | with_reducible apply lookup_inv
    | with_reducible apply addXfer_inv | with_reducible apply postAsk_inv
    | with_reducible apply noteOp_inv | with_reducible apply countLookup_inv
    | with_reducible apply engineOp_inv | with_reducible apply countOperands_inv
    | with_reducible apply noteLand_inv | with_reducible apply postSub_inv
    | with_reducible apply inv_foldl | with_reducible apply inv_foldl1 | dsimp only | split

theorem execHcpy_inv (x0 : Bool) (x1 : BitVec 2) (x2 : RegField) (x3 : RegField) (x4 : BitVec 3) (x5 : Md) (x6 : State) (h6 : Inv x6) :
    Good (execHcpy x0 x1 x2 x3 x4 x5 x6) := by
  unfold execHcpy
  repeat' first
    | with_reducible assumption | with_reducible intro _ | with_reducible apply lookup_inv
    | with_reducible apply addXfer_inv | with_reducible apply countLookup_inv
    | with_reducible apply engineOp_inv | with_reducible apply countOperands_inv
    | with_reducible apply land_inv | with_reducible apply postSub_inv
    | with_reducible apply modCore_inv | dsimp only | split

theorem execStageRd_inv (x0 : RegField) (x1 : Md) (x2 : State) (h2 : Inv x2) :
    Good (execStageRd x0 x1 x2) := by
  unfold execStageRd
  repeat' first
    | with_reducible assumption | with_reducible intro _ | with_reducible apply engineOp_inv
    | with_reducible apply scalarResult_inv | with_reducible apply countOperands_inv | exact good_fault _
    | exact good_refused _ | with_reducible apply good_next | with_reducible apply inv_foldl
    | with_reducible apply inv_foldl1 | dsimp only | split

theorem execStageSet_inv (x0 : RegField) (x1 : Md) (x2 : State) (h2 : Inv x2) :
    Good (execStageSet x0 x1 x2) := by
  unfold execStageSet
  repeat' first
    | with_reducible assumption | with_reducible intro _ | with_reducible apply engineOp_inv
    | with_reducible apply perform_inv | with_reducible apply countOperands_inv | exact good_fault _
    | exact good_refused _ | with_reducible apply good_next | with_reducible apply inv_foldl
    | with_reducible apply inv_foldl1 | dsimp only | split

theorem localAlu_inv (x0 : Instr) (x1 : Md) (x2 : Nat) (x3 : Nat) (x4 : Nat) (x5 : Word) (x6 : Word) (x7 : Option RegField) (x8 : Nat) (x9 : State) (h9 : Inv x9) :
    Good (localAlu x0 x1 x2 x3 x4 x5 x6 x7 x8 x9) := by
  unfold localAlu
  repeat' first
    | with_reducible assumption | with_reducible intro _ | with_reducible apply landResult_inv
    | with_reducible apply postAt_inv | with_reducible apply countLines_inv | with_reducible apply noteLand_inv
    | with_reducible apply reserveRead_inv | with_reducible apply reserve_inv | with_reducible apply countLoad_inv
    | with_reducible apply orderDrains_inv | with_reducible apply countOperands_inv
    | with_reducible apply engineOp_inv | exact good_fault _ | exact good_refused _ | with_reducible apply good_next
    | with_reducible apply inv_foldl | with_reducible apply inv_foldl1 | dsimp only | split

theorem execAtomInt_inv (x0 : BitVec 3) (x1 : RegField) (x2 : RegField) (x3 : RegField) (x4 : Bool) (x5 : Md) (x6 : State) (h6 : Inv x6) :
    Good (execAtomInt x0 x1 x2 x3 x4 x5 x6) := by
  unfold execAtomInt
  repeat' first
    | with_reducible assumption | with_reducible intro _ | with_reducible apply localAlu_inv
    | dsimp only | split

theorem execAtomOther_inv (x0 : BitVec 2) (x1 : RegField) (x2 : RegField) (x3 : RegField) (x4 : Bool) (x5 : Md) (x6 : State) (h6 : Inv x6) :
    Good (execAtomOther x0 x1 x2 x3 x4 x5 x6) := by
  unfold execAtomOther
  repeat' first
    | with_reducible assumption | with_reducible intro _ | with_reducible apply localAlu_inv
    | dsimp only | split

theorem execBara_inv (x0 : BitVec 3) (x1 : RegField) (x2 : Md) (x3 : State) (h3 : Inv x3) :
    Good (execBara x0 x1 x2 x3) := by
  unfold execBara
  repeat' first
    | with_reducible assumption | with_reducible intro _ | with_reducible apply localAlu_inv

theorem startLines_inv (x0 : State) (x1 : Nat) (x2 : Xfer) (x3 : Nat) (x4 : Nat) (x5 : List Nat) (h0 : Inv x0) :
    Inv (startLines x0 x1 x2 x3 x4 x5) := by
  unfold startLines
  repeat' first
    | with_reducible assumption | with_reducible intro _ | with_reducible apply addXfer_inv
    | with_reducible apply takePort_inv | with_reducible apply noteStaged_inv
    | with_reducible apply noteWrite_inv | with_reducible apply noteOp_inv
    | with_reducible apply noteLand_inv | with_reducible apply postAt_inv
    | with_reducible apply postSub_inv | with_reducible apply inv_foldl
    | with_reducible apply inv_foldl1 | dsimp only | split

theorem execSend_inv (x0 : BitVec 4) (x1 : BitVec 4) (x2 : RegField) (x3 : BitVec 3) (x4 : Md) (x5 : State) (h5 : Inv x5) :
    Good (execSend x0 x1 x2 x3 x4 x5) := by
  unfold execSend
  repeat' first
    | with_reducible assumption | with_reducible intro _ | with_reducible apply startLines_inv
    | with_reducible apply engineOp_inv | with_reducible apply countOperands_inv
    | with_reducible apply land_inv | dsimp only | split

theorem execRecv_inv (x0 : BitVec 4) (x1 : RegField) (x2 : Md) (x3 : State) (h3 : Inv x3) :
    Good (execRecv x0 x1 x2 x3) := by
  unfold execRecv
  repeat' first
    | with_reducible assumption | with_reducible intro _ | with_reducible apply engineOp_inv
    | with_reducible apply perform_inv | with_reducible apply countOperands_inv | exact good_fault _
    | exact good_refused _ | with_reducible apply good_next | with_reducible apply inv_foldl
    | with_reducible apply inv_foldl1 | dsimp only | split

theorem execBcst_inv (x0 : BitVec 4) (x1 : RegField) (x2 : RegField) (x3 : BitVec 3) (x4 : Md) (x5 : State) (h5 : Inv x5) :
    Good (execBcst x0 x1 x2 x3 x4 x5) := by
  unfold execBcst
  repeat' first
    | with_reducible assumption | with_reducible intro _ | with_reducible apply startLines_inv
    | with_reducible apply engineOp_inv | with_reducible apply countOperands_inv
    | with_reducible apply land_inv | dsimp only | split

theorem waitResult_inv (x0 : State) (x1 : Nat) (x2 : Nat) (x3 : Nat) (x4 : Src) (h0 : Inv x0) :
    Inv (waitResult x0 x1 x2 x3 x4) := by
  unfold waitResult
  repeat' first
    | with_reducible assumption | with_reducible intro _ | with_reducible apply postAt_inv
    | with_reducible apply noteLand_inv | with_reducible apply reserve_inv | with_reducible apply modCore_inv
    | with_reducible apply freeFar_inv | with_reducible apply land_inv | with_reducible apply inv_foldl
    | with_reducible apply inv_foldl1 | dsimp only | split

theorem execRld_inv (x0 : BitVec 2) (x1 : BitVec 4) (x2 : RegField) (x3 : RegField) (x4 : BitVec 2) (x5 : Md) (x6 : State) (h6 : Inv x6) :
    Good (execRld x0 x1 x2 x3 x4 x5 x6) := by
  unfold execRld
  repeat' first
    | with_reducible assumption | with_reducible intro _ | with_reducible apply waitResult_inv
    | with_reducible apply lookup_inv | with_reducible apply orderDrains_inv
    | with_reducible apply noteOp_inv | with_reducible apply countLookup_inv
    | with_reducible apply engineOp_inv | with_reducible apply countOperands_inv
    | with_reducible apply launchFlit_inv | with_reducible apply land_inv | dsimp only | split

theorem execRst_inv (x0 : BitVec 2) (x1 : BitVec 4) (x2 : RegField) (x3 : RegField) (x4 : BitVec 2) (x5 : Md) (x6 : State) (h6 : Inv x6) :
    Good (execRst x0 x1 x2 x3 x4 x5 x6) := by
  unfold execRst
  repeat' first
    | with_reducible assumption | with_reducible intro _ | with_reducible apply lookup_inv
    | with_reducible apply noteStaged_inv | with_reducible apply noteWrite_inv
    | with_reducible apply orderDrains_inv | with_reducible apply noteOp_inv
    | with_reducible apply countLookup_inv | with_reducible apply engineOp_inv
    | with_reducible apply countOperands_inv | with_reducible apply launchFlit_inv
    | with_reducible apply land_inv | with_reducible apply noteLand_inv | dsimp only | split

theorem ratomOp_inv (x0 : Instr) (x1 : Nat) (x2 : BitVec 4) (x3 : RegField) (x4 : RegField) (x5 : Nat) (x6 : Bool) (x7 : Bool) (x8 : Md) (x9 : State) (h9 : Inv x9) :
    Good (ratomOp x0 x1 x2 x3 x4 x5 x6 x7 x8 x9) := by
  unfold ratomOp
  repeat' first
    | with_reducible assumption | with_reducible intro _ | with_reducible apply waitResult_inv
    | with_reducible apply lookup_inv | with_reducible apply noteStaged_inv
    | with_reducible apply noteWrite_inv | with_reducible apply orderDrains_inv
    | with_reducible apply noteOp_inv | with_reducible apply countLookup_inv
    | with_reducible apply engineOp_inv | with_reducible apply countOperands_inv
    | with_reducible apply launchFlit_inv | with_reducible apply land_inv
    | with_reducible apply noteLand_inv | dsimp only | split

theorem execRatomInt_inv (x0 : BitVec 3) (x1 : BitVec 4) (x2 : RegField) (x3 : RegField) (x4 : BitVec 3) (x5 : Md) (x6 : State) (h6 : Inv x6) :
    Good (execRatomInt x0 x1 x2 x3 x4 x5 x6) := by
  unfold execRatomInt
  repeat' first
    | with_reducible assumption | with_reducible intro _ | with_reducible apply ratomOp_inv

theorem execRatomOther_inv (x0 : BitVec 2) (x1 : BitVec 4) (x2 : RegField) (x3 : RegField) (x4 : BitVec 3) (x5 : Md) (x6 : State) (h6 : Inv x6) :
    Good (execRatomOther x0 x1 x2 x3 x4 x5 x6) := by
  unfold execRatomOther
  repeat' first
    | with_reducible assumption | with_reducible intro _ | with_reducible apply ratomOp_inv

theorem execRred_inv (x0 : BitVec 3) (x1 : BitVec 4) (x2 : RegField) (x3 : RegField) (x4 : Md) (x5 : State) (h5 : Inv x5) :
    Good (execRred x0 x1 x2 x3 x4 x5) := by
  unfold execRred
  repeat' first
    | with_reducible assumption | with_reducible intro _ | with_reducible apply lookup_inv
    | with_reducible apply countLookup_inv | with_reducible apply engineOp_inv
    | with_reducible apply perform_inv | with_reducible apply countOperands_inv | exact good_fault _
    | exact good_refused _ | with_reducible apply good_next | with_reducible apply inv_foldl
    | with_reducible apply inv_foldl1 | dsimp only | split

theorem releaseLine_inv (x0 : Nat) (x1 : Nat) (x2 : Src) (x3 : State) (x4 : RedLine) (h3 : Inv x3) :
    Inv (releaseLine x0 x1 x2 x3 x4) := by
  unfold releaseLine
  repeat' first
    | with_reducible assumption | with_reducible intro _ | with_reducible apply noteStaged_inv
    | with_reducible apply noteWrite_inv | with_reducible apply launchFlit_inv | dsimp only | split

theorem release_inv (x0 : Instr) (x1 : Bool) (x2 : Nat) (x3 : Md) (x4 : State) (h4 : Inv x4) :
    Good (release x0 x1 x2 x3 x4) := by
  unfold release
  repeat' first
    | with_reducible assumption | with_reducible intro _ | with_reducible apply releaseLine_inv
    | with_reducible apply noteOp_inv | with_reducible apply engineOp_inv | with_reducible apply perform_inv
    | with_reducible apply countOperands_inv | with_reducible apply noteLand_inv | exact good_fault _
    | exact good_refused _ | with_reducible apply good_next | with_reducible apply inv_foldl
    | with_reducible apply inv_foldl1 | dsimp only | split

theorem execRrel_inv (x0 : BitVec 4) (x1 : Md) (x2 : State) (h2 : Inv x2) :
    Good (execRrel x0 x1 x2) := by
  unfold execRrel
  repeat' first
    | with_reducible assumption | with_reducible intro _ | with_reducible apply release_inv

theorem execRrelAll_inv (x0 : Md) (x1 : State) (h1 : Inv x1) :
    Good (execRrelAll x0 x1) := by
  unfold execRrelAll
  repeat' first
    | with_reducible assumption | with_reducible intro _ | with_reducible apply release_inv

theorem execDrain_inv (x0 : RegField) (x1 : BitVec 3) (x2 : Md) (x3 : State) (h3 : Inv x3) :
    Good (execDrain x0 x1 x2 x3) := by
  unfold execDrain
  repeat' first
    | with_reducible assumption | with_reducible intro _ | with_reducible apply drainFrom_inv
    | with_reducible apply noteOp_inv | with_reducible apply engineOp_inv
    | with_reducible apply countOperands_inv | dsimp only | split

end Sys2Proof.Machine
end

