-- ==== Sys2Proof/Laws/InvFabric.lean ====
section
/-! SUPPORT. Memory keeps its canonical form: flits, pieces and recovery. -/

namespace Sys2Proof.Machine

theorem modFlit_inv (x0 : State) (x1 : Nat) (x2 : Flit → Flit) (h0 : Inv x0) :
    Inv (modFlit x0 x1 x2) := by
  unfold modFlit
  repeat' first
    | with_reducible assumption

theorem dropFlit_inv (x0 : State) (x1 : Nat) (h0 : Inv x0) :
    Inv (dropFlit x0 x1) := by
  unfold dropFlit
  repeat' first
    | with_reducible assumption

theorem linkInjectAll_inv (x0 : State) (x1 : Nat) (x2 : Nat) (x3 : Bool) (h0 : Inv x0) :
    Inv (linkInjectAll x0 x1 x2 x3).1 := by
  unfold linkInjectAll
  repeat' first
    | with_reducible assumption | with_reducible intro _ | with_reducible apply modPkg_inv

theorem produceNotice_inv (x0 : State) (x1 : Flit) (x2 : Nat) (h0 : Inv x0) :
    Inv (produceNotice x0 x1 x2) := by
  unfold produceNotice
  repeat' first
    | with_reducible assumption | with_reducible intro _ | with_reducible apply postAt_inv | dsimp only
    | split

theorem sendAgain_inv (x0 : State) (x1 : Notice) (h0 : Inv x0) :
    Inv (sendAgain x0 x1) := by
  unfold sendAgain
  repeat' first
    | with_reducible assumption | with_reducible intro _ | with_reducible apply launchFlit_inv
    | with_reducible apply land_inv | dsimp only | split

theorem execNoticeLanding_inv (x0 : Nat) (x1 : State) (h1 : Inv x1) :
    Good (execNoticeLanding x0 x1) := by
  unfold execNoticeLanding
  repeat' first
    | with_reducible assumption | with_reducible intro _ | with_reducible apply sendAgain_inv
    | with_reducible apply modCore_inv | with_reducible apply good_next | dsimp only | split

theorem declareDead_inv (x0 : State) (x1 : Nat) (x2 : Nat) (h0 : Inv x0) :
    Inv (declareDead x0 x1 x2) := by
  unfold declareDead
  repeat' first
    | with_reducible assumption | with_reducible intro _ | with_reducible apply recordPeer_inv
    | with_reducible apply modPkg_inv | with_reducible apply inv_foldl | with_reducible apply inv_foldl1
    | dsimp only | split

theorem recordDead_inv (x0 : State) (x1 : Nat) (h0 : Inv x0) :
    Inv (recordDead x0 x1) := by
  unfold recordDead
  repeat' first
    | with_reducible assumption | with_reducible intro _ | with_reducible apply recordPeer_inv
    | with_reducible apply inv_foldl | with_reducible apply inv_foldl1

theorem countLoss_inv (x0 : State) (x1 : Nat) (x2 : Nat) (h0 : Inv x0) :
    Inv (countLoss x0 x1 x2) := by
  unfold countLoss
  repeat' first
    | with_reducible assumption | with_reducible intro _ | with_reducible apply declareDead_inv
    | with_reducible apply modPkg_inv | dsimp only | split

theorem countCross_inv (x0 : State) (x1 : Nat) (x2 : Nat) (h0 : Inv x0) :
    Inv (countCross x0 x1 x2) := by
  unfold countCross
  repeat' first
    | with_reducible assumption | with_reducible intro _ | with_reducible apply modPkg_inv | dsimp only
    | split

theorem modJourney_inv (x0 : State) (x1 : Nat) (x2 : Flit → Flit) (h0 : Inv x0) :
    Inv (modJourney x0 x1 x2) := by
  unfold modJourney
  repeat' first
    | with_reducible assumption | with_reducible intro _ | with_reducible apply inv_foldl
    | with_reducible apply inv_foldl1 | dsimp only | split

theorem stopFlit_inv (x0 : State) (x1 : Nat) (x2 : Nat) (h0 : Inv x0) :
    Inv (stopFlit x0 x1 x2) := by
  unfold stopFlit
  repeat' first
    | with_reducible assumption | with_reducible intro _ | with_reducible apply modJourney_inv
    | with_reducible apply inv_foldl | with_reducible apply inv_foldl1 | dsimp only | split

theorem execFlitLost_inv (x0 : Nat) (x1 : State) (h1 : Inv x1) :
    Good (execFlitLost x0 x1) := by
  unfold execFlitLost
  repeat' first
    | with_reducible assumption | with_reducible intro _ | with_reducible apply countLoss_inv
    | with_reducible apply produceNotice_inv | with_reducible apply good_next | dsimp only | split

theorem loseFlit_inv (x0 : State) (x1 : Flit) (x2 : Nat) (x3 : Nat) (h0 : Inv x0) :
    Inv (loseFlit x0 x1 x2 x3) := by
  unfold loseFlit
  repeat' first
    | with_reducible assumption | with_reducible intro _ | with_reducible apply stopFlit_inv
    | with_reducible apply post_inv

theorem bufferPiece_inv (x0 : State) (x1 : Nat) (x2 : Nat) (x3 : List Byte) (x4 : List Nat) (h0 : Inv x0) :
    Inv (bufferPiece x0 x1 x2 x3 x4) := by
  unfold bufferPiece
  repeat' first
    | with_reducible assumption | with_reducible intro _ | with_reducible apply modXfer_inv

theorem arrivedFlit_inv (x0 : State) (x1 : Flit) (h0 : Inv x0) :
    Inv (arrivedFlit x0 x1) := by
  unfold arrivedFlit
  repeat' first
    | with_reducible assumption | with_reducible intro _ | with_reducible apply bufferPiece_inv
    | with_reducible apply dropFlit_inv | with_reducible apply inv_foldl | with_reducible apply inv_foldl1
    | dsimp only | split

theorem postLanding_inv (x0 : State) (x1 : Flit) (h0 : Inv x0) :
    Inv (postLanding x0 x1) := by
  unfold postLanding
  repeat' first
    | with_reducible assumption | with_reducible intro _ | with_reducible apply post_inv
    | with_reducible apply postSub_inv | dsimp only | split

theorem execLinkFlit_inv (x0 : Nat) (x1 : Nat) (x2 : State) (h2 : Inv x2) :
    Good (execLinkFlit x0 x1 x2) := by
  unfold execLinkFlit
  repeat' first
    | with_reducible assumption | with_reducible intro _ | with_reducible apply freeWord_inv
    | with_reducible apply dropFlit_inv | with_reducible apply loseFlit_inv | with_reducible apply modJourney_inv
    | with_reducible apply post_inv | with_reducible apply countCross_inv | with_reducible apply linkInjectAll_inv
    | with_reducible apply stopFlit_inv | with_reducible apply produceNotice_inv
    | with_reducible apply arrivedFlit_inv | with_reducible apply postLanding_inv | exact good_fault _
    | exact good_refused _ | with_reducible apply good_next | with_reducible apply inv_foldl
    | with_reducible apply inv_foldl1 | dsimp only | split

theorem postDeferred_inv (x0 : State) (x1 : Nat) (h0 : Inv x0) :
    Inv (postDeferred x0 x1) := by
  unfold postDeferred
  repeat' first
    | with_reducible assumption | with_reducible intro _ | with_reducible apply postSub_inv | dsimp only
    | split

theorem deferLanding_inv (x0 : State) (x1 : Nat) (x2 : Instr) (h0 : Inv x0) :
    Inv (deferLanding x0 x1 x2) := by
  unfold deferLanding
  repeat' first
    | with_reducible assumption | with_reducible intro _ | with_reducible apply postDeferred_inv
    | with_reducible apply modCore_inv | dsimp only | split

theorem bumpLanding_inv (x0 : State) (x1 : Nat) (x2 : Nat) (x3 : Instr) (h0 : Inv x0) :
    Inv (bumpLanding x0 x1 x2 x3) := by
  unfold bumpLanding
  repeat' first
    | with_reducible assumption | with_reducible intro _ | with_reducible apply postSub_inv
    | with_reducible apply modCore_inv | with_reducible apply land_inv | with_reducible apply inv_foldl
    | with_reducible apply inv_foldl1 | dsimp only | split

theorem takeForeign_inv (x0 : State) (x1 : Nat) (x2 : Nat) (x3 : Nat) (x4 : Bool) (h0 : Inv x0) :
    Inv (takeForeign x0 x1 x2 x3 x4) := by
  unfold takeForeign
  repeat' first
    | with_reducible assumption | with_reducible intro _ | with_reducible apply modCore_inv
    | with_reducible apply inv_foldl | with_reducible apply inv_foldl1 | dsimp only | split

theorem landAt_inv (x0 : State) (x1 : Nat) (x2 : Nat) (x3 : Bool) (x4 : Bool) (x5 : Nat) (x6 : Instr) (x7 : State → State) (h0 : Inv x0) (h7 : ∀ s, Inv s → Inv (x7 s)) :
    Inv (landAt x0 x1 x2 x3 x4 x5 x6 x7) := by
  unfold landAt
  repeat' first
    | with_reducible assumption | with_reducible intro _ | with_reducible apply h7
    | with_reducible apply takeForeign_inv | with_reducible apply bumpLanding_inv
    | with_reducible apply deferLanding_inv | with_reducible apply land_inv | dsimp only | split

theorem poisonBytes_inv (x0 : State) (x1 : Nat) (x2 : List Nat) (h0 : Inv x0) :
    Inv (poisonBytes x0 x1 x2) := by
  unfold poisonBytes
  repeat' first
    | with_reducible assumption | with_reducible intro _ | with_reducible apply setBad_inv
    | with_reducible apply inv_foldl

theorem writeMain_inv (x0 : State) (x1 : List (Nat × Byte)) (x2 : List Nat) (h0 : Inv x0) :
    Inv (writeMain x0 x1 x2) := by
  unfold writeMain
  repeat' first
    | with_reducible assumption | with_reducible intro _ | with_reducible apply poisonBytes_inv
    | with_reducible apply setBad_inv | with_reducible apply memWrite_inv | with_reducible apply inv_foldl
    | with_reducible apply inv_foldl1 | dsimp only | split

theorem restoreLine_inv (x0 : State) (x1 : Nat) (x2 : Nat) (x3 : BitVec 512) (x4 : Nat) (x5 : List (Nat × Nat)) (h0 : Inv x0) :
    Inv (restoreLine x0 x1 x2 x3 x4 x5) := by
  unfold restoreLine
  repeat' first
    | with_reducible assumption | with_reducible intro _ | with_reducible apply dropWritebacks_inv
    | with_reducible apply setBad_inv | with_reducible apply poisonTag_inv
    | with_reducible apply setTag_inv | with_reducible apply memPut_inv | with_reducible apply inv_foldl
    | with_reducible apply inv_foldl1 | dsimp only | split

theorem recordWrite_inv (x0 : State) (x1 : Nat) (x2 : Nat) (x3 : PassId) (h0 : Inv x0) :
    Inv (recordWrite x0 x1 x2 x3) := by
  unfold recordWrite
  repeat' first
    | with_reducible assumption | with_reducible intro _ | with_reducible apply modCore_inv

theorem recordMerge_inv (x0 : State) (x1 : Nat) (x2 : Nat) (x3 : Nat) (x4 : Nat) (x5 : Word) (x6 : PassId) (h0 : Inv x0) :
    Inv (recordMerge x0 x1 x2 x3 x4 x5 x6) := by
  unfold recordMerge
  repeat' first
    | with_reducible assumption | with_reducible intro _ | with_reducible apply modCore_inv

theorem rebuildLine_inv (x0 : State) (x1 : Nat) (x2 : Nat) (h0 : Inv x0) :
    Inv (rebuildLine x0 x1 x2) := by
  unfold rebuildLine
  repeat' first
    | with_reducible assumption | with_reducible intro _ | with_reducible apply restoreLine_inv
    | with_reducible apply modCore_inv | with_reducible apply inv_foldl | with_reducible apply inv_foldl1
    | dsimp only | split

theorem undoInst_inv (x0 : State) (x1 : Nat) (x2 : PassId) (h0 : Inv x0) :
    Inv (undoInst x0 x1 x2) := by
  unfold undoInst
  repeat' first
    | with_reducible assumption | with_reducible intro _ | with_reducible apply rebuildLine_inv
    | with_reducible apply restoreLine_inv | with_reducible apply modCore_inv
    | with_reducible apply inv_foldl | with_reducible apply inv_foldl1 | dsimp only | split

theorem settle_inv (x0 : State) (x1 : Nat) (h0 : Inv x0) :
    Inv (settle x0 x1) := by
  unfold settle
  repeat' first
    | with_reducible assumption | with_reducible intro _ | with_reducible apply undoInst_inv
    | with_reducible apply rebuildLine_inv | with_reducible apply modCore_inv
    | with_reducible apply inv_foldl | with_reducible apply inv_foldl1 | dsimp only | split

theorem stageBytes_inv (x0 : State) (x1 : Flit) (x2 : List (Nat × Byte)) (x3 : List Nat) (x4 : Option Nat) (h0 : Inv x0) :
    Inv (stageBytes x0 x1 x2 x3 x4) := by
  unfold stageBytes
  repeat' first
    | with_reducible assumption | with_reducible intro _ | with_reducible apply recordWrite_inv
    | with_reducible apply poisonBytes_inv | with_reducible apply writeSlice_inv
    | with_reducible apply inv_foldl

theorem unarmedFault_inv (x0 : State) (x1 : Flit) (x2 : Nat) (h0 : Inv x0) :
    Inv (unarmedFault x0 x1 x2) := by
  unfold unarmedFault
  repeat' first
    | with_reducible assumption | with_reducible intro _ | with_reducible apply findFault_inv
    | with_reducible apply inv_foldl | with_reducible apply inv_foldl1 | dsimp only | split

theorem stagedNow_inv (x0 : State) (x1 : Flit) (h0 : Inv x0) :
    Inv (stagedNow x0 x1) := by
  unfold stagedNow
  repeat' first
    | with_reducible assumption | with_reducible intro _ | with_reducible apply unarmedFault_inv
    | with_reducible apply stageBytes_inv | with_reducible apply produceNotice_inv
    | with_reducible apply dropFlit_inv | with_reducible apply inv_foldl | with_reducible apply inv_foldl1
    | dsimp only | split

theorem execStagedWriteLanding_inv (x0 : Nat) (x1 : State) (h1 : Inv x1) :
    Good (execStagedWriteLanding x0 x1) := by
  unfold execStagedWriteLanding
  repeat' first
    | with_reducible assumption | with_reducible intro _ | with_reducible apply stagedNow_inv
    | with_reducible apply writeMain_inv | with_reducible apply landAt_inv
    | with_reducible apply produceNotice_inv | with_reducible apply dropFlit_inv
    | with_reducible apply good_next | dsimp only | split

theorem startAlu_inv (x0 : State) (x1 : BOp) (h0 : Inv x0) :
    Inv (startAlu x0 x1) := by
  unfold startAlu
  repeat' first
    | with_reducible assumption | with_reducible intro _ | with_reducible apply postAt_inv
    | with_reducible apply inv_foldl | with_reducible apply inv_foldl1 | dsimp only | split

theorem aluReadNow_inv (x0 : State) (x1 : Nat) (h0 : Inv x0) :
    Inv (aluReadNow x0 x1) := by
  unfold aluReadNow
  repeat' first
    | with_reducible assumption | with_reducible intro _ | with_reducible apply findFault_inv
    | with_reducible apply countLoad_inv | with_reducible apply inv_foldl | with_reducible apply inv_foldl1
    | dsimp only | split

theorem ratomNow_inv (x0 : State) (x1 : Flit) (h0 : Inv x0) :
    Inv (ratomNow x0 x1) := by
  unfold ratomNow
  repeat' first
    | with_reducible assumption | with_reducible intro _ | with_reducible apply recordWrite_inv
    | with_reducible apply startAlu_inv | with_reducible apply produceNotice_inv | with_reducible apply dropFlit_inv
    | with_reducible apply inv_foldl | with_reducible apply inv_foldl1 | dsimp only | split

theorem execRatomLanding_inv (x0 : Nat) (x1 : State) (h1 : Inv x1) :
    Good (execRatomLanding x0 x1) := by
  unfold execRatomLanding
  repeat' first
    | with_reducible assumption | with_reducible intro _ | with_reducible apply ratomNow_inv
    | with_reducible apply landAt_inv | with_reducible apply good_next | dsimp only | split

theorem mergeNow_inv (x0 : State) (x1 : Flit) (x2 : Nat) (h0 : Inv x0) :
    Inv (mergeNow x0 x1 x2) := by
  unfold mergeNow
  repeat' first
    | with_reducible assumption | with_reducible intro _ | with_reducible apply startAlu_inv
    | with_reducible apply dropFlit_inv | with_reducible apply inv_foldl | with_reducible apply inv_foldl1
    | dsimp only | split

theorem landLine_inv (x0 : State) (x1 : Flit) (x2 : List (Nat × Word)) (x3 : Nat) (x4 : Nat) (h0 : Inv x0) :
    Inv (landLine x0 x1 x2 x3 x4) := by
  unfold landLine
  repeat' first
    | with_reducible assumption | with_reducible intro _ | with_reducible apply postSub_inv
    | with_reducible apply land_inv | with_reducible apply modFlit_inv | with_reducible apply recordMerge_inv
    | with_reducible apply inv_foldl | with_reducible apply inv_foldl1 | dsimp only | split

theorem execReductionMerge_inv (x0 : Nat) (x1 : Nat) (x2 : State) (h2 : Inv x2) :
    Good (execReductionMerge x0 x1 x2) := by
  unfold execReductionMerge
  repeat' first
    | with_reducible assumption | with_reducible intro _ | with_reducible apply landLine_inv
    | with_reducible apply mergeNow_inv | with_reducible apply landAt_inv
    | with_reducible apply produceNotice_inv | with_reducible apply dropFlit_inv
    | with_reducible apply modFlit_inv | with_reducible apply good_next | dsimp only | split

theorem withdrawAcquire_inv (x0 : State) (x1 : Option OpRef) (h0 : Inv x0) :
    Inv (withdrawAcquire x0 x1) := by
  unfold withdrawAcquire
  repeat' first
    | with_reducible assumption | with_reducible intro _ | with_reducible apply modCore_inv | dsimp only
    | split

theorem execBankAluWrite_inv (x0 : Nat) (x1 : State) (h1 : Inv x1) :
    Good (execBankAluWrite x0 x1) := by
  unfold execBankAluWrite
  repeat' first
    | with_reducible assumption | with_reducible intro _ | with_reducible apply withdrawAcquire_inv
    | with_reducible apply poisonBytes_inv | with_reducible apply logLine_inv
    | with_reducible apply launchFlit_inv | with_reducible apply writeSlice_inv
    | with_reducible apply good_next | dsimp only | split

theorem addNow_inv (x0 : State) (x1 : Nat) (x2 : Nat) (x3 : Nat) (h0 : Inv x0) :
    Inv (addNow x0 x1 x2 x3) := by
  unfold addNow
  repeat' first
    | with_reducible assumption | with_reducible intro _ | with_reducible apply startAlu_inv
    | with_reducible apply inv_foldl | with_reducible apply inv_foldl1 | dsimp only | split

theorem execGangCompletionAdd_inv (x0 : Nat) (x1 : Nat) (x2 : Nat) (x3 : State) (h3 : Inv x3) :
    Good (execGangCompletionAdd x0 x1 x2 x3) := by
  unfold execGangCompletionAdd
  repeat' first
    | with_reducible assumption | with_reducible intro _ | with_reducible apply addNow_inv
    | with_reducible apply landAt_inv | exact good_fault _ | exact good_refused _
    | with_reducible apply good_next

theorem execCommitFlitLanding_inv (x0 : Nat) (x1 : State) (h1 : Inv x1) :
    Good (execCommitFlitLanding x0 x1) := by
  unfold execCommitFlitLanding
  repeat' first
    | with_reducible assumption | with_reducible intro _ | with_reducible apply undoInst_inv
    | with_reducible apply produceNotice_inv | with_reducible apply dropFlit_inv
    | with_reducible apply commitCheck_inv | with_reducible apply modCore_inv
    | with_reducible apply good_next | dsimp only | split

theorem execRecallFlitLanding_inv (x0 : Nat) (x1 : State) (h1 : Inv x1) :
    Good (execRecallFlitLanding x0 x1) := by
  unfold execRecallFlitLanding
  repeat' first
    | with_reducible assumption | with_reducible intro _ | with_reducible apply undoInst_inv
    | with_reducible apply dropFlit_inv | with_reducible apply good_next | dsimp only | split

theorem execRemoteRead_inv (x0 : Nat) (x1 : State) (h1 : Inv x1) :
    Good (execRemoteRead x0 x1) := by
  unfold execRemoteRead
  repeat' first
    | with_reducible assumption | with_reducible intro _ | with_reducible apply produceNotice_inv
    | with_reducible apply dropFlit_inv | with_reducible apply launchFlit_inv
    | with_reducible apply countCopy_inv | with_reducible apply modCore_inv
    | with_reducible apply good_next | dsimp only | split

theorem replyNow_inv (x0 : State) (x1 : Nat) (h0 : Inv x0) :
    Inv (replyNow x0 x1) := by
  unfold replyNow
  repeat' first
    | with_reducible assumption | with_reducible intro _ | with_reducible apply modCore_inv
    | with_reducible apply freeWord_inv | with_reducible apply dropFlit_inv | with_reducible apply inv_foldl
    | with_reducible apply inv_foldl1 | dsimp only | split

theorem execTiming_inv (x0 : Nat) (x1 : Nat) (x2 : State) (h2 : Inv x2) :
    Good (execTiming x0 x1 x2) := by
  unfold execTiming
  repeat' first
    | with_reducible assumption | with_reducible intro _ | with_reducible apply findFault_inv
    | with_reducible apply modCore_inv | exact good_fault _ | exact good_refused _ | with_reducible apply good_next
    | with_reducible apply inv_foldl | with_reducible apply inv_foldl1 | dsimp only | split

theorem putOffDrain_inv (x0 : State) (x1 : Nat) (x2 : Nat) (x3 : Nat × Nat × Nat × Bool × Nat) (h0 : Inv x0) :
    Inv (putOffDrain x0 x1 x2 x3) := by
  unfold putOffDrain
  repeat' first
    | with_reducible assumption | with_reducible intro _ | with_reducible apply reserve_inv
    | with_reducible apply noteLand_inv | with_reducible apply freeFar_inv | with_reducible apply modCore_inv
    | with_reducible apply inv_foldl | with_reducible apply inv_foldl1 | dsimp only | split

theorem drainDecideNow_inv (x0 : State) (x1 : Nat) (x2 : Nat) (h0 : Inv x0) :
    Inv (drainDecideNow x0 x1 x2) := by
  unfold drainDecideNow
  repeat' first
    | with_reducible assumption | with_reducible intro _ | with_reducible apply putOffDrain_inv
    | with_reducible apply postAt_inv | with_reducible apply inv_foldl | with_reducible apply inv_foldl1 | dsimp only
    | split

theorem execDrainComplete_inv (x0 : Nat) (x1 : Nat) (x2 : State) (h2 : Inv x2) :
    Good (execDrainComplete x0 x1 x2) := by
  unfold execDrainComplete
  repeat' first
    | with_reducible assumption | with_reducible intro _ | with_reducible apply modCore_inv
    | with_reducible apply freeWord_inv | exact good_fault _ | exact good_refused _ | with_reducible apply good_next
    | with_reducible apply inv_foldl | with_reducible apply inv_foldl1 | dsimp only | split

theorem execPeerSetUpdate_inv (x0 : Nat) (x1 : Peer) (x2 : State) (h2 : Inv x2) :
    Good (execPeerSetUpdate x0 x1 x2) := by
  unfold execPeerSetUpdate
  repeat' first
    | with_reducible assumption | with_reducible intro _ | with_reducible apply modCore_inv
    | exact good_fault _ | exact good_refused _ | with_reducible apply good_next
    | with_reducible apply inv_foldl

theorem execPackageLost_inv (x0 : Nat) (x1 : State) (h1 : Inv x1) :
    Good (execPackageLost x0 x1) := by
  unfold execPackageLost
  repeat' first
    | with_reducible assumption | with_reducible intro _ | with_reducible apply recordAt_inv
    | with_reducible apply decideFreeze_inv | with_reducible apply modPkg_inv
    | with_reducible apply good_next | with_reducible apply inv_foldl | with_reducible apply inv_foldl1
    | dsimp only | split

theorem execCoreLost_inv (x0 : Nat) (x1 : State) (h1 : Inv x1) :
    Good (execCoreLost x0 x1) := by
  unfold execCoreLost
  repeat' first
    | with_reducible assumption | with_reducible intro _ | with_reducible apply freezeFailed_inv
    | with_reducible apply recordPeer_inv | with_reducible apply good_next | dsimp only | split

theorem landFooter_inv (x0 : State) (x1 : Nat) (x2 : Nat) (x3 : Nat) (x4 : List (List Byte)) (x5 : List Nat) (h0 : Inv x0) :
    Inv (landFooter x0 x1 x2 x3 x4 x5) := by
  unfold landFooter
  repeat' first
    | with_reducible assumption | with_reducible intro _ | with_reducible apply setCore_inv

theorem pieceRead_inv (x0 : State) (x1 : Nat) (x2 : Nat) (x3 : Nat) (x4 : Nat) (x5 : Nat) (h0 : Inv x0) :
    Inv (pieceRead x0 x1 x2 x3 x4 x5).1 := by
  unfold pieceRead
  repeat' first
    | with_reducible assumption | with_reducible intro _ | with_reducible apply countReads_inv
    | with_reducible apply countCopy_inv | with_reducible apply countWords_inv
    | with_reducible apply inv_foldl | with_reducible apply inv_foldl1 | dsimp only | split

theorem pieceSend_inv (x0 : State) (x1 : Xfer) (x2 : Nat) (x3 : Nat) (x4 : Nat) (x5 : List Byte) (x6 : List Nat) (h0 : Inv x0) :
    Inv (pieceSend x0 x1 x2 x3 x4 x5 x6) := by
  unfold pieceSend
  repeat' first
    | with_reducible assumption | with_reducible intro _ | with_reducible apply bufferPiece_inv
    | with_reducible apply launchFlit_inv | with_reducible apply inv_foldl | dsimp only | split

theorem pieceFetch_inv (x0 : State) (x1 : Xfer) (x2 : Nat) (x3 : List Byte) (x4 : List Nat) (h0 : Inv x0) :
    Inv (pieceFetch x0 x1 x2 x3 x4) := by
  unfold pieceFetch
  repeat' first
    | with_reducible assumption | with_reducible intro _ | with_reducible apply bufferPiece_inv
    | with_reducible apply launchFlit_inv | with_reducible apply post_inv | dsimp only | split

theorem pieceFirst_inv (x0 : State) (x1 : Xfer) (x2 : Nat) (h0 : Inv x0) :
    Inv (pieceFirst x0 x1 x2) := by
  unfold pieceFirst
  repeat' first
    | with_reducible assumption | with_reducible intro _ | with_reducible apply pieceFetch_inv
    | with_reducible apply pieceSend_inv | with_reducible apply pieceRead_inv
    | with_reducible apply produceNotice_inv | with_reducible apply modCore_inv | dsimp only | split

theorem pieceWrite_inv (x0 : State) (x1 : Xfer) (x2 : Nat) (h0 : Inv x0) :
    Inv (pieceWrite x0 x1 x2) := by
  unfold pieceWrite
  repeat' first
    | with_reducible assumption | with_reducible intro _ | with_reducible apply poisonBytes_inv
    | with_reducible apply writeSlice_inv | with_reducible apply inv_foldl | with_reducible apply inv_foldl1
    | dsimp only | split

theorem pieceSecond_inv (x0 : State) (x1 : Xfer) (x2 : Nat) (h0 : Inv x0) :
    Inv (pieceSecond x0 x1 x2) := by
  unfold pieceSecond
  repeat' first
    | with_reducible assumption | with_reducible intro _ | with_reducible apply pieceWrite_inv
    | with_reducible apply deferLanding_inv | with_reducible apply postAt_inv | dsimp only | split

theorem askStack_inv (x0 : State) (x1 : Nat) (x2 : Nat) (x3 : Nat) (h0 : Inv x0) :
    Inv (askStack x0 x1 x2 x3) := by
  unfold askStack
  repeat' first
    | with_reducible assumption | with_reducible intro _ | with_reducible apply post_inv | dsimp only
    | split

theorem execPieceTransfer_inv (x0 : Nat) (x1 : Nat) (x2 : Bool) (x3 : State) (h3 : Inv x3) :
    Good (execPieceTransfer x0 x1 x2 x3) := by
  unfold execPieceTransfer
  repeat' first
    | with_reducible assumption | with_reducible intro _ | with_reducible apply pieceSecond_inv
    | with_reducible apply pieceFirst_inv | with_reducible apply good_next | dsimp only | split

theorem pieceBankNow_inv (x0 : State) (x1 : Nat) (x2 : Nat) (x3 : Nat) (x4 : Nat) (h0 : Inv x0) :
    Inv (pieceBankNow x0 x1 x2 x3 x4) := by
  unfold pieceBankNow
  repeat' first
    | with_reducible assumption | with_reducible intro _ | with_reducible apply findFault_inv
    | with_reducible apply inv_foldl | with_reducible apply inv_foldl1 | dsimp only | split

theorem execDeliver_inv (x0 : Nat) (x1 : Nat) (x2 : State) (h2 : Inv x2) :
    Good (execDeliver x0 x1 x2) := by
  unfold execDeliver
  repeat' first
    | with_reducible assumption | with_reducible intro _ | with_reducible apply modXfer_inv
    | with_reducible apply findFault_inv | exact good_fault _ | exact good_refused _ | with_reducible apply good_next
    | with_reducible apply inv_foldl | with_reducible apply inv_foldl1 | dsimp only | split

theorem refuseFooter_inv (x0 : State) (x1 : Xfer) (x2 : Nat) (x3 : Nat) (h0 : Inv x0) :
    Inv (refuseFooter x0 x1 x2 x3) := by
  unfold refuseFooter
  repeat' first
    | with_reducible assumption | with_reducible intro _ | with_reducible apply produceNotice_inv
    | with_reducible apply inv_foldl | with_reducible apply inv_foldl1 | dsimp only | split

theorem landXfer_inv (x0 : State) (x1 : Nat) (h0 : Inv x0) :
    Inv (landXfer x0 x1) := by
  unfold landXfer
  repeat' first
    | with_reducible assumption | with_reducible intro _ | with_reducible apply landFooter_inv
    | with_reducible apply refuseFooter_inv | with_reducible apply modCore_inv | with_reducible apply inv_foldl
    | with_reducible apply inv_foldl1 | dsimp only | split

theorem execCodeFillLanding_inv (x0 : Nat) (x1 : Nat) (x2 : Nat) (x3 : State) (h3 : Inv x3) :
    Good (execCodeFillLanding x0 x1 x2 x3) := by
  unfold execCodeFillLanding
  repeat' first
    | with_reducible assumption | with_reducible intro _ | with_reducible apply modCore_inv
    | with_reducible apply good_next | with_reducible apply inv_foldl | dsimp only | split

theorem wakeHostWaits_inv (x0 : State) (x1 : Nat) (h0 : Inv x0) :
    Inv (wakeHostWaits x0 x1) := by
  unfold wakeHostWaits
  repeat' first
    | with_reducible assumption | with_reducible intro _ | with_reducible apply clearReason_inv
    | with_reducible apply rdvTry_inv | with_reducible apply setRdv_inv | with_reducible apply inv_foldl
    | with_reducible apply inv_foldl1 | dsimp only | split

theorem completeHcpy_inv (x0 : State) (x1 : Xfer) (h0 : Inv x0) :
    Inv (completeHcpy x0 x1) := by
  unfold completeHcpy
  repeat' first
    | with_reducible assumption | with_reducible intro _ | with_reducible apply wakeHostWaits_inv
    | with_reducible apply modPart_inv | with_reducible apply inv_foldl | with_reducible apply inv_foldl1
    | dsimp only | split

theorem queueHcpy_inv (x0 : State) (x1 : Nat) (h0 : Inv x0) :
    Inv (queueHcpy x0 x1) := by
  unfold queueHcpy
  repeat' first
    | with_reducible assumption | with_reducible intro _ | with_reducible apply modXfer_inv
    | with_reducible apply postAt_inv | with_reducible apply modPart_inv | with_reducible apply modCore_inv
    | with_reducible apply inv_foldl | with_reducible apply inv_foldl1 | dsimp only | split

theorem moveHcpy_inv (x0 : State) (x1 : Xfer) (x2 : Nat) (h0 : Inv x0) :
    Inv (moveHcpy x0 x1 x2) := by
  unfold moveHcpy
  repeat' first
    | with_reducible assumption | with_reducible intro _ | with_reducible apply completeHcpy_inv
    | with_reducible apply pieceRead_inv | with_reducible apply writeMain_inv
    | with_reducible apply poisonBytes_inv | with_reducible apply writeSlice_inv | dsimp only | split

theorem execHcpyPiece_inv (x0 : Nat) (x1 : Nat) (x2 : State) (h2 : Inv x2) :
    Good (execHcpyPiece x0 x1 x2) := by
  unfold execHcpyPiece
  repeat' first
    | with_reducible assumption | with_reducible intro _ | with_reducible apply moveHcpy_inv
    | with_reducible apply good_next | dsimp only | split

theorem svcNow_inv (x0 : State) (x1 : Nat) (x2 : Svc) (h0 : Inv x0) :
    Inv (svcNow x0 x1 x2) := by
  unfold svcNow
  repeat' first
    | with_reducible assumption | with_reducible intro _ | with_reducible apply moveHcpy_inv
    | with_reducible apply countCopy_inv | with_reducible apply writeSliceAs_inv
    | with_reducible apply modCore_inv | dsimp only | split

theorem takeSvcPort_inv (x0 : State) (x1 : Nat) (x2 : Nat) (x3 : Bool) (h0 : Inv x0) :
    Inv (takeSvcPort x0 x1 x2 x3) := by
  unfold takeSvcPort
  repeat' first
    | with_reducible assumption | with_reducible intro _ | with_reducible apply modCore_inv
    | with_reducible apply inv_foldl | with_reducible apply inv_foldl1 | dsimp only | split

theorem execServiceAccess_inv (x0 : Nat) (x1 : State) (h1 : Inv x1) :
    Good (execServiceAccess x0 x1) := by
  unfold execServiceAccess
  repeat' first
    | with_reducible assumption | with_reducible intro _ | with_reducible apply modCore_inv
    | with_reducible apply takeSvcPort_inv | with_reducible apply svcNow_inv | exact good_fault _
    | exact good_refused _ | with_reducible apply good_next | with_reducible apply inv_foldl
    | with_reducible apply inv_foldl1 | dsimp only | split

theorem hostCancelJob_inv (x0 : State) (x1 : Nat) (h0 : Inv x0) :
    Inv (hostCancelJob x0 x1) := by
  unfold hostCancelJob
  repeat' first
    | with_reducible assumption | with_reducible intro _ | with_reducible apply post_inv
    | with_reducible apply inv_foldl

theorem reportLine_inv (x0 : State) (x1 : Nat) (x2 : Nat) (h0 : Inv x0) :
    Inv (reportLine x0 x1 x2) := by
  unfold reportLine
  repeat' first
    | with_reducible assumption | with_reducible intro _ | with_reducible apply hostCancelJob_inv
    | with_reducible apply setBad_inv | with_reducible apply memPut_inv | with_reducible apply inv_foldl
    | dsimp only | split

theorem dredgeAt_inv (x0 : State) (x1 : Nat) (x2 : Nat) (x3 : Nat) (x4 : Nat) (h0 : Inv x0) :
    Inv (dredgeAt x0 x1 x2 x3 x4) := by
  unfold dredgeAt
  repeat' first
    | with_reducible assumption | with_reducible intro _ | with_reducible apply reportLine_inv
    | with_reducible apply postError_inv | with_reducible apply inv_foldl
    | with_reducible apply inv_foldl1 | dsimp only | split

theorem dredgeLine_inv (x0 : State) (x1 : Nat) (x2 : Nat) (h0 : Inv x0) :
    Inv (dredgeLine x0 x1 x2) := by
  unfold dredgeLine
  repeat' first
    | with_reducible assumption | with_reducible intro _ | with_reducible apply dredgeAt_inv
    | with_reducible apply post_inv | dsimp only | split

theorem cleanLine_inv (x0 : State) (x1 : Nat) (h0 : Inv x0) :
    Inv (cleanLine x0 x1) := by
  unfold cleanLine
  repeat' first
    | with_reducible assumption | with_reducible intro _ | with_reducible apply setBad_inv
    | with_reducible apply inv_foldl | dsimp only | split

theorem cleanWord_inv (x0 : State) (x1 : Nat) (x2 : Nat) (x3 : Nat) (h0 : Inv x0) :
    Inv (cleanWord x0 x1 x2 x3) := by
  unfold cleanWord
  repeat' first
    | with_reducible assumption | with_reducible intro _ | with_reducible apply modCore_inv
    | with_reducible apply setBad_inv | with_reducible apply inv_foldl | with_reducible apply inv_foldl1 | dsimp only
    | split

theorem postScrub_inv (x0 : State) (x1 : Nat) (x2 : Nat) (x3 : Nat) (x4 : Nat) (h0 : Inv x0) :
    Inv (postScrub x0 x1 x2 x3 x4) := by
  unfold postScrub
  repeat' first
    | with_reducible assumption | with_reducible intro _ | with_reducible apply post_inv
    | with_reducible apply inv_foldl | with_reducible apply inv_foldl1 | dsimp only | split

theorem dredgeWords_inv (x0 : State) (x1 : Nat) (x2 : Nat) (x3 : Nat) (x4 : Nat) (h0 : Inv x0) :
    Inv (dredgeWords x0 x1 x2 x3 x4) := by
  unfold dredgeWords
  repeat' first
    | with_reducible assumption | with_reducible intro _ | with_reducible apply postScrub_inv
    | with_reducible apply postError_inv | with_reducible apply inv_foldl | with_reducible apply inv_foldl1
    | dsimp only | split

theorem scrubNow_inv (x0 : State) (x1 : Nat) (x2 : Nat) (x3 : Nat) (x4 : List Nat) (x5 : List (Nat × Nat)) (h0 : Inv x0) :
    Inv (scrubNow x0 x1 x2 x3 x4 x5) := by
  unfold scrubNow
  repeat' first
    | with_reducible assumption | with_reducible intro _ | with_reducible apply cleanWord_inv
    | with_reducible apply inv_foldl | with_reducible apply inv_foldl1 | dsimp only | split

theorem stepDredge_inv (x0 : State) (x1 : Nat) (x2 : Nat) (x3 : Nat) (h0 : Inv x0) :
    Inv (stepDredge x0 x1 x2 x3) := by
  unfold stepDredge
  repeat' first
    | with_reducible assumption | with_reducible intro _ | with_reducible apply modCore_inv | dsimp only
    | split

theorem dredgeArray_inv (x0 : State) (x1 : Nat) (x2 : Nat × Nat × Nat × Nat) (h0 : Inv x0) :
    Inv (dredgeArray x0 x1 x2) := by
  unfold dredgeArray
  repeat' first
    | with_reducible assumption | with_reducible intro _ | with_reducible apply stepDredge_inv
    | with_reducible apply dredgeWords_inv

theorem dredgeShadow_inv (x0 : State) (x1 : Nat) (h0 : Inv x0) :
    Inv (dredgeShadow x0 x1) := by
  unfold dredgeShadow
  repeat' first
    | with_reducible assumption | with_reducible intro _ | with_reducible apply dredgeWords_inv
    | with_reducible apply stepDredge_inv | with_reducible apply inv_foldl | with_reducible apply inv_foldl1
    | dsimp only | split

theorem dredgeStore_inv (x0 : State) (x1 : Nat) (x2 : Nat) (h0 : Inv x0) :
    Inv (dredgeStore x0 x1 x2) := by
  unfold dredgeStore
  repeat' first
    | with_reducible assumption | with_reducible intro _ | with_reducible apply postScrub_inv
    | with_reducible apply dredgeAt_inv | with_reducible apply inv_foldl | with_reducible apply inv_foldl1
    | dsimp only | split

theorem dredgeLayer_inv (x0 : State) (x1 : Nat) (h0 : Inv x0) :
    Inv (dredgeLayer x0 x1) := by
  unfold dredgeLayer
  repeat' first
    | with_reducible assumption | with_reducible intro _ | with_reducible apply dredgeWords_inv
    | with_reducible apply stepDredge_inv | with_reducible apply askRepair_inv | with_reducible apply dredgeStore_inv
    | with_reducible apply inv_foldl | with_reducible apply inv_foldl1 | dsimp only | split

theorem dredgeCore_inv (x0 : State) (x1 : Nat) (h0 : Inv x0) :
    Inv (dredgeCore x0 x1) := by
  unfold dredgeCore
  repeat' first
    | with_reducible assumption | with_reducible intro _ | with_reducible apply dredgeShadow_inv
    | with_reducible apply dredgeArray_inv | with_reducible apply dredgeLine_inv
    | with_reducible apply modCore_inv | with_reducible apply inv_foldl
    | with_reducible apply inv_foldl1 | dsimp only | split

theorem execDredgerStep_inv (x0 : Nat) (x1 : State) (h1 : Inv x1) :
    Good (execDredgerStep x0 x1) := by
  unfold execDredgerStep
  repeat' first
    | with_reducible assumption | with_reducible intro _ | with_reducible apply dredgeCore_inv
    | with_reducible apply dredgeLayer_inv | with_reducible apply good_next | dsimp only | split

theorem execDredgerWriteback_inv (x0 : Nat) (x1 : Nat) (x2 : State) (h2 : Inv x2) :
    Good (execDredgerWriteback x0 x1 x2) := by
  unfold execDredgerWriteback
  repeat' first
    | with_reducible assumption | with_reducible intro _ | with_reducible apply cleanLine_inv
    | with_reducible apply post_inv | with_reducible apply good_next | dsimp only | split

theorem execUndoWriteback_inv (x0 : Nat) (x1 : State) (h1 : Inv x1) :
    Good (execUndoWriteback x0 x1) := by
  unfold execUndoWriteback
  repeat' first
    | with_reducible assumption | with_reducible intro _ | with_reducible apply restoreLine_inv
    | with_reducible apply postError_inv | with_reducible apply postAt_inv
    | with_reducible apply modCore_inv | with_reducible apply good_next | dsimp only | split

theorem execHandlerEntry_inv (x0 : Nat) (x1 : State) (h1 : Inv x1) :
    Good (execHandlerEntry x0 x1) := by
  unfold execHandlerEntry
  repeat' first
    | with_reducible assumption | with_reducible intro _ | with_reducible apply stopCore_inv
    | with_reducible apply postAt_inv | with_reducible apply modCore_inv | exact good_fault _
    | exact good_refused _ | with_reducible apply good_next | with_reducible apply inv_foldl
    | with_reducible apply inv_foldl1 | dsimp only | split

theorem takeHeld_inv (x0 : State) (x1 : Nat) (x2 : Roll) (x3 : Pass) (x4 : Tab (BitVec 32)) (x5 : FaultRec) (h0 : Inv x0) :
    Inv (takeHeld x0 x1 x2 x3 x4 x5) := by
  unfold takeHeld
  repeat' first
    | with_reducible assumption | with_reducible intro _ | with_reducible apply rollback_inv
    | with_reducible apply modCore_inv | dsimp only | split

theorem execSegmentReentry_inv (x0 : Nat) (x1 : State) (h1 : Inv x1) :
    Good (execSegmentReentry x0 x1) := by
  unfold execSegmentReentry
  repeat' first
    | with_reducible assumption | with_reducible intro _ | with_reducible apply takeHeld_inv
    | with_reducible apply sendCommits_inv | with_reducible apply postAt_inv
    | with_reducible apply modCore_inv | with_reducible apply good_next | dsimp only | split

theorem deferredUse_inv (s : State) (i : Instr) (off : Nat) (alu : Bool) (act : State → State)
    (h : deferredUse s i = some (off, alu, act)) (t : State) (ht : Inv t) : Inv (act t) := by
  unfold deferredUse at h
  split at h
  · obtain ⟨f0, -, h⟩ := Option.bind_eq_some_iff.mp h
    split at h
    · cases h; exact stagedNow_inv _ _ ht
    · cases h
  · obtain ⟨f, -, h⟩ := Option.bind_eq_some_iff.mp h
    split at h
    · cases h; exact ratomNow_inv _ _ ht
    · cases h
  · obtain ⟨f, -, h⟩ := Option.bind_eq_some_iff.mp h
    split at h
    · cases h; exact mergeNow_inv _ _ _ ht
    · cases h
  · cases h; exact addNow_inv _ _ _ _ ht
  · obtain ⟨x, -, h⟩ := Option.map_eq_some_iff.mp h
    cases h
    dsimp only
    split
    · exact ht
    · exact pieceWrite_inv _ _ _ ht
  · cases h

theorem deferredStep_inv (g : Nat) (s : State) (d : Nat × Instr) (h : Inv s) : Inv (deferredStep g s d) := by
  unfold deferredStep
  dsimp only
  split
  · exact h
  · rename_i off alu act hu
    have ha := deferredUse_inv s d.2 off alu act hu _ (takeForeign_inv s g off (cnow s g) alu h)
    exact inv_ite (modCore_inv _ _ _ h) (modCore_inv _ _ _ ha)

theorem execDeferredLanding_inv (x0 : Nat) (x1 : State) (h1 : Inv x1) :
    Good (execDeferredLanding x0 x1) := by
  unfold execDeferredLanding
  repeat' first
    | with_reducible assumption | with_reducible intro _ | with_reducible apply deferredStep_inv
    | with_reducible apply postDeferred_inv | with_reducible apply modCore_inv
    | with_reducible apply good_next | with_reducible apply inv_foldl | dsimp only | split

theorem execCycslip_inv (x0 : Nat) (x1 : State) (h1 : Inv x1) :
    Good (execCycslip x0 x1) := by
  unfold execCycslip
  repeat' first
    | with_reducible assumption | with_reducible intro _ | with_reducible apply findFault_inv | exact good_fault _
    | exact good_refused _ | with_reducible apply good_next | with_reducible apply inv_foldl
    | with_reducible apply inv_foldl1 | dsimp only | split

theorem shiftTide_inv (x0 : State) (x1 : Nat) (h0 : Inv x0) :
    Inv (shiftTide x0 x1) := by
  unfold shiftTide
  repeat' first
    | with_reducible assumption

theorem holdHorizon_inv (x0 : State) (x1 : Nat) (h0 : Inv x0) :
    Inv (holdHorizon x0 x1) := by
  unfold holdHorizon
  repeat' first
    | with_reducible assumption | with_reducible intro _ | with_reducible apply shiftTide_inv
    | with_reducible apply postAt_inv | with_reducible apply modCore_inv | with_reducible apply inv_foldl
    | with_reducible apply inv_foldl1 | dsimp only | split

theorem execHorizonResume_inv (x0 : Nat) (x1 : State) (h1 : Inv x1) :
    Good (execHorizonResume x0 x1) := by
  unfold execHorizonResume
  repeat' first
    | with_reducible assumption | with_reducible intro _ | with_reducible apply modCore_inv
    | exact good_fault _ | exact good_refused _ | with_reducible apply good_next
    | with_reducible apply inv_foldl | with_reducible apply inv_foldl1 | dsimp only | split

end Sys2Proof.Machine
end

