-- ==== Sys2Proof/Laws/InvLaunch.lean ====
section
/-! SUPPORT. Memory keeps its canonical form: launches, boot and the map. -/

namespace Sys2Proof.Machine

theorem modLaunch_inv (x0 : State) (x1 : Nat) (x2 : Nat) (x3 : Launch → Launch) (h0 : Inv x0) :
    Inv (modLaunch x0 x1 x2 x3) := by
  unfold modLaunch
  repeat' first
    | with_reducible assumption | with_reducible intro _ | with_reducible apply modPart_inv

theorem unitDone_inv (x0 : State) (x1 : Nat) (h0 : Inv x0) :
    Inv (unitDone x0 x1) := by
  unfold unitDone
  repeat' first
    | with_reducible assumption | with_reducible intro _ | with_reducible apply modLaunch_inv
    | with_reducible apply inv_foldl | with_reducible apply inv_foldl1 | dsimp only | split

theorem leaveLaunch_inv (x0 : State) (x1 : Nat) (h0 : Inv x0) :
    Inv (leaveLaunch x0 x1) := by
  unfold leaveLaunch
  repeat' first
    | with_reducible assumption | with_reducible intro _ | with_reducible apply modLaunch_inv
    | with_reducible apply modPart_inv | dsimp only | split

theorem berthOver_inv (x0 : State) (x1 : Nat) (h0 : Inv x0) :
    Inv (berthOver x0 x1) := by
  unfold berthOver
  repeat' first
    | with_reducible assumption | with_reducible intro _ | with_reducible apply leaveLaunch_inv
    | dsimp only | split

theorem arriveIdle_inv (x0 : State) (x1 : Nat) (h0 : Inv x0) :
    Inv (arriveIdle x0 x1) := by
  unfold arriveIdle
  repeat' first
    | with_reducible assumption | with_reducible intro _ | with_reducible apply arriveRdv_inv
    | with_reducible apply modCore_inv | with_reducible apply inv_foldl | with_reducible apply inv_foldl1
    | dsimp only | split

theorem execCoreIdle_inv (x0 : Nat) (x1 : State) (h1 : Inv x1) :
    Good (execCoreIdle x0 x1) := by
  unfold execCoreIdle
  repeat' first
    | with_reducible assumption | with_reducible intro _ | with_reducible apply arriveIdle_inv
    | exact good_fault _ | exact good_refused _ | with_reducible apply good_next
    | with_reducible apply inv_foldl | with_reducible apply inv_foldl1 | dsimp only | split

theorem execCancelVisible_inv (x0 : Nat) (x1 : BitVec 2) (x2 : BitVec 16) (x3 : State) (h3 : Inv x3) :
    Good (execCancelVisible x0 x1 x2 x3) := by
  unfold execCancelVisible
  repeat' first
    | with_reducible assumption | with_reducible intro _ | with_reducible apply modPart_inv
    | with_reducible apply good_next | dsimp only | split

theorem abandonUnit_inv (x0 : State) (x1 : Nat) (x2 : Nat) (h0 : Inv x0) :
    Inv (abandonUnit x0 x1 x2) := by
  unfold abandonUnit
  repeat' first
    | with_reducible assumption | with_reducible intro _ | with_reducible apply postAt_inv
    | with_reducible apply modCore_inv | with_reducible apply newUnit_inv | with_reducible apply launchFlit_inv
    | with_reducible apply inv_foldl | with_reducible apply inv_foldl1 | dsimp only | split

theorem stopUnit_inv (x0 : State) (x1 : Nat) (x2 : Nat) (h0 : Inv x0) :
    Inv (stopUnit x0 x1 x2) := by
  unfold stopUnit
  repeat' first
    | with_reducible assumption | with_reducible intro _ | with_reducible apply newUnit_inv
    | with_reducible apply leaveLaunch_inv | with_reducible apply arriveIdle_inv | with_reducible apply modLaunch_inv
    | with_reducible apply inv_foldl | with_reducible apply inv_foldl1 | dsimp only | split

theorem takePubs_inv (x0 : State) (x1 : Nat) (x2 : Nat) (h0 : Inv x0) :
    Inv (takePubs x0 x1 x2) := by
  unfold takePubs
  repeat' first
    | with_reducible assumption | with_reducible intro _ | with_reducible apply modLaunch_inv
    | dsimp only | split

theorem leaveRdv_inv (x0 : State) (x1 : Nat) (x2 : Nat) (x3 : Nat) (h0 : Inv x0) :
    Inv (leaveRdv x0 x1 x2 x3) := by
  unfold leaveRdv
  repeat' first
    | with_reducible assumption | with_reducible intro _ | with_reducible apply postAt_inv
    | with_reducible apply modCore_inv | with_reducible apply inv_foldl | with_reducible apply inv_foldl1
    | dsimp only | split

theorem releaseMember_inv (x0 : State) (x1 : Nat) (x2 : Nat) (x3 : Nat) (h0 : Inv x0) :
    Inv (releaseMember x0 x1 x2 x3) := by
  unfold releaseMember
  repeat' first
    | with_reducible assumption | with_reducible intro _ | with_reducible apply leaveRdv_inv
    | with_reducible apply stopUnit_inv | with_reducible apply abandonUnit_inv
    | with_reducible apply inv_foldl | with_reducible apply inv_foldl1 | dsimp only | split

theorem releaseAll_inv (x0 : State) (x1 : Rdv) (x2 : Nat) (h0 : Inv x0) :
    Inv (releaseAll x0 x1 x2) := by
  unfold releaseAll
  repeat' first
    | with_reducible assumption | with_reducible intro _ | with_reducible apply releaseMember_inv
    | with_reducible apply takePubs_inv | with_reducible apply settle_inv
    | with_reducible apply modPart_inv | with_reducible apply inv_foldl
    | with_reducible apply inv_foldl1 | dsimp only | split

theorem execRendezvousRelease_inv (x0 : Nat) (x1 : State) (h1 : Inv x1) :
    Good (execRendezvousRelease x0 x1) := by
  unfold execRendezvousRelease
  repeat' first
    | with_reducible assumption | with_reducible intro _ | with_reducible apply releaseAll_inv
    | with_reducible apply setRdv_inv | with_reducible apply post_inv | with_reducible apply good_next
    | dsimp only | split

theorem execWatermarkCompare_inv (x0 : Nat) (x1 : State) (h1 : Inv x1) :
    Good (execWatermarkCompare x0 x1) := by
  unfold execWatermarkCompare
  repeat' first
    | with_reducible assumption | with_reducible intro _ | with_reducible apply decideFreeze_inv
    | with_reducible apply rdvTry_inv | with_reducible apply setRdv_inv | with_reducible apply good_next
    | dsimp only | split

theorem fillCode_inv (x0 : State) (x1 : Nat) (x2 : List (Nat × BitVec 32)) (h0 : Inv x0) :
    Inv (fillCode x0 x1 x2) := by
  unfold fillCode
  repeat' first
    | with_reducible assumption | with_reducible intro _ | with_reducible apply countReads_inv
    | with_reducible apply modCore_inv | dsimp only | split

theorem stageCore_inv (x0 : State) (x1 : Nat) (x2 : Nat) (x3 : Nat × List Nat × Nat) (h0 : Inv x0) :
    Inv (stageCore x0 x1 x2 x3) := by
  unfold stageCore
  repeat' first
    | with_reducible assumption | with_reducible intro _ | with_reducible apply fillCode_inv
    | with_reducible apply modCore_inv | with_reducible apply inv_foldl
    | with_reducible apply inv_foldl1 | dsimp only | split

theorem refillCode_inv (x0 : State) (x1 : Nat) (x2 : Nat) (x3 : Nat) (h0 : Inv x0) :
    Inv (refillCode x0 x1 x2 x3) := by
  unfold refillCode
  repeat' first
    | with_reducible assumption | with_reducible intro _ | with_reducible apply fillCode_inv
    | with_reducible apply modPart_inv | with_reducible apply inv_foldl
    | with_reducible apply inv_foldl1 | dsimp only | split

theorem stagingDone_inv (x0 : State) (x1 : Rdv) (x2 : Nat) (h0 : Inv x0) :
    Inv (stagingDone x0 x1 x2) := by
  unfold stagingDone
  repeat' first
    | with_reducible assumption | with_reducible intro _ | with_reducible apply rdvTry_inv
    | with_reducible apply setRdv_inv

theorem execLaunchStaging_inv (x0 : Nat) (x1 : State) (h1 : Inv x1) :
    Good (execLaunchStaging x0 x1) := by
  unfold execLaunchStaging
  repeat' first
    | with_reducible assumption | with_reducible intro _ | with_reducible apply stagingDone_inv
    | with_reducible apply refillCode_inv | with_reducible apply stageCore_inv
    | with_reducible apply post_inv | with_reducible apply setPart_inv
    | with_reducible apply modCore_inv | with_reducible apply good_next | with_reducible apply inv_foldl
    | with_reducible apply inv_foldl1 | dsimp only | split

theorem clearPartition_inv (x0 : State) (x1 : Nat) (h0 : Inv x0) :
    Inv (clearPartition x0 x1) := by
  unfold clearPartition
  repeat' first
    | with_reducible assumption | with_reducible intro _ | with_reducible apply modPart_inv
    | with_reducible apply modCore_inv | with_reducible apply inv_foldl | dsimp only | split

theorem endPartition_inv (x0 : State) (x1 : Nat) (h0 : Inv x0) :
    Inv (endPartition x0 x1) := by
  unfold endPartition
  repeat' first
    | with_reducible assumption | with_reducible intro _ | with_reducible apply clearPartition_inv
    | with_reducible apply modPart_inv

theorem setResult_inv (x0 : State) (x1 : Nat) (x2 : Nat) (x3 : Bool) (h0 : Inv x0) :
    Inv (setResult x0 x1 x2 x3) := by
  unfold setResult
  repeat' first
    | with_reducible assumption | with_reducible intro _ | with_reducible apply modPart_inv

theorem respond_inv (x0 : State) (x1 : Nat) (x2 : Option Nat) (x3 : List Word) (h0 : Inv x0) :
    Inv (respond x0 x1 x2 x3) := by
  unfold respond
  repeat' first
    | with_reducible assumption | with_reducible intro _ | with_reducible apply modPart_inv

theorem checkpoint_inv (x0 : State) (x1 : Nat) (h0 : Inv x0) :
    Inv (checkpoint x0 x1) := by
  unfold checkpoint
  repeat' first
    | with_reducible assumption | with_reducible intro _ | with_reducible apply setResult_inv
    | with_reducible apply clearPartition_inv | with_reducible apply memPut_inv
    | with_reducible apply modPart_inv | dsimp only | split

theorem refuseEntries_inv (x0 : State) (x1 : Nat) (h0 : Inv x0) :
    Inv (refuseEntries x0 x1) := by
  unfold refuseEntries
  repeat' first
    | with_reducible assumption | with_reducible intro _ | with_reducible apply modPart_inv
    | with_reducible apply inv_foldl | dsimp only | split

theorem loadTable_inv (x0 : State) (x1 : Nat) (x2 : Nat) (x3 : Image) (h0 : Inv x0) :
    Inv (loadTable x0 x1 x2 x3) := by
  unfold loadTable
  repeat' first
    | with_reducible assumption | with_reducible intro _ | with_reducible apply inv_foldl
    | with_reducible apply inv_foldl1 | dsimp only | split

theorem startCore_inv (x0 : State) (x1 : Nat) (x2 : Nat) (x3 : Nat) (x4 : Nat × List Nat × Nat) (x5 : Nat) (h0 : Inv x0) :
    Inv (startCore x0 x1 x2 x3 x4 x5) := by
  unfold startCore
  repeat' first
    | with_reducible assumption | with_reducible intro _ | with_reducible apply beginUnit_inv
    | with_reducible apply postAt_inv | with_reducible apply modCore_inv | with_reducible apply inv_foldl
    | with_reducible apply inv_foldl1 | dsimp only | split

theorem startEntry_inv (x0 : State) (x1 : Nat) (x2 : Nat) (x3 : Nat) (h0 : Inv x0) :
    Inv (startEntry x0 x1 x2 x3) := by
  unfold startEntry
  repeat' first
    | with_reducible assumption | with_reducible intro _ | with_reducible apply startCore_inv
    | with_reducible apply loadTable_inv | with_reducible apply modPart_inv
    | with_reducible apply inv_foldl | with_reducible apply inv_foldl1 | dsimp only | split

theorem runQueue_inv (x0 : State) (x1 : Nat) (x2 : Nat) (h0 : Inv x0) :
    Inv (runQueue x0 x1 x2) := by
  unfold runQueue
  repeat' first
    | with_reducible assumption | with_reducible intro _ | with_reducible apply startEntry_inv
    | with_reducible apply refuseEntries_inv | with_reducible apply modPart_inv
    | with_reducible apply inv_foldl | dsimp only | split

theorem releaseLaunchPoint_inv (x0 : State) (x1 : Nat) (x2 : Rdv) (x3 : Nat) (h0 : Inv x0) :
    Inv (releaseLaunchPoint x0 x1 x2 x3) := by
  unfold releaseLaunchPoint
  repeat' first
    | with_reducible assumption | with_reducible intro _ | with_reducible apply runQueue_inv
    | with_reducible apply checkpoint_inv | with_reducible apply endPartition_inv
    | with_reducible apply releaseMember_inv | with_reducible apply takePubs_inv
    | with_reducible apply arriveIdle_inv | with_reducible apply settle_inv | with_reducible apply inv_foldl
    | with_reducible apply inv_foldl1 | dsimp only | split

theorem execLaunchPointRelease_inv (x0 : Nat) (x1 : State) (h1 : Inv x1) :
    Good (execLaunchPointRelease x0 x1) := by
  unfold execLaunchPointRelease
  repeat' first
    | with_reducible assumption | with_reducible intro _ | with_reducible apply releaseLaunchPoint_inv
    | with_reducible apply setRdv_inv | with_reducible apply post_inv | exact good_fault _
    | exact good_refused _ | with_reducible apply good_next | with_reducible apply inv_foldl
    | with_reducible apply inv_foldl1 | dsimp only | split

theorem execJobStart_inv (x0 : Nat) (x1 : State) (h1 : Inv x1) :
    Good (execJobStart x0 x1) := by
  unfold execJobStart
  repeat' first
    | with_reducible assumption | with_reducible intro _ | with_reducible apply arriveIdle_inv
    | with_reducible apply recordDead_inv | with_reducible apply decideFreeze_inv
    | with_reducible apply post_inv | with_reducible apply modPart_inv
    | with_reducible apply modCore_inv | with_reducible apply good_next | with_reducible apply inv_foldl
    | dsimp only | split

theorem extendMr_inv (x0 : State) (x1 : Nat) (x2 : Nat) (x3 : BitVec 256) (h0 : Inv x0) :
    Inv (extendMr x0 x1 x2 x3) := by
  unfold extendMr
  repeat' first
    | with_reducible assumption | with_reducible intro _ | with_reducible apply modPkg_inv

theorem extendAll_inv (x0 : State) (x1 : Nat) (x2 : Nat) (x3 : BitVec 256) (h0 : Inv x0) :
    Inv (extendAll x0 x1 x2 x3) := by
  unfold extendAll
  repeat' first
    | with_reducible assumption | with_reducible intro _ | with_reducible apply extendMr_inv
    | with_reducible apply inv_foldl

theorem execExtendService_inv (x0 : Nat) (x1 : BitVec 3) (x2 : BitVec 256) (x3 : State) (h3 : Inv x3) :
    Good (execExtendService x0 x1 x2 x3) := by
  unfold execExtendService
  repeat' first
    | with_reducible assumption | with_reducible intro _ | with_reducible apply extendMr_inv
    | exact good_fault _ | exact good_refused _ | with_reducible apply good_next
    | with_reducible apply inv_foldl | with_reducible apply inv_foldl1 | dsimp only | split

theorem execPowerOnReset_inv (n : Nat) (s : State) (h : Inv s) : Good (execPowerOnReset n s) := by
  unfold execPowerOnReset
  split
  · exact good_next h
  · refine good_next (post_inv _ _ _ _ _ _ (extendAll_inv _ _ _ _ (extendAll_inv _ _ _ _ ?_)))
    refine inv_foldl (fun s c hs => setCore_inv _ _ _ hs) (setPkg_inv _ _ _ (inv_mk (tabWf_filter _ _ ?_)))
    exact inv_foldl (fun s p hs => clearPartition_inv _ _ hs) h

theorem execCreatePartition_inv (x0 : Nat) (x1 : BitVec 8) (x2 : BitVec 32) (x3 : BitVec 9) (x4 : State) (h4 : Inv x4) :
    Good (execCreatePartition x0 x1 x2 x3 x4) := by
  unfold execCreatePartition
  repeat' first
    | with_reducible assumption | with_reducible intro _ | with_reducible apply extendMr_inv
    | with_reducible apply post_inv | with_reducible apply setPart_inv
    | with_reducible apply modCore_inv | with_reducible apply good_next | with_reducible apply inv_foldl
    | dsimp only | split

theorem setMapBytes_inv (x0 : State) (x1 : Nat) (x2 : List (Nat × Byte)) (h0 : Inv x0) :
    Inv (setMapBytes x0 x1 x2) := by
  unfold setMapBytes
  repeat' first
    | with_reducible assumption | with_reducible intro _ | with_reducible apply modPkg_inv

theorem publishPods_inv (x0 : State) (x1 : Nat) (h0 : Inv x0) :
    Inv (publishPods x0 x1) := by
  unfold publishPods
  repeat' first
    | with_reducible assumption | with_reducible intro _ | with_reducible apply post_inv
    | with_reducible apply inv_foldl

theorem publish_inv (x0 : State) (x1 : Nat) (x2 : List (Nat × Byte)) (x3 : Bool) (h0 : Inv x0) :
    Inv (publish x0 x1 x2 x3) := by
  unfold publish
  repeat' first
    | with_reducible assumption | with_reducible intro _ | with_reducible apply publishPods_inv
    | with_reducible apply setMapBytes_inv | with_reducible apply extendAll_inv
    | with_reducible apply modPkg_inv | with_reducible apply modPart_inv
    | with_reducible apply inv_foldl | with_reducible apply inv_foldl1 | dsimp only | split

theorem execMapPublication_inv (x0 : Nat) (x1 : List (Nat × Byte)) (x2 : Bool) (x3 : State) (h3 : Inv x3) :
    Good (execMapPublication x0 x1 x2 x3) := by
  unfold execMapPublication
  repeat' first
    | with_reducible assumption | with_reducible intro _ | with_reducible apply publish_inv
    | with_reducible apply post_inv | with_reducible apply modPkg_inv | with_reducible apply good_next
    | dsimp only | split

theorem execSurveyWindow_inv (x0 : Nat) (x1 : List (Nat × Byte)) (x2 : State) (h2 : Inv x2) :
    Good (execSurveyWindow x0 x1 x2) := by
  unfold execSurveyWindow
  repeat' first
    | with_reducible assumption | with_reducible intro _ | with_reducible apply post_inv
    | with_reducible apply modPkg_inv | with_reducible apply good_next | with_reducible apply inv_foldl
    | with_reducible apply inv_foldl1 | dsimp only | split

theorem execInServiceSurvey_inv (x0 : Nat) (x1 : List (Nat × Byte)) (x2 : State) (h2 : Inv x2) :
    Good (execInServiceSurvey x0 x1 x2) := by
  unfold execInServiceSurvey
  repeat' first
    | with_reducible assumption | with_reducible intro _ | with_reducible apply post_inv
    | exact good_fault _ | exact good_refused _ | with_reducible apply good_next
    | with_reducible apply inv_foldl | with_reducible apply inv_foldl1 | dsimp only | split

theorem execThermalTrip_inv (x0 : Nat) (x1 : State) (h1 : Inv x1) :
    Good (execThermalTrip x0 x1) := by
  unfold execThermalTrip
  repeat' first
    | with_reducible assumption | with_reducible intro _ | with_reducible apply decideFreeze_inv
    | with_reducible apply modPkg_inv | with_reducible apply good_next | dsimp only | split

theorem execThermalRelease_inv (x0 : Nat) (x1 : State) (h1 : Inv x1) :
    Good (execThermalRelease x0 x1) := by
  unfold execThermalRelease
  repeat' first
    | with_reducible assumption | with_reducible intro _ | with_reducible apply clearReason_inv
    | with_reducible apply modPkg_inv | with_reducible apply good_next | dsimp only | split

theorem execPodFreeze_inv (x0 : Nat) (x1 : Nat) (x2 : State) (h2 : Inv x2) :
    Good (execPodFreeze x0 x1 x2) := by
  unfold execPodFreeze
  repeat' first
    | with_reducible assumption | with_reducible intro _ | with_reducible apply decideFreezeAt_inv
    | with_reducible apply good_next | dsimp only | split

theorem execFreezeBoundary_inv (x0 : Nat) (x1 : State) (h1 : Inv x1) :
    Good (execFreezeBoundary x0 x1) := by
  unfold execFreezeBoundary
  repeat' first
    | with_reducible assumption | with_reducible intro _ | with_reducible apply postResume_inv
    | with_reducible apply setPart_inv | with_reducible apply good_next | dsimp only | split

theorem execPartitionResume_inv (x0 : Nat) (x1 : State) (h1 : Inv x1) :
    Good (execPartitionResume x0 x1) := by
  unfold execPartitionResume
  repeat' first
    | with_reducible assumption | with_reducible intro _ | with_reducible apply setPart_inv
    | with_reducible apply good_next | dsimp only | split

theorem execTableServiceRequest_inv (x0 : Nat) (x1 : State) (h1 : Inv x1) :
    Good (execTableServiceRequest x0 x1) := by
  unfold execTableServiceRequest
  repeat' first
    | with_reducible assumption | with_reducible intro _ | with_reducible apply decideFreeze_inv
    | exact good_fault _ | exact good_refused _ | with_reducible apply good_next
    | with_reducible apply inv_foldl | with_reducible apply inv_foldl1 | dsimp only | split

theorem execTableServiceAnswer_inv (x0 : Nat) (x1 : Bool) (x2 : State) (h2 : Inv x2) :
    Good (execTableServiceAnswer x0 x1 x2) := by
  unfold execTableServiceAnswer
  repeat' first
    | with_reducible assumption | with_reducible intro _ | with_reducible apply modCore_inv
    | exact good_fault _ | exact good_refused _ | with_reducible apply good_next

theorem execTableEntryWrite_inv (x0 : Nat) (x1 : BitVec 12) (x2 : Bool) (x3 : Word) (x4 : State) (h4 : Inv x4) :
    Good (execTableEntryWrite x0 x1 x2 x3 x4) := by
  unfold execTableEntryWrite
  repeat' first
    | with_reducible assumption | with_reducible intro _ | with_reducible apply writeTableHalf_inv
    | exact good_fault _ | exact good_refused _ | with_reducible apply good_next

theorem execTableEntryRepair_inv (x0 : Nat) (x1 : BitVec 12) (x2 : State) (h2 : Inv x2) :
    Good (execTableEntryRepair x0 x1 x2) := by
  unfold execTableEntryRepair
  repeat' first
    | with_reducible assumption | with_reducible intro _ | with_reducible apply setTable_inv
    | exact good_fault _ | exact good_refused _ | with_reducible apply good_next

end Sys2Proof.Machine
end

