-- ==== Sys2Proof/Laws/InvHost.lean ====
section
/-! SUPPORT. Memory keeps its canonical form: the mailbox, contexts and host registers. -/

namespace Sys2Proof.Machine

theorem refuse_inv (x0 : State) (x1 : Nat) (x2 : Nat) (h0 : Inv x0) :
    Inv (refuse x0 x1 x2) := by
  unfold refuse
  repeat' first
    | with_reducible assumption | with_reducible intro _ | with_reducible apply respond_inv

theorem accept_inv (x0 : State) (x1 : Nat) (x2 : List Word) (h0 : Inv x0) :
    Inv (accept x0 x1 x2) := by
  unfold accept
  repeat' first
    | with_reducible assumption | with_reducible intro _ | with_reducible apply respond_inv

theorem inStates_inv (x0 : State) (x1 : Nat) (x2 : Nat) (x3 : Nat) (x4 : State → State) (h0 : Inv x0) (h4 : ∀ s, Inv s → Inv (x4 s)) :
    Inv (inStates x0 x1 x2 x3 x4) := by
  unfold inStates
  repeat' first
    | with_reducible assumption | with_reducible intro _ | with_reducible apply h4
    | with_reducible apply refuse_inv | dsimp only | split

theorem storeCode_inv (x0 : State) (x1 : Image) (x2 : Image) (h0 : Inv x0) :
    Inv (storeCode x0 x1 x2) := by
  unfold storeCode
  repeat' first
    | with_reducible assumption | with_reducible intro _ | with_reducible apply memPut_inv
    | with_reducible apply inv_foldl | with_reducible apply inv_foldl1 | dsimp only | split

theorem execLoad_inv (x0 : Nat) (x1 : State) (h1 : Inv x1) :
    Good (execLoad x0 x1) := by
  unfold execLoad
  repeat' first
    | with_reducible assumption | with_reducible intro _ | with_reducible apply storeCode_inv
    | with_reducible apply inStates_inv | with_reducible apply accept_inv
    | with_reducible apply refuse_inv | with_reducible apply recordDead_inv
    | with_reducible apply good_next | dsimp only | split

theorem execUnload_inv (x0 : Nat) (x1 : State) (h1 : Inv x1) :
    Good (execUnload x0 x1) := by
  unfold execUnload
  repeat' first
    | with_reducible assumption | with_reducible intro _ | with_reducible apply inStates_inv
    | with_reducible apply accept_inv | with_reducible apply refuse_inv | exact good_fault _
    | exact good_refused _ | with_reducible apply good_next | with_reducible apply inv_foldl
    | with_reducible apply inv_foldl1 | dsimp only | split

theorem execRebind_inv (x0 : Nat) (x1 : State) (h1 : Inv x1) :
    Good (execRebind x0 x1) := by
  unfold execRebind
  repeat' first
    | with_reducible assumption | with_reducible intro _ | with_reducible apply inStates_inv
    | with_reducible apply accept_inv | with_reducible apply refuse_inv | with_reducible apply good_next
    | dsimp only | split

theorem postStart_inv (x0 : State) (x1 : Nat) (h0 : Inv x0) :
    Inv (postStart x0 x1) := by
  unfold postStart
  repeat' first
    | with_reducible assumption | with_reducible intro _ | with_reducible apply post_inv

theorem execStart_inv (x0 : Nat) (x1 : State) (h1 : Inv x1) :
    Good (execStart x0 x1) := by
  unfold execStart
  repeat' first
    | with_reducible assumption | with_reducible intro _ | with_reducible apply postStart_inv
    | with_reducible apply inStates_inv | with_reducible apply accept_inv | with_reducible apply refuse_inv
    | with_reducible apply modPart_inv | exact good_fault _ | exact good_refused _
    | with_reducible apply good_next | with_reducible apply inv_foldl | with_reducible apply inv_foldl1
    | dsimp only | split

theorem execEndJob_inv (x0 : Nat) (x1 : State) (h1 : Inv x1) :
    Good (execEndJob x0 x1) := by
  unfold execEndJob
  repeat' first
    | with_reducible assumption | with_reducible intro _ | with_reducible apply inStates_inv
    | with_reducible apply accept_inv | with_reducible apply modPart_inv | exact good_fault _
    | exact good_refused _ | with_reducible apply good_next

theorem execCancelCommand_inv (x0 : Nat) (x1 : State) (h1 : Inv x1) :
    Good (execCancelCommand x0 x1) := by
  unfold execCancelCommand
  repeat' first
    | with_reducible assumption | with_reducible intro _ | with_reducible apply inStates_inv
    | with_reducible apply accept_inv | with_reducible apply post_inv | exact good_fault _
    | exact good_refused _ | with_reducible apply good_next | with_reducible apply inv_foldl

theorem execHold_inv (x0 : Nat) (x1 : State) (h1 : Inv x1) :
    Good (execHold x0 x1) := by
  unfold execHold
  repeat' first
    | with_reducible assumption | with_reducible intro _ | with_reducible apply inStates_inv
    | with_reducible apply accept_inv | with_reducible apply decideFreeze_inv | exact good_fault _
    | exact good_refused _ | with_reducible apply good_next

theorem execRelease_inv (x0 : Nat) (x1 : State) (h1 : Inv x1) :
    Good (execRelease x0 x1) := by
  unfold execRelease
  repeat' first
    | with_reducible assumption | with_reducible intro _ | with_reducible apply inStates_inv
    | with_reducible apply accept_inv | with_reducible apply clearReason_inv | exact good_fault _
    | exact good_refused _ | with_reducible apply good_next

theorem execCkpt_inv (x0 : Nat) (x1 : State) (h1 : Inv x1) :
    Good (execCkpt x0 x1) := by
  unfold execCkpt
  repeat' first
    | with_reducible assumption | with_reducible intro _ | with_reducible apply inStates_inv
    | with_reducible apply accept_inv | with_reducible apply modPart_inv | exact good_fault _
    | exact good_refused _ | with_reducible apply good_next

theorem modSaved_inv (x0 : State) (x1 : Nat) (x2 : Nat) (x3 : Core → Core) (h0 : Inv x0) :
    Inv (modSaved x0 x1 x2 x3) := by
  unfold modSaved
  repeat' first
    | with_reducible assumption | with_reducible intro _ | with_reducible apply modPart_inv
    | with_reducible apply inv_foldl | with_reducible apply inv_foldl1 | dsimp only | split

theorem dropWindow_inv (x0 : State) (x1 : Nat) (x2 : Nat) (x3 : Nat) (h0 : Inv x0) :
    Inv (dropWindow x0 x1 x2 x3) := by
  unfold dropWindow
  repeat' first
    | with_reducible assumption | with_reducible intro _ | with_reducible apply modCore_inv
    | with_reducible apply modSaved_inv | with_reducible apply modPart_inv | with_reducible apply inv_foldl
    | with_reducible apply inv_foldl1 | dsimp only | split

theorem dropCopy_inv (x0 : State) (x1 : Nat) (x2 : Nat) (x3 : Nat) (h0 : Inv x0) :
    Inv (dropCopy x0 x1 x2 x3) := by
  unfold dropCopy
  repeat' first
    | with_reducible assumption | with_reducible intro _ | with_reducible apply dropWindow_inv
    | with_reducible apply inv_foldl | with_reducible apply inv_foldl1 | dsimp only | split

theorem execPatch_inv (x0 : Nat) (x1 : State) (h1 : Inv x1) :
    Good (execPatch x0 x1) := by
  unfold execPatch
  repeat' first
    | with_reducible assumption | with_reducible intro _ | with_reducible apply dropCopy_inv
    | with_reducible apply storeCode_inv | with_reducible apply inStates_inv
    | with_reducible apply accept_inv | with_reducible apply refuse_inv | with_reducible apply good_next
    | with_reducible apply inv_foldl | dsimp only | split

theorem execAttest_inv (x0 : Nat) (x1 : State) (h1 : Inv x1) :
    Good (execAttest x0 x1) := by
  unfold execAttest
  repeat' first
    | with_reducible assumption | with_reducible intro _ | with_reducible apply inStates_inv
    | with_reducible apply accept_inv | with_reducible apply refuse_inv | with_reducible apply modPart_inv
    | exact good_fault _ | exact good_refused _ | with_reducible apply good_next
    | with_reducible apply inv_foldl | with_reducible apply inv_foldl1 | dsimp only | split

theorem execResumeck_inv (x0 : Nat) (x1 : State) (h1 : Inv x1) :
    Good (execResumeck x0 x1) := by
  unfold execResumeck
  repeat' first
    | with_reducible assumption | with_reducible intro _ | with_reducible apply postStart_inv
    | with_reducible apply accept_inv | with_reducible apply refuse_inv | with_reducible apply modPart_inv
    | exact good_fault _ | exact good_refused _ | with_reducible apply good_next
    | with_reducible apply inv_foldl | with_reducible apply inv_foldl1 | dsimp only | split

theorem putArea_inv (x0 : State) (x1 : Nat) (x2 : Nat) (x3 : List Byte) (h0 : Inv x0) :
    Inv (putArea x0 x1 x2 x3) := by
  unfold putArea
  repeat' first
    | with_reducible assumption | with_reducible intro _ | with_reducible apply setTag_inv
    | with_reducible apply memPut_inv | with_reducible apply inv_foldl | with_reducible apply inv_foldl1
    | dsimp only | split

theorem writeArea_inv (x0 : State) (x1 : Nat) (x2 : Nat) (x3 : Nat) (x4 : State) (h4 : Inv x4) :
    Inv (writeArea x0 x1 x2 x3 x4) := by
  unfold writeArea
  repeat' first
    | with_reducible assumption | with_reducible intro _ | with_reducible apply putArea_inv
    | with_reducible apply setBad_inv | with_reducible apply inv_foldl | dsimp only | split

theorem saveReads_inv (x0 : State) (x1 : Nat) (h0 : Inv x0) :
    Inv (saveReads x0 x1) := by
  unfold saveReads
  repeat' first
    | with_reducible assumption | with_reducible intro _ | with_reducible apply postError_inv
    | with_reducible apply modCore_inv | with_reducible apply inv_foldl
    | with_reducible apply inv_foldl1 | dsimp only | split

theorem writeAreas_inv (s : State) (p : Nat) (h : Inv s) : Inv (writeAreas s p) := by
  unfold writeAreas
  suffices hl : ∀ (ls : List (Nat × Nat)) (t : State), Inv t → Inv (ls.foldl (fun t l => writeArea s p l.2 l.1 t) t) from hl _ s h
  intro ls
  induction ls with
  | nil => exact fun _ ht => ht
  | cons l ls ih =>
    intro t ht
    simp only [List.foldl_cons]
    exact ih _ (writeArea_inv s p l.2 l.1 t ht)

theorem leaveLayers_inv (s : State) (p : Nat) (gs : List Nat) (h : Inv s) : Inv (leaveLayers s p gs) := by
  unfold leaveLayers
  exact inv_foldl (fun s g hs => modCore_inv _ _ _ hs) (inv_mk h)

theorem saveNow_inv (s : State) (p : Nat) (h : Inv s) : Inv (saveNow s p) := by
  have hr := inv_foldl (l := partCores s p) (fun s g hs => saveReads_inv s g hs) h
  unfold saveNow
  exact setResult_inv _ _ _ _ (modPart_inv _ _ _ (leaveLayers_inv _ _ _ (writeAreas_inv _ _ hr)))

theorem saveDone_inv (x0 : State) (x1 : Nat) (h0 : Inv x0) :
    Inv (saveDone x0 x1) := by
  unfold saveDone
  repeat' first
    | with_reducible assumption | with_reducible intro _ | with_reducible apply saveNow_inv
    | with_reducible apply post_inv | dsimp only | split

theorem restoreRecord_inv (x0 : State) (x1 : Nat) (x2 : Nat × Nat × Nat × Nat × Nat) (h0 : Inv x0) :
    Inv (restoreRecord x0 x1 x2) := by
  unfold restoreRecord
  repeat' first
    | with_reducible assumption | with_reducible intro _ | with_reducible apply modCore_inv

theorem putRecord_inv (s0 : State) (c : Saved) (s : State) (g a : Nat) (h : Inv s) : Inv (putRecord s0 c s g a) := by
  unfold putRecord
  exact inv_mk (tabWf_setAll _ _ (tabWf_filter _ _ (modCore_inv _ _ _ h)))

theorem putTable_inv (x0 : Nat) (x1 : State) (x2 : Nat) (h1 : Inv x1) :
    Inv (putTable x0 x1 x2) := by
  unfold putTable
  repeat' first
    | with_reducible assumption | with_reducible intro _ | dsimp only | split

theorem putContext_inv (s : State) (p : Nat) (c : Saved) (h : Inv s) : Inv (putContext s p c) := by
  unfold putContext
  refine modPart_inv _ _ _ (inv_mk ?_)
  exact inv_foldl (fun s l hs => putTable_inv _ _ _ hs) (inv_foldl (fun s r hs => putRecord_inv _ _ _ _ _ hs) h)

theorem restoreDone_inv (x0 : State) (x1 : Nat) (h0 : Inv x0) :
    Inv (restoreDone x0 x1) := by
  unfold restoreDone
  repeat' first
    | with_reducible assumption | with_reducible intro _ | with_reducible apply putContext_inv
    | with_reducible apply restoreRecord_inv | with_reducible apply setResult_inv
    | with_reducible apply modPart_inv | dsimp only | split

theorem contextDone_inv (x0 : State) (x1 : Nat) (h0 : Inv x0) :
    Inv (contextDone x0 x1) := by
  unfold contextDone
  repeat' first
    | with_reducible assumption | with_reducible intro _ | with_reducible apply restoreDone_inv
    | with_reducible apply saveDone_inv | with_reducible apply setResult_inv
    | with_reducible apply inv_foldl | with_reducible apply inv_foldl1 | dsimp only | split

theorem contextCommand_inv (x0 : State) (x1 : Nat) (x2 : State → State) (h0 : Inv x0) (h2 : ∀ s, Inv s → Inv (x2 s)) :
    Inv (contextCommand x0 x1 x2) := by
  unfold contextCommand
  repeat' first
    | with_reducible assumption | with_reducible intro _ | with_reducible apply h2
    | with_reducible apply setResult_inv | with_reducible apply modPart_inv | dsimp only | split

theorem takeTime_inv (x0 : State) (x1 : Nat) (h0 : Inv x0) :
    Inv (takeTime x0 x1) := by
  unfold takeTime
  repeat' first
    | with_reducible assumption | with_reducible intro _ | with_reducible apply post_inv
    | with_reducible apply modPart_inv | dsimp only | split

theorem execFreeze_inv (x0 : Nat) (x1 : State) (h1 : Inv x1) :
    Good (execFreeze x0 x1) := by
  unfold execFreeze
  repeat' first
    | with_reducible assumption | with_reducible intro _ | with_reducible apply contextCommand_inv
    | with_reducible apply setResult_inv | with_reducible apply decideFreeze_inv | exact good_fault _
    | exact good_refused _ | with_reducible apply good_next | with_reducible apply inv_foldl
    | with_reducible apply inv_foldl1 | dsimp only | split

theorem execSave_inv (x0 : Nat) (x1 : State) (h1 : Inv x1) :
    Good (execSave x0 x1) := by
  unfold execSave
  repeat' first
    | with_reducible assumption | with_reducible intro _ | with_reducible apply takeTime_inv
    | with_reducible apply contextCommand_inv | with_reducible apply setResult_inv
    | with_reducible apply good_next | dsimp only | split

theorem execRestore_inv (x0 : Nat) (x1 : State) (h1 : Inv x1) :
    Good (execRestore x0 x1) := by
  unfold execRestore
  repeat' first
    | with_reducible assumption | with_reducible intro _ | with_reducible apply takeTime_inv
    | with_reducible apply contextCommand_inv | with_reducible apply setResult_inv
    | with_reducible apply modPart_inv | with_reducible apply good_next | dsimp only | split

theorem execResume_inv (x0 : Nat) (x1 : State) (h1 : Inv x1) :
    Good (execResume x0 x1) := by
  unfold execResume
  repeat' first
    | with_reducible assumption | with_reducible intro _ | with_reducible apply contextCommand_inv
    | with_reducible apply setResult_inv | with_reducible apply clearReason_inv | exact good_fault _
    | exact good_refused _ | with_reducible apply good_next | with_reducible apply inv_foldl
    | with_reducible apply inv_foldl1 | dsimp only | split

theorem discardPart_inv (x0 : State) (x1 : Nat) (h0 : Inv x0) :
    Inv (discardPart x0 x1) := by
  unfold discardPart
  repeat' first
    | with_reducible assumption | with_reducible intro _ | with_reducible apply endPartition_inv
    | with_reducible apply modPart_inv | with_reducible apply inv_foldl | dsimp only | split

theorem execDiscard_inv (x0 : Nat) (x1 : State) (h1 : Inv x1) :
    Good (execDiscard x0 x1) := by
  unfold execDiscard
  repeat' first
    | with_reducible assumption | with_reducible intro _ | with_reducible apply discardPart_inv
    | with_reducible apply contextCommand_inv | with_reducible apply setResult_inv
    | with_reducible apply good_next | with_reducible apply inv_foldl | dsimp only | split

theorem execResultLanding_inv (x0 : Nat) (x1 : Landing) (x2 : State) (h2 : Inv x2) :
    Good (execResultLanding x0 x1 x2) := by
  unfold execResultLanding
  repeat' first
    | with_reducible assumption | with_reducible intro _ | with_reducible apply postError_inv
    | with_reducible apply modCore_inv | with_reducible apply good_next | with_reducible apply inv_foldl
    | with_reducible apply inv_foldl1 | dsimp only | split

theorem execIllegal_inv (x0 : Nat) (x1 : Nat) (x2 : Nat) (x3 : State) (h3 : Inv x3) :
    Good (execIllegal x0 x1 x2 x3) := by
  unfold execIllegal
  repeat' first
    | with_reducible assumption | with_reducible intro _ | with_reducible apply noteFaults_inv
    | with_reducible apply takeFault_inv | with_reducible apply good_next | dsimp only | split

theorem execUnknownCommandCode_inv (x0 : Nat) (x1 : Bool) (x2 : State) (h2 : Inv x2) :
    Good (execUnknownCommandCode x0 x1 x2) := by
  unfold execUnknownCommandCode
  repeat' first
    | with_reducible assumption | with_reducible intro _ | with_reducible apply contextCommand_inv
    | with_reducible apply refuse_inv | with_reducible apply setResult_inv | exact good_fault _
    | exact good_refused _ | with_reducible apply good_next | with_reducible apply inv_foldl
    | with_reducible apply inv_foldl1 | dsimp only | split

theorem submitCommand_inv (x0 : State) (x1 : Nat) (h0 : Inv x0) :
    Inv (submitCommand x0 x1) := by
  unfold submitCommand
  repeat' first
    | with_reducible assumption | with_reducible intro _ | with_reducible apply post_inv
    | with_reducible apply inv_foldl | with_reducible apply inv_foldl1 | dsimp only | split

theorem imageBooted_inv (x0 : State) (x1 : Nat) (h0 : Inv x0) :
    Inv (imageBooted x0 x1) := by
  unfold imageBooted
  repeat' first
    | with_reducible assumption | with_reducible intro _ | with_reducible apply submitCommand_inv
    | with_reducible apply modPart_inv | with_reducible apply inv_foldl | with_reducible apply inv_foldl1
    | dsimp only | split

theorem mailboxWrite_inv (x0 : State) (x1 : Nat) (x2 : Nat) (x3 : Word) (h0 : Inv x0) :
    Inv (mailboxWrite x0 x1 x2 x3) := by
  unfold mailboxWrite
  repeat' first
    | with_reducible assumption | with_reducible intro _ | with_reducible apply submitCommand_inv
    | with_reducible apply modPart_inv | with_reducible apply inv_foldl | with_reducible apply inv_foldl1
    | dsimp only | split

theorem contextWrite_inv (x0 : State) (x1 : Nat) (x2 : Nat) (x3 : Word) (h0 : Inv x0) :
    Inv (contextWrite x0 x1 x2 x3) := by
  unfold contextWrite
  repeat' first
    | with_reducible assumption | with_reducible intro _ | with_reducible apply post_inv
    | with_reducible apply modPart_inv | with_reducible apply inv_foldl | with_reducible apply inv_foldl1
    | dsimp only | split

theorem hostMapWrite_inv (x0 : State) (x1 : Nat) (x2 : Nat) (x3 : Word) (h0 : Inv x0) :
    Inv (hostMapWrite x0 x1 x2 x3) := by
  unfold hostMapWrite
  repeat' first
    | with_reducible assumption | with_reducible intro _ | with_reducible apply modPart_inv
    | with_reducible apply inv_foldl | with_reducible apply inv_foldl1 | dsimp only | split

theorem attestWrite_inv (x0 : State) (x1 : Nat) (x2 : Nat) (x3 : Word) (h0 : Inv x0) :
    Inv (attestWrite x0 x1 x2 x3) := by
  unfold attestWrite
  repeat' first
    | with_reducible assumption | with_reducible intro _ | with_reducible apply modPkg_inv | dsimp only
    | split

theorem execSystemRegisterWrite_inv (x0 : SysReg) (x1 : Word) (x2 : State) (h2 : Inv x2) :
    Good (execSystemRegisterWrite x0 x1 x2) := by
  unfold execSystemRegisterWrite
  repeat' first
    | with_reducible assumption | with_reducible intro _ | with_reducible apply attestWrite_inv
    | with_reducible apply hostMapWrite_inv | with_reducible apply contextWrite_inv
    | with_reducible apply mailboxWrite_inv | with_reducible apply systemWrite_inv
    | with_reducible apply good_next | dsimp only | split

theorem execMbrespClear_inv (x0 : Nat) (x1 : State) (h1 : Inv x1) :
    Good (execMbrespClear x0 x1) := by
  unfold execMbrespClear
  repeat' first
    | with_reducible assumption | with_reducible intro _ | with_reducible apply modPart_inv
    | exact good_fault _ | exact good_refused _ | with_reducible apply good_next

theorem execCtxstatClear_inv (x0 : Nat) (x1 : State) (h1 : Inv x1) :
    Good (execCtxstatClear x0 x1) := by
  unfold execCtxstatClear
  repeat' first
    | with_reducible assumption | with_reducible intro _ | with_reducible apply modPart_inv
    | exact good_fault _ | exact good_refused _ | with_reducible apply good_next

theorem execFiredClear_inv (x0 : Nat) (x1 : BitVec 4) (x2 : State) (h2 : Inv x2) :
    Good (execFiredClear x0 x1 x2) := by
  unfold execFiredClear
  repeat' first
    | with_reducible assumption | with_reducible intro _ | with_reducible apply sysWrite_inv
    | exact good_fault _ | exact good_refused _ | with_reducible apply good_next

theorem execRepairreq_inv (x0 : Nat) (x1 : Word) (x2 : State) (h2 : Inv x2) :
    Good (execRepairreq x0 x1 x2) := by
  unfold execRepairreq
  repeat' first
    | with_reducible assumption | with_reducible intro _ | with_reducible apply systemWrite_inv
    | exact good_fault _ | exact good_refused _ | with_reducible apply good_next

theorem execBistsum_inv (x0 : Nat) (x1 : Word) (x2 : State) (h2 : Inv x2) :
    Good (execBistsum x0 x1 x2) := by
  unfold execBistsum
  repeat' first
    | with_reducible assumption | with_reducible intro _ | with_reducible apply sysWrite_inv
    | exact good_fault _ | exact good_refused _ | with_reducible apply good_next

theorem execArrayInjectorArm_inv (x0 : Nat) (x1 : BitVec 2) (x2 : Word) (x3 : State) (h3 : Inv x3) :
    Good (execArrayInjectorArm x0 x1 x2 x3) := by
  unfold execArrayInjectorArm
  repeat' first
    | with_reducible assumption | with_reducible intro _ | with_reducible apply sysWrite_inv
    | exact good_fault _ | exact good_refused _ | with_reducible apply good_next

theorem execLinkInjectorArm_inv (x0 : Nat) (x1 : BitVec 2) (x2 : Word) (x3 : State) (h3 : Inv x3) :
    Good (execLinkInjectorArm x0 x1 x2 x3) := by
  unfold execLinkInjectorArm
  repeat' first
    | with_reducible assumption | with_reducible intro _ | with_reducible apply writeLinj_inv
    | exact good_fault _ | exact good_refused _ | with_reducible apply good_next

theorem execLaunchQueueEnqueue_inv (x0 : Nat) (x1 : RegField) (x2 : Word) (x3 : State) (h3 : Inv x3) :
    Good (execLaunchQueueEnqueue x0 x1 x2 x3) := by
  unfold execLaunchQueueEnqueue
  repeat' first
    | with_reducible assumption | with_reducible intro _ | with_reducible apply modPart_inv
    | exact good_fault _ | exact good_refused _ | with_reducible apply good_next

theorem execLaunchQueueEmpty_inv (x0 : Nat) (x1 : RegField) (x2 : Word) (x3 : State) (h3 : Inv x3) :
    Good (execLaunchQueueEmpty x0 x1 x2 x3) := by
  unfold execLaunchQueueEmpty
  repeat' first
    | with_reducible assumption | with_reducible intro _ | with_reducible apply modPart_inv
    | exact good_fault _ | exact good_refused _ | with_reducible apply good_next

theorem execLaunchQueueFieldWrite_inv (x0 : Nat) (x1 : RegField) (x2 : BitVec 128) (x3 : State) (h3 : Inv x3) :
    Good (execLaunchQueueFieldWrite x0 x1 x2 x3) := by
  unfold execLaunchQueueFieldWrite
  repeat' first
    | with_reducible assumption | with_reducible intro _ | with_reducible apply modPart_inv
    | exact good_fault _ | exact good_refused _ | with_reducible apply good_next

end Sys2Proof.Machine
end

