-- ==== Sys2Proof/Laws/InvStep.lean ====
section
/-! SUPPORT. Memory keeps its canonical form: dispatch and issue. -/

namespace Sys2Proof.Machine

theorem exec_inv (i : Instr) (s : State) (hinv : Inv s) : Good (exec i s) := by
  cases i with
  | add d a b m => rw [exec_add]; exact execAdd_inv _ _ _ _ _ hinv
  | sub d a b m => rw [exec_sub]; exact execSub_inv _ _ _ _ _ hinv
  | mul d a b m => rw [exec_mul]; exact execMul_inv _ _ _ _ _ hinv
  | mulh d a b m => rw [exec_mulh]; exact execMulh_inv _ _ _ _ _ hinv
  | mulhn d a b m => rw [exec_mulhn]; exact execMulhn_inv _ _ _ _ _ hinv
  | div d a b m => rw [exec_div]; exact execDiv_inv _ _ _ _ _ hinv
  | divn d a b m => rw [exec_divn]; exact execDivn_inv _ _ _ _ _ hinv
  | rem d a b m => rw [exec_rem]; exact execRem_inv _ _ _ _ _ hinv
  | remn d a b m => rw [exec_remn]; exact execRemn_inv _ _ _ _ _ hinv
  | minS d a b m => rw [exec_minS]; exact execMinS_inv _ _ _ _ _ hinv
  | minn d a b m => rw [exec_minn]; exact execMinn_inv _ _ _ _ _ hinv
  | maxS d a b m => rw [exec_maxS]; exact execMaxS_inv _ _ _ _ _ hinv
  | maxn d a b m => rw [exec_maxn]; exact execMaxn_inv _ _ _ _ _ hinv
  | slt d a b m => rw [exec_slt]; exact execSlt_inv _ _ _ _ _ hinv
  | sltn d a b m => rw [exec_sltn]; exact execSltn_inv _ _ _ _ _ hinv
  | seq d a b m => rw [exec_seq]; exact execSeq_inv _ _ _ _ _ hinv
  | andS d a b m => rw [exec_andS]; exact execAndS_inv _ _ _ _ _ hinv
  | orS d a b m => rw [exec_orS]; exact execOrS_inv _ _ _ _ _ hinv
  | xorS d a b m => rw [exec_xorS]; exact execXorS_inv _ _ _ _ _ hinv
  | andn d a b m => rw [exec_andn]; exact execAndn_inv _ _ _ _ _ hinv
  | shl d a b m => rw [exec_shl]; exact execShl_inv _ _ _ _ _ hinv
  | shr d a b m => rw [exec_shr]; exact execShr_inv _ _ _ _ _ hinv
  | sar d a b m => rw [exec_sar]; exact execSar_inv _ _ _ _ _ hinv
  | sel d a b m => rw [exec_sel]; exact execSel_inv _ _ _ _ _ hinv
  | clz d a m => rw [exec_clz]; exact execClz_inv _ _ _ _ hinv
  | ctz d a m => rw [exec_ctz]; exact execCtz_inv _ _ _ _ hinv
  | popc d a m => rw [exec_popc]; exact execPopc_inv _ _ _ _ hinv
  | addi d a im => rw [exec_addi]; exact execAddi_inv _ _ _ _ hinv
  | andi d a im => rw [exec_andi]; exact execAndi_inv _ _ _ _ hinv
  | ori d a im => rw [exec_ori]; exact execOri_inv _ _ _ _ hinv
  | xori d a im => rw [exec_xori]; exact execXori_inv _ _ _ _ hinv
  | shli d a im => rw [exec_shli]; exact execShli_inv _ _ _ _ hinv
  | shri d a im => rw [exec_shri]; exact execShri_inv _ _ _ _ hinv
  | sari d a im => rw [exec_sari]; exact execSari_inv _ _ _ _ hinv
  | slti d a im => rw [exec_slti]; exact execSlti_inv _ _ _ _ hinv
  | sltni d a im => rw [exec_sltni]; exact execSltni_inv _ _ _ _ hinv
  | li x d im => rw [exec_li]; exact execLi_inv _ _ _ _ hinv
  | lds z d r im => rw [exec_lds]; exact execLds_inv _ _ _ _ _ hinv
  | sts z d r im => rw [exec_sts]; exact execSts_inv _ _ _ _ _ hinv
  | agen n d a b m => rw [exec_agen]; exact execAgen_inv _ _ _ _ _ _ hinv
  | lcset n a im => rw [exec_lcset]; exact execLcset_inv _ _ _ _ hinv
  | br im => rw [exec_br]; exact execBr_inv _ _ hinv
  | brc z a im => rw [exec_brc]; exact execBrc_inv _ _ _ _ hinv
  | call d im => rw [exec_call]; exact execCall_inv _ _ _ hinv
  | ret a => rw [exec_ret]; exact execRet_inv _ _ hinv
  | repeatLoop n a im => rw [exec_repeatLoop]; exact execRepeatLoop_inv _ _ _ _ hinv
  | moor o c sigl sigh budget safe => rw [exec_moor]; exact execMoor_inv _ _ _ _ _ _ _ hinv
  | rdvPlain sc g => rw [exec_rdvPlain]; exact execRdvPlain_inv _ _ _ hinv
  | rdvBar sc g a b => rw [exec_rdvBar]; exact execRdvBar_inv _ _ _ _ _ hinv
  | rdvWm sc g a b => rw [exec_rdvWm]; exact execRdvWm_inv _ _ _ _ _ hinv
  | rdvCmt sc g a b => rw [exec_rdvCmt]; exact execRdvCmt_inv _ _ _ _ _ hinv
  | rdvLp sc => rw [exec_rdvLp]; exact execRdvLp_inv _ _ hinv
  | halt => rw [exec_halt]; exact execHalt_inv _ hinv
  | trap z a im => rw [exec_trap]; exact execTrap_inv _ _ _ _ hinv
  | rett => rw [exec_rett]; exact execRett_inv _ hinv
  | resync => rw [exec_resync]; exact execResync_inv _ hinv
  | sysrd d a im => rw [exec_sysrd]; exact execSysrd_inv _ _ _ _ hinv
  | syswr d a im => rw [exec_syswr]; exact execSyswr_inv _ _ _ _ hinv
  | cancel lvl a im => rw [exec_cancel]; exact execCancel_inv _ _ _ _ hinv
  | winv a b m => rw [exec_winv]; exact execWinv_inv _ _ _ _ hinv
  | vadd f d a b h m => rw [exec_vadd]; exact execVadd_inv _ _ _ _ _ _ _ hinv
  | vsub f d a b h m => rw [exec_vsub]; exact execVsub_inv _ _ _ _ _ _ _ hinv
  | vmul f d a b h m => rw [exec_vmul]; exact execVmul_inv _ _ _ _ _ _ _ hinv
  | vfma f d a b h m => rw [exec_vfma]; exact execVfma_inv _ _ _ _ _ _ _ hinv
  | vfms f d a b h m => rw [exec_vfms]; exact execVfms_inv _ _ _ _ _ _ _ hinv
  | vmin f d a b h m => rw [exec_vmin]; exact execVmin_inv _ _ _ _ _ _ _ hinv
  | vmax f d a b h m => rw [exec_vmax]; exact execVmax_inv _ _ _ _ _ _ _ hinv
  | vabs f d a h m => rw [exec_vabs]; exact execVabs_inv _ _ _ _ _ _ hinv
  | vneg f d a h m => rw [exec_vneg]; exact execVneg_inv _ _ _ _ _ _ hinv
  | vadds f d a b h m => rw [exec_vadds]; exact execVadds_inv _ _ _ _ _ _ _ hinv
  | vsubs f d a b h m => rw [exec_vsubs]; exact execVsubs_inv _ _ _ _ _ _ _ hinv
  | vmulh f d a b h m => rw [exec_vmulh]; exact execVmulh_inv _ _ _ _ _ _ _ hinv
  | vcmp f cond k a b h m => rw [exec_vcmp]; exact execVcmp_inv _ _ _ _ _ _ _ _ hinv
  | vsel f d a b h m => rw [exec_vsel]; exact execVsel_inv _ _ _ _ _ _ _ hinv
  | vand d a b h m => rw [exec_vand]; exact execVand_inv _ _ _ _ _ _ hinv
  | vor d a b h m => rw [exec_vor]; exact execVor_inv _ _ _ _ _ _ hinv
  | vxor d a b h m => rw [exec_vxor]; exact execVxor_inv _ _ _ _ _ _ hinv
  | vandn d a b h m => rw [exec_vandn]; exact execVandn_inv _ _ _ _ _ _ hinv
  | vshl f d a b h m => rw [exec_vshl]; exact execVshl_inv _ _ _ _ _ _ _ hinv
  | vshr f d a b h m => rw [exec_vshr]; exact execVshr_inv _ _ _ _ _ _ _ hinv
  | vsar f d a b h m => rw [exec_vsar]; exact execVsar_inv _ _ _ _ _ _ _ hinv
  | vcvt rm d a h m => rw [exec_vcvt]; exact execVcvt_inv _ _ _ _ _ _ hinv
  | vrcp f d a h m => rw [exec_vrcp]; exact execVrcp_inv _ _ _ _ _ _ hinv
  | vrsq f d a h m => rw [exec_vrsq]; exact execVrsq_inv _ _ _ _ _ _ hinv
  | vsqrt f d a h m => rw [exec_vsqrt]; exact execVsqrt_inv _ _ _ _ _ _ hinv
  | vdiv f d a b h m => rw [exec_vdiv]; exact execVdiv_inv _ _ _ _ _ _ _ hinv
  | vexp2 f d a h m => rw [exec_vexp2]; exact execVexp2_inv _ _ _ _ _ _ hinv
  | vlog2 f d a h m => rw [exec_vlog2]; exact execVlog2_inv _ _ _ _ _ _ hinv
  | vred f d a op h m => rw [exec_vred]; exact execVred_inv _ _ _ _ _ _ _ hinv
  | vscan f d a op h m => rw [exec_vscan]; exact execVscan_inv _ _ _ _ _ _ _ hinv
  | vperm d a b h m => rw [exec_vperm]; exact execVperm_inv _ _ _ _ _ _ hinv
  | vshuf f d a b h m => rw [exec_vshuf]; exact execVshuf_inv _ _ _ _ _ _ _ hinv
  | vbcast d a b h m => rw [exec_vbcast]; exact execVbcast_inv _ _ _ _ _ _ hinv
  | vsplat f d a im => rw [exec_vsplat]; exact execVsplat_inv _ _ _ _ _ hinv
  | vlane d a b h m => rw [exec_vlane]; exact execVlane_inv _ _ _ _ _ _ hinv
  | vext d a b h m => rw [exec_vext]; exact execVext_inv _ _ _ _ _ _ hinv
  | vins d a b m => rw [exec_vins]; exact execVins_inv _ _ _ _ _ hinv
  | vdot f d a b h m => rw [exec_vdot]; exact execVdot_inv _ _ _ _ _ _ _ hinv
  | vpack w d a b h m => rw [exec_vpack]; exact execVpack_inv _ _ _ _ _ _ _ hinv
  | vunpack w d a mode h m => rw [exec_vunpack]; exact execVunpack_inv _ _ _ _ _ _ _ hinv
  | vld z d r im => rw [exec_vld]; exact execVld_inv _ _ _ _ _ hinv
  | vlds f d a b m => rw [exec_vlds]; exact execVlds_inv _ _ _ _ _ _ hinv
  | vldg f d a b m => rw [exec_vldg]; exact execVldg_inv _ _ _ _ _ _ hinv
  | vst z d r im => rw [exec_vst]; exact execVst_inv _ _ _ _ _ hinv
  | vsts f d a b m => rw [exec_vsts]; exact execVsts_inv _ _ _ _ _ _ hinv
  | vstx f d a b m => rw [exec_vstx]; exact execVstx_inv _ _ _ _ _ _ hinv
  | vstm f d a b m => rw [exec_vstm]; exact execVstm_inv _ _ _ _ _ _ hinv
  | vmov d a h m => rw [exec_vmov]; exact execVmov_inv _ _ _ _ _ hinv
  | mand d a b m => rw [exec_mand]; exact execMand_inv _ _ _ _ _ hinv
  | mor d a b m => rw [exec_mor]; exact execMor_inv _ _ _ _ _ hinv
  | mxor d a b m => rw [exec_mxor]; exact execMxor_inv _ _ _ _ _ hinv
  | mnot d a m => rw [exec_mnot]; exact execMnot_inv _ _ _ _ hinv
  | mpop d a m => rw [exec_mpop]; exact execMpop_inv _ _ _ _ hinv
  | mfirst d a m => rw [exec_mfirst]; exact execMfirst_inv _ _ _ _ hinv
  | vmrd t d a mode m => rw [exec_vmrd]; exact execVmrd_inv _ _ _ _ _ _ hinv
  | vmwr t d a mode m => rw [exec_vmwr]; exact execVmwr_inv _ _ _ _ _ _ hinv
  | vminn f d a b h m => rw [exec_vminn]; exact execVminn_inv _ _ _ _ _ _ _ hinv
  | vmaxn f d a b h m => rw [exec_vmaxn]; exact execVmaxn_inv _ _ _ _ _ _ _ hinv
  | vaddsn f d a b h m => rw [exec_vaddsn]; exact execVaddsn_inv _ _ _ _ _ _ _ hinv
  | vsubsn f d a b h m => rw [exec_vsubsn]; exact execVsubsn_inv _ _ _ _ _ _ _ hinv
  | vmulhn f d a b h m => rw [exec_vmulhn]; exact execVmulhn_inv _ _ _ _ _ _ _ hinv
  | vcmpn f cond k a b h m => rw [exec_vcmpn]; exact execVcmpn_inv _ _ _ _ _ _ _ _ hinv
  | mma f tl t z c a b sc m => rw [exec_mma]; exact execMma_inv _ _ _ _ _ _ _ _ _ _ hinv
  | mmat f tl t z c a b sc m => rw [exec_mmat]; exact execMmat_inv _ _ _ _ _ _ _ _ _ _ hinv
  | mmag f tl t z c a b sc m => rw [exec_mmag]; exact execMmag_inv _ _ _ _ _ _ _ _ _ _ hinv
  | mclr im tl m => rw [exec_mclr]; exact execMclr_inv _ _ _ _ hinv
  | mchk tl a m => rw [exec_mchk]; exact execMchk_inv _ _ _ _ hinv
  | mchkSp a m => rw [exec_mchkSp]; exact execMchkSp_inv _ _ _ hinv
  | mmarg a b m => rw [exec_mmarg]; exact execMmarg_inv _ _ _ _ hinv
  | mload tl t c a m => rw [exec_mload]; exact execMload_inv _ _ _ _ _ _ hinv
  | mout rm tl t c a b m => rw [exec_mout]; exact execMout_inv _ _ _ _ _ _ _ _ hinv
  | cpy put im d a sh m => rw [exec_cpy]; exact execCpy_inv _ _ _ _ _ _ _ hinv
  | cpys put im d a sh m => rw [exec_cpys]; exact execCpys_inv _ _ _ _ _ _ _ hinv
  | cpym im d a sh m => rw [exec_cpym]; exact execCpym_inv _ _ _ _ _ _ hinv
  | cpyt put im d a m => rw [exec_cpyt]; exact execCpyt_inv _ _ _ _ _ _ hinv
  | code v im d a sh m => rw [exec_code]; exact execCode_inv _ _ _ _ _ _ _ hinv
  | hcpy put ch d a sh m => rw [exec_hcpy]; exact execHcpy_inv _ _ _ _ _ _ _ hinv
  | stageRd d m => rw [exec_stageRd]; exact execStageRd_inv _ _ _ hinv
  | stageSet a m => rw [exec_stageSet]; exact execStageSet_inv _ _ _ hinv
  | bara n a m => rw [exec_bara]; exact execBara_inv _ _ _ _ hinv
  | atomInt op d a b w m => rw [exec_atomInt]; exact execAtomInt_inv _ _ _ _ _ _ _ hinv
  | atomOther op d a b w m => rw [exec_atomOther]; exact execAtomOther_inv _ _ _ _ _ _ _ hinv
  | send im n a sh m => rw [exec_send]; exact execSend_inv _ _ _ _ _ _ hinv
  | recv n a m => rw [exec_recv]; exact execRecv_inv _ _ _ _ hinv
  | rld z im d a ord m => rw [exec_rld]; exact execRld_inv _ _ _ _ _ _ _ hinv
  | rst z im d a ord m => rw [exec_rst]; exact execRst_inv _ _ _ _ _ _ _ hinv
  | rred op im d a m => rw [exec_rred]; exact execRred_inv _ _ _ _ _ _ hinv
  | rrel im m => rw [exec_rrel]; exact execRrel_inv _ _ _ hinv
  | rrelAll m => rw [exec_rrelAll]; exact execRrelAll_inv _ _ hinv
  | bcst im d a sh m => rw [exec_bcst]; exact execBcst_inv _ _ _ _ _ _ hinv
  | drain d sc m => rw [exec_drain]; exact execDrain_inv _ _ _ _ hinv
  | ratomInt op im d a opt m => rw [exec_ratomInt]; exact execRatomInt_inv _ _ _ _ _ _ _ hinv
  | ratomOther op im d a opt m => rw [exec_ratomOther]; exact execRatomOther_inv _ _ _ _ _ _ _ hinv
  | scl n r im => rw [exec_scl]; exact execScl_inv _ _ _ _ hinv
  | sclv n a m => rw [exec_sclv]; exact execSclv_inv _ _ _ _ hinv
  | xpack mode d a g m => rw [exec_xpack]; exact execXpack_inv _ _ _ _ _ _ hinv
  | xunpack mode d a g m => rw [exec_xunpack]; exact execXunpack_inv _ _ _ _ _ _ hinv
  | rndpop packed d m => rw [exec_rndpop]; exact execRndpop_inv _ _ _ _ hinv
  | rndseed a m => rw [exec_rndseed]; exact execRndseed_inv _ _ _ hinv
  | idle n => rw [exec_idle]; exact execIdle_inv _ _ hinv
  | powerOnReset pkg => rw [exec_powerOnReset]; exact execPowerOnReset_inv _ _ hinv
  | createPartition p layers lpivl ctx => rw [exec_createPartition]; exact execCreatePartition_inv _ _ _ _ _ hinv
  | chamoisAppend g => rw [exec_chamoisAppend]; exact execChamoisAppend_inv _ _ hinv
  | resultLanding g l => rw [exec_resultLanding]; exact execResultLanding_inv _ _ _ hinv
  | matrixReadable g op => rw [exec_matrixReadable]; exact execMatrixReadable_inv _ _ _ hinv
  | marginCheck g op => rw [exec_marginCheck]; exact execMarginCheck_inv _ _ _ hinv
  | memberShareStart g op => rw [exec_memberShareStart]; exact execMemberShareStart_inv _ _ _ hinv
  | gangCompletionAdd g home off => rw [exec_gangCompletionAdd]; exact execGangCompletionAdd_inv _ _ _ _ hinv
  | pieceTransfer op k rd => rw [exec_pieceTransfer]; exact execPieceTransfer_inv _ _ _ _ hinv
  | codeFillLanding g op k => rw [exec_codeFillLanding]; exact execCodeFillLanding_inv _ _ _ _ hinv
  | hcpyPiece op k => rw [exec_hcpyPiece]; exact execHcpyPiece_inv _ _ _ hinv
  | serviceAccess g => rw [exec_serviceAccess]; exact execServiceAccess_inv _ _ hinv
  | stagedWriteLanding f => rw [exec_stagedWriteLanding]; exact execStagedWriteLanding_inv _ _ hinv
  | remoteRead f => rw [exec_remoteRead]; exact execRemoteRead_inv _ _ hinv
  | ratomLanding f => rw [exec_ratomLanding]; exact execRatomLanding_inv _ _ hinv
  | reductionMerge f e => rw [exec_reductionMerge]; exact execReductionMerge_inv _ _ _ hinv
  | bankAluWrite b => rw [exec_bankAluWrite]; exact execBankAluWrite_inv _ _ hinv
  | commitFlitLanding f => rw [exec_commitFlitLanding]; exact execCommitFlitLanding_inv _ _ hinv
  | recallFlitLanding f => rw [exec_recallFlitLanding]; exact execRecallFlitLanding_inv _ _ hinv
  | linkFlit f hop => rw [exec_linkFlit]; exact execLinkFlit_inv _ _ _ hinv
  | flitLost f => rw [exec_flitLost]; exact execFlitLost_inv _ _ hinv
  | noticeLanding n => rw [exec_noticeLanding]; exact execNoticeLanding_inv _ _ hinv
  | packageLost pkg => rw [exec_packageLost]; exact execPackageLost_inv _ _ hinv
  | peerSetUpdate p x => rw [exec_peerSetUpdate]; exact execPeerSetUpdate_inv _ _ _ hinv
  | drainComplete g n => rw [exec_drainComplete]; exact execDrainComplete_inv _ _ _ hinv
  | horizonResume g => rw [exec_horizonResume]; exact execHorizonResume_inv _ _ hinv
  | rendezvousRelease r => rw [exec_rendezvousRelease]; exact execRendezvousRelease_inv _ _ hinv
  | watermarkCompare r => rw [exec_watermarkCompare]; exact execWatermarkCompare_inv _ _ hinv
  | cancelVisible p lvl x => rw [exec_cancelVisible]; exact execCancelVisible_inv _ _ _ _ hinv
  | coreIdle g => rw [exec_coreIdle]; exact execCoreIdle_inv _ _ hinv
  | launchStaging p => rw [exec_launchStaging]; exact execLaunchStaging_inv _ _ hinv
  | launchPointRelease p => rw [exec_launchPointRelease]; exact execLaunchPointRelease_inv _ _ hinv
  | jobStart p => rw [exec_jobStart]; exact execJobStart_inv _ _ hinv
  | thermalTrip k => rw [exec_thermalTrip]; exact execThermalTrip_inv _ _ hinv
  | thermalRelease k => rw [exec_thermalRelease]; exact execThermalRelease_inv _ _ hinv
  | podFreeze p r => rw [exec_podFreeze]; exact execPodFreeze_inv _ _ _ hinv
  | freezeBoundary p => rw [exec_freezeBoundary]; exact execFreezeBoundary_inv _ _ hinv
  | partitionResume p => rw [exec_partitionResume]; exact execPartitionResume_inv _ _ hinv
  | dredgerStep g => rw [exec_dredgerStep]; exact execDredgerStep_inv _ _ hinv
  | dredgerWriteback g off => rw [exec_dredgerWriteback]; exact execDredgerWriteback_inv _ _ _ hinv
  | timing g sq => rw [exec_timing]; exact execTiming_inv _ _ _ hinv
  | deliver op k => rw [exec_deliver]; exact execDeliver_inv _ _ _ hinv
  | cycslip g => rw [exec_cycslip]; exact execCycslip_inv _ _ hinv
  | undoWriteback g => rw [exec_undoWriteback]; exact execUndoWriteback_inv _ _ hinv
  | handlerEntry g => rw [exec_handlerEntry]; exact execHandlerEntry_inv _ _ hinv
  | segmentReentry g => rw [exec_segmentReentry]; exact execSegmentReentry_inv _ _ hinv
  | deferredLanding g => rw [exec_deferredLanding]; exact execDeferredLanding_inv _ _ hinv
  | tableServiceRequest g => rw [exec_tableServiceRequest]; exact execTableServiceRequest_inv _ _ hinv
  | tableEntryWrite k e hi x => rw [exec_tableEntryWrite]; exact execTableEntryWrite_inv _ _ _ _ _ hinv
  | tableEntryRepair k e => rw [exec_tableEntryRepair]; exact execTableEntryRepair_inv _ _ _ hinv
  | mapPublication pkg bytes inService => rw [exec_mapPublication]; exact execMapPublication_inv _ _ _ _ hinv
  | surveyWindow k bytes => rw [exec_surveyWindow]; exact execSurveyWindow_inv _ _ _ hinv
  | inServiceSurvey pkg bytes => rw [exec_inServiceSurvey]; exact execInServiceSurvey_inv _ _ _ hinv
  | load p => rw [exec_load]; exact execLoad_inv _ _ hinv
  | unload p => rw [exec_unload]; exact execUnload_inv _ _ hinv
  | start p => rw [exec_start]; exact execStart_inv _ _ hinv
  | endJob p => rw [exec_endJob]; exact execEndJob_inv _ _ hinv
  | cancelCommand p => rw [exec_cancelCommand]; exact execCancelCommand_inv _ _ hinv
  | hold p => rw [exec_hold]; exact execHold_inv _ _ hinv
  | release p => rw [exec_release]; exact execRelease_inv _ _ hinv
  | patch p => rw [exec_patch]; exact execPatch_inv _ _ hinv
  | attest p => rw [exec_attest]; exact execAttest_inv _ _ hinv
  | ckpt p => rw [exec_ckpt]; exact execCkpt_inv _ _ hinv
  | resumeck p => rw [exec_resumeck]; exact execResumeck_inv _ _ hinv
  | rebind p => rw [exec_rebind]; exact execRebind_inv _ _ hinv
  | freeze p => rw [exec_freeze]; exact execFreeze_inv _ _ hinv
  | save p => rw [exec_save]; exact execSave_inv _ _ hinv
  | restore p => rw [exec_restore]; exact execRestore_inv _ _ hinv
  | resume p => rw [exec_resume]; exact execResume_inv _ _ hinv
  | discard p => rw [exec_discard]; exact execDiscard_inv _ _ hinv
  | mbrespClear p => rw [exec_mbrespClear]; exact execMbrespClear_inv _ _ hinv
  | ctxstatClear p => rw [exec_ctxstatClear]; exact execCtxstatClear_inv _ _ hinv
  | firedClear g x => rw [exec_firedClear]; exact execFiredClear_inv _ _ _ hinv
  | launchQueueEnqueue p e x => rw [exec_launchQueueEnqueue]; exact execLaunchQueueEnqueue_inv _ _ _ _ hinv
  | launchQueueEmpty p e x => rw [exec_launchQueueEmpty]; exact execLaunchQueueEmpty_inv _ _ _ _ hinv
  | launchQueueFieldWrite p e x => rw [exec_launchQueueFieldWrite]; exact execLaunchQueueFieldWrite_inv _ _ _ _ hinv
  | repairreq g x => rw [exec_repairreq]; exact execRepairreq_inv _ _ _ hinv
  | bistsum g x => rw [exec_bistsum]; exact execBistsum_inv _ _ _ hinv
  | arrayInjectorArm g n x => rw [exec_arrayInjectorArm]; exact execArrayInjectorArm_inv _ _ _ _ hinv
  | linkInjectorArm k n x => rw [exec_linkInjectorArm]; exact execLinkInjectorArm_inv _ _ _ _ hinv
  | systemRegisterWrite t x => rw [exec_systemRegisterWrite]; exact execSystemRegisterWrite_inv _ _ _ hinv
  | illegal g sub pos => rw [exec_illegal]; exact execIllegal_inv _ _ _ _ hinv
  | unknownCommandCode p ctx => rw [exec_unknownCommandCode]; exact execUnknownCommandCode_inv _ _ _ hinv
  | coreLost g => rw [exec_coreLost]; exact execCoreLost_inv _ _ hinv
  | extendService k mr x => rw [exec_extendService]; exact execExtendService_inv _ _ _ _ hinv
  | tableServiceAnswer g decline => rw [exec_tableServiceAnswer]; exact execTableServiceAnswer_inv _ _ _ hinv

theorem fetchReads_inv (x0 : State) (x1 : Nat) (h0 : Inv x0) :
    Inv (fetchReads x0 x1) := by
  unfold fetchReads
  repeat' first
    | with_reducible assumption | with_reducible intro _ | with_reducible apply countReads_inv
    | dsimp only | split

theorem skipSlot_inv (x0 : State) (x1 : Instr) (x2 : List FaultRec) (h0 : Inv x0) :
    Inv (skipSlot x0 x1 x2) := by
  unfold skipSlot
  repeat' first
    | with_reducible assumption | with_reducible intro _ | with_reducible apply takeCmd_inv
    | with_reducible apply noteVreads_inv | with_reducible apply inv_foldl | with_reducible apply inv_foldl1
    | dsimp only | split

theorem runSlots_inv (l : List (Nat × Instr)) (s : State) (h : Inv s) : Good (runSlots l s) := by
  induction l generalizing s with
  | nil => exact good_next h
  | cons x l ih =>
    unfold runSlots
    split
    · exact ih s h
    · dsimp only
      split
      · rename_i t ht
        have := exec_inv x.2 _ (inv_mk h) t ht
        exact ih _ (inv_ite this (skipSlot_inv _ _ _ (inv_mk h)))
      · exact good_fault _
      · exact good_refused _

theorem enterBundle_inv (x0 : State) (x1 : Nat) (x2 : Bundle) (x3 : List FaultRec) (h0 : Inv x0) :
    Inv (enterBundle x0 x1 x2 x3) := by
  unfold enterBundle
  repeat' first
    | with_reducible assumption | with_reducible intro _ | with_reducible apply modCore_inv | dsimp only
    | split

theorem finishBundle_inv (x0 : Nat) (x1 : Bundle) (x2 : State) (h2 : Inv x2) :
    Inv (finishBundle x0 x1 x2) := by
  unfold finishBundle
  repeat' first
    | with_reducible assumption | with_reducible intro _ | with_reducible apply postAt_inv
    | with_reducible apply modCore_inv | with_reducible apply inv_foldl | with_reducible apply inv_foldl1
    | dsimp only | split

theorem failBundle_inv (x0 : State) (x1 : Nat) (x2 : List FaultRec) (h0 : Inv x0) :
    Inv (failBundle x0 x1 x2) := by
  unfold failBundle
  repeat' first
    | with_reducible assumption | with_reducible intro _ | with_reducible apply askRepair_inv
    | with_reducible apply takeFault_inv | with_reducible apply countUncorr_inv | with_reducible apply inv_foldl
    | with_reducible apply inv_foldl1 | dsimp only | split

theorem readBundle_inv (x0 : State) (x1 : Nat) (x2 : Bundle) (h0 : Inv x0) :
    Inv (readBundle x0 x1 x2) := by
  unfold readBundle
  repeat' first
    | with_reducible assumption | with_reducible intro _ | with_reducible apply countOperands_inv
    | with_reducible apply inv_foldl | with_reducible apply inv_foldl1 | dsimp only | split

theorem issueSlots_inv (g : Nat) (b : Bundle) (s : State) (h : Inv s) : Good (issueSlots g b s) := by
  unfold issueSlots
  split
  · rename_i t ht
    have := runSlots_inv _ _ (enterBundle_inv s g b _ h) t ht
    exact good_next (inv_ite (finishBundle_inv _ _ _ this) (failBundle_inv _ _ _ (readBundle_inv _ _ _ h)))
  · exact good_fault _
  · exact good_refused _

theorem controlStop_inv (x0 : State) (x1 : Nat) (x2 : FaultRec) (h0 : Inv x0) :
    Inv (controlStop x0 x1 x2) := by
  unfold controlStop
  repeat' first
    | with_reducible assumption | with_reducible intro _ | with_reducible apply modCore_inv

theorem issueControl_inv (g : Nat) (s : State) (h : Inv s) : Good (issueControl g s) := by
  unfold issueControl
  dsimp only
  split
  · exact good_next (controlStop_inv _ _ _ h)
  · split
    · exact good_next (controlStop_inv _ _ _ h)
    · split
      · split
        · exact good_next (controlStop_inv _ _ _ h)
        · split
          · exact good_next (postAt_inv _ _ _ _ _ _ h)
          · split
            · rename_i t ht
              have := exec_inv _ _ (inv_mk (modCore_inv s g _ h)) t ht
              split
              · exact good_next (controlStop_inv _ _ _ (modCore_inv s g _ h))
              · exact good_next (finishBundle_inv _ _ _ this)
            · exact good_fault _
            · exact good_refused _
      · exact good_next (controlStop_inv _ _ _ h)

theorem issueBundle_inv (g : Nat) (s : State) (h : Inv s) : Good (issueBundle g s) := by
  have hr := fetchReads_inv s g h
  unfold issueBundle
  dsimp only
  split
  · exact good_next h
  · split
    · exact issueControl_inv _ _ h
    · split
      · exact good_next (failBundle_inv _ _ _ hr)
      · split
        · exact exec_inv _ _ hr
        · exact issueSlots_inv _ _ _ hr

theorem lookAhead_inv (g : Nat) (s : State) (h : Inv s) : Inv (lookAhead g s) := by
  unfold lookAhead
  exact modCore_inv _ _ _ h

theorem readLate_inv (x0 : State) (x1 : Nat) (x2 : Nat) (x3 : Nat) (x4 : Nat) (x5 : Option Src) (h0 : Inv x0) :
    Inv (readLate x0 x1 x2 x3 x4 x5) := by
  unfold readLate
  repeat' first
    | with_reducible assumption | with_reducible intro _ | with_reducible apply postAt_inv

theorem performNow_inv (x0 : State) (x1 : Nat) (x2 : Option Src) (x3 : Perf) (h0 : Inv x0) :
    Inv (performNow x0 x1 x2 x3) := by
  unfold performNow
  repeat' first
    | with_reducible assumption | with_reducible intro _ | with_reducible apply scrubNow_inv
    | with_reducible apply countError_inv | with_reducible apply clearMstNow_inv
    | with_reducible apply leaveHandler_inv | with_reducible apply readLate_inv | with_reducible apply berthOver_inv
    | with_reducible apply unitDone_inv | with_reducible apply arriveRdv_inv | with_reducible apply holdHorizon_inv
    | with_reducible apply drainDecideNow_inv | with_reducible apply queueHcpy_inv | with_reducible apply haltUnit_inv
    | with_reducible apply cancelFrom_inv | with_reducible apply seedChamois_inv | with_reducible apply sysWrite_inv
    | with_reducible apply modCore_inv | with_reducible apply storeNow_inv | with_reducible apply inv_foldl
    | with_reducible apply inv_foldl1 | dsimp only | split

theorem streamNow_inv (x0 : State) (x1 : Nat) (h0 : Inv x0) :
    Inv (streamNow x0 x1) := by
  unfold streamNow
  repeat' first
    | with_reducible assumption | with_reducible intro _ | with_reducible apply dropFlit_inv
    | with_reducible apply streamLand_inv | with_reducible apply inv_foldl | with_reducible apply inv_foldl1
    | dsimp only | split

theorem dueFaults_inv (s : State) (g : Nat) (h : Inv s) : Inv (dueFaults s g).1 := by
  have hf := fetchReads_inv s g h
  unfold dueFaults
  dsimp only
  split
  · exact h
  · split
    · exact hf
    · split
      · exact hf
      · exact readBundle_inv _ _ _ hf

theorem foundNow_inv (s : State) (g : Nat) (h : Inv s) : Inv (foundNow s g) :=
  failBundle_inv _ _ _ (modCore_inv _ _ _ (dueFaults_inv s g h))

theorem runEvent_inv (d : Due) (s : State) (h : Inv s) : Good (runEvent d s) := by
  unfold runEvent
  split
  · exact issueBundle_inv _ _ h
  · exact exec_inv _ _ h
  · exact good_next (performNow_inv _ _ _ _ h)
  · exact good_next (engineReadAt_inv _ _ _ _ _ h)
  · exact good_next (moutRowAt_inv _ _ _ _ h)
  · exact good_next (moutReadAt_inv _ _ _ _ h)
  · exact good_next (landXfer_inv _ _ h)
  · exact good_next (pieceBankNow_inv _ _ _ _ _ h)
  · exact good_next (askStack_inv _ _ _ _ h)
  · exact good_next (lookAhead_inv _ _ h)
  · exact good_next (replyNow_inv _ _ h)
  · exact good_next (aluReadNow_inv _ _ h)
  · exact good_next (streamNow_inv _ _ h)
  · exact good_next (foundNow_inv _ _ h)
  · exact good_next (contextDone_inv _ _ h)
  · exact good_next (imageBooted_inv _ _ h)

theorem takePhase1_inv (x0 : State) (h0 : Inv x0) :
    Inv (takePhase1 x0) := by
  unfold takePhase1
  repeat' first
    | with_reducible assumption | with_reducible intro _ | with_reducible apply post_inv
    | with_reducible apply inv_foldl | with_reducible apply inv_foldl1 | dsimp only | split

theorem tick_inv (x0 : State) (h0 : Inv x0) :
    Inv (tick x0) := by
  unfold tick
  repeat' first
    | with_reducible assumption | with_reducible intro _ | with_reducible apply takePhase1_inv
    | with_reducible apply post_inv | with_reducible apply postSub_inv | with_reducible apply inv_foldl
    | with_reducible apply inv_foldl1 | dsimp only | split

end Sys2Proof.Machine
end

