-- ==== Sys2Proof/Laws/PerInstr.lean ====
section
/-! SUPPORT. Per instruction: decoding the slot word and the K slots of a well-formed instruction gives it back. -/

namespace Sys2Proof.Laws.SlotWord

/-- The words of the instruction decode to it. -/
def Statement (i : Instr) : Prop := i.isSlot = true → i.wf = true → decodeSlot i.enc.1 i.enc.2 = .ok i

set_option Elab.async false in
theorem add : ∀ d a b m, Statement (.add d a b m) := by
  intro d a b m _ hw; change decodeSlot (packA 0 0x00 0 d.toNat a.toNat b.toNat 0) (mdWords m) = _
  apply decodeSlot_packA hw <;> first | exact bit6_lt _ | exact immLow_lt _ | omega | skip
  intro x; delta readSlot decodeS; simp

theorem sub : ∀ d a b m, Statement (.sub d a b m) := by
  intro d a b m _ hw; change decodeSlot (packA 0 0x01 0 d.toNat a.toNat b.toNat 0) (mdWords m) = _
  apply decodeSlot_packA hw <;> first | exact bit6_lt _ | exact immLow_lt _ | omega | skip
  intro x; delta readSlot decodeS; simp

theorem mul : ∀ d a b m, Statement (.mul d a b m) := by
  intro d a b m _ hw; change decodeSlot (packA 0 0x02 0 d.toNat a.toNat b.toNat 0) (mdWords m) = _
  apply decodeSlot_packA hw <;> first | exact bit6_lt _ | exact immLow_lt _ | omega | skip
  intro x; delta readSlot decodeS; simp

theorem mulh : ∀ d a b m, Statement (.mulh d a b m) := by
  intro d a b m _ hw; change decodeSlot (packA 0 0x03 0 d.toNat a.toNat b.toNat 0) (mdWords m) = _
  apply decodeSlot_packA hw <;> first | exact bit6_lt _ | exact immLow_lt _ | omega | skip
  intro x; delta readSlot decodeS; simp

theorem mulhn : ∀ d a b m, Statement (.mulhn d a b m) := by
  intro d a b m _ hw; change decodeSlot (packA 0 0x04 0 d.toNat a.toNat b.toNat 0) (mdWords m) = _
  apply decodeSlot_packA hw <;> first | exact bit6_lt _ | exact immLow_lt _ | omega | skip
  intro x; delta readSlot decodeS; simp

theorem div : ∀ d a b m, Statement (.div d a b m) := by
  intro d a b m _ hw; change decodeSlot (packA 0 0x05 0 d.toNat a.toNat b.toNat 0) (mdWords m) = _
  apply decodeSlot_packA hw <;> first | exact bit6_lt _ | exact immLow_lt _ | omega | skip
  intro x; delta readSlot decodeS; simp

theorem divn : ∀ d a b m, Statement (.divn d a b m) := by
  intro d a b m _ hw; change decodeSlot (packA 0 0x06 0 d.toNat a.toNat b.toNat 0) (mdWords m) = _
  apply decodeSlot_packA hw <;> first | exact bit6_lt _ | exact immLow_lt _ | omega | skip
  intro x; delta readSlot decodeS; simp

theorem rem : ∀ d a b m, Statement (.rem d a b m) := by
  intro d a b m _ hw; change decodeSlot (packA 0 0x07 0 d.toNat a.toNat b.toNat 0) (mdWords m) = _
  apply decodeSlot_packA hw <;> first | exact bit6_lt _ | exact immLow_lt _ | omega | skip
  intro x; delta readSlot decodeS; simp

theorem remn : ∀ d a b m, Statement (.remn d a b m) := by
  intro d a b m _ hw; change decodeSlot (packA 0 0x08 0 d.toNat a.toNat b.toNat 0) (mdWords m) = _
  apply decodeSlot_packA hw <;> first | exact bit6_lt _ | exact immLow_lt _ | omega | skip
  intro x; delta readSlot decodeS; simp

theorem minS : ∀ d a b m, Statement (.minS d a b m) := by
  intro d a b m _ hw; change decodeSlot (packA 0 0x09 0 d.toNat a.toNat b.toNat 0) (mdWords m) = _
  apply decodeSlot_packA hw <;> first | exact bit6_lt _ | exact immLow_lt _ | omega | skip
  intro x; delta readSlot decodeS; simp

theorem minn : ∀ d a b m, Statement (.minn d a b m) := by
  intro d a b m _ hw; change decodeSlot (packA 0 0x0A 0 d.toNat a.toNat b.toNat 0) (mdWords m) = _
  apply decodeSlot_packA hw <;> first | exact bit6_lt _ | exact immLow_lt _ | omega | skip
  intro x; delta readSlot decodeS; simp

theorem maxS : ∀ d a b m, Statement (.maxS d a b m) := by
  intro d a b m _ hw; change decodeSlot (packA 0 0x0B 0 d.toNat a.toNat b.toNat 0) (mdWords m) = _
  apply decodeSlot_packA hw <;> first | exact bit6_lt _ | exact immLow_lt _ | omega | skip
  intro x; delta readSlot decodeS; simp

theorem maxn : ∀ d a b m, Statement (.maxn d a b m) := by
  intro d a b m _ hw; change decodeSlot (packA 0 0x0C 0 d.toNat a.toNat b.toNat 0) (mdWords m) = _
  apply decodeSlot_packA hw <;> first | exact bit6_lt _ | exact immLow_lt _ | omega | skip
  intro x; delta readSlot decodeS; simp

theorem slt : ∀ d a b m, Statement (.slt d a b m) := by
  intro d a b m _ hw; change decodeSlot (packA 0 0x0D 0 d.toNat a.toNat b.toNat 0) (mdWords m) = _
  apply decodeSlot_packA hw <;> first | exact bit6_lt _ | exact immLow_lt _ | omega | skip
  intro x; delta readSlot decodeS; simp

theorem sltn : ∀ d a b m, Statement (.sltn d a b m) := by
  intro d a b m _ hw; change decodeSlot (packA 0 0x0E 0 d.toNat a.toNat b.toNat 0) (mdWords m) = _
  apply decodeSlot_packA hw <;> first | exact bit6_lt _ | exact immLow_lt _ | omega | skip
  intro x; delta readSlot decodeS; simp

theorem seq : ∀ d a b m, Statement (.seq d a b m) := by
  intro d a b m _ hw; change decodeSlot (packA 0 0x0F 0 d.toNat a.toNat b.toNat 0) (mdWords m) = _
  apply decodeSlot_packA hw <;> first | exact bit6_lt _ | exact immLow_lt _ | omega | skip
  intro x; delta readSlot decodeS; simp

theorem andS : ∀ d a b m, Statement (.andS d a b m) := by
  intro d a b m _ hw; change decodeSlot (packA 0 0x10 0 d.toNat a.toNat b.toNat 0) (mdWords m) = _
  apply decodeSlot_packA hw <;> first | exact bit6_lt _ | exact immLow_lt _ | omega | skip
  intro x; delta readSlot decodeS; simp

theorem orS : ∀ d a b m, Statement (.orS d a b m) := by
  intro d a b m _ hw; change decodeSlot (packA 0 0x11 0 d.toNat a.toNat b.toNat 0) (mdWords m) = _
  apply decodeSlot_packA hw <;> first | exact bit6_lt _ | exact immLow_lt _ | omega | skip
  intro x; delta readSlot decodeS; simp

theorem xorS : ∀ d a b m, Statement (.xorS d a b m) := by
  intro d a b m _ hw; change decodeSlot (packA 0 0x12 0 d.toNat a.toNat b.toNat 0) (mdWords m) = _
  apply decodeSlot_packA hw <;> first | exact bit6_lt _ | exact immLow_lt _ | omega | skip
  intro x; delta readSlot decodeS; simp

theorem andn : ∀ d a b m, Statement (.andn d a b m) := by
  intro d a b m _ hw; change decodeSlot (packA 0 0x13 0 d.toNat a.toNat b.toNat 0) (mdWords m) = _
  apply decodeSlot_packA hw <;> first | exact bit6_lt _ | exact immLow_lt _ | omega | skip
  intro x; delta readSlot decodeS; simp

theorem shl : ∀ d a b m, Statement (.shl d a b m) := by
  intro d a b m _ hw; change decodeSlot (packA 0 0x14 0 d.toNat a.toNat b.toNat 0) (mdWords m) = _
  apply decodeSlot_packA hw <;> first | exact bit6_lt _ | exact immLow_lt _ | omega | skip
  intro x; delta readSlot decodeS; simp

theorem shr : ∀ d a b m, Statement (.shr d a b m) := by
  intro d a b m _ hw; change decodeSlot (packA 0 0x15 0 d.toNat a.toNat b.toNat 0) (mdWords m) = _
  apply decodeSlot_packA hw <;> first | exact bit6_lt _ | exact immLow_lt _ | omega | skip
  intro x; delta readSlot decodeS; simp

theorem sar : ∀ d a b m, Statement (.sar d a b m) := by
  intro d a b m _ hw; change decodeSlot (packA 0 0x16 0 d.toNat a.toNat b.toNat 0) (mdWords m) = _
  apply decodeSlot_packA hw <;> first | exact bit6_lt _ | exact immLow_lt _ | omega | skip
  intro x; delta readSlot decodeS; simp

theorem sel : ∀ d a b m, Statement (.sel d a b m) := by
  intro d a b m _ hw; change decodeSlot (packA 0 0x17 0 d.toNat a.toNat b.toNat 0) (mdWords m) = _
  apply decodeSlot_packA hw <;> first | exact bit6_lt _ | exact immLow_lt _ | omega | skip
  intro x; delta readSlot decodeS; simp

theorem clz : ∀ d a m, Statement (.clz d a m) := by
  intro d a m _ hw; change decodeSlot (packA 0 0x18 0 d.toNat a.toNat 0 0) (mdWords m) = _
  apply decodeSlot_packA hw <;> first | exact bit6_lt _ | exact immLow_lt _ | omega | skip
  intro x; delta readSlot decodeS; simp

theorem ctz : ∀ d a m, Statement (.ctz d a m) := by
  intro d a m _ hw; change decodeSlot (packA 0 0x19 0 d.toNat a.toNat 0 0) (mdWords m) = _
  apply decodeSlot_packA hw <;> first | exact bit6_lt _ | exact immLow_lt _ | omega | skip
  intro x; delta readSlot decodeS; simp

theorem popc : ∀ d a m, Statement (.popc d a m) := by
  intro d a m _ hw; change decodeSlot (packA 0 0x1A 0 d.toNat a.toNat 0 0) (mdWords m) = _
  apply decodeSlot_packA hw <;> first | exact bit6_lt _ | exact immLow_lt _ | omega | skip
  intro x; delta readSlot decodeS; simp

set_option Elab.async false in
theorem addi : ∀ d a i, Statement (.addi d a i) := by
  intro d a i _ hw; change decodeSlot (packI 0 0x1C 0 d.toNat a.toNat i.low) (i.words) = _
  apply decodeSlot_packI hw <;> first | exact bit6_lt _ | exact immLow_lt _ | omega | skip
  intro x; delta readSlot decodeS; simp

theorem andi : ∀ d a i, Statement (.andi d a i) := by
  intro d a i _ hw; change decodeSlot (packI 0 0x1D 0 d.toNat a.toNat i.low) (i.words) = _
  apply decodeSlot_packI hw <;> first | exact bit6_lt _ | exact immLow_lt _ | omega | skip
  intro x; delta readSlot decodeS; simp

theorem ori : ∀ d a i, Statement (.ori d a i) := by
  intro d a i _ hw; change decodeSlot (packI 0 0x1E 0 d.toNat a.toNat i.low) (i.words) = _
  apply decodeSlot_packI hw <;> first | exact bit6_lt _ | exact immLow_lt _ | omega | skip
  intro x; delta readSlot decodeS; simp

theorem xori : ∀ d a i, Statement (.xori d a i) := by
  intro d a i _ hw; change decodeSlot (packI 0 0x1F 0 d.toNat a.toNat i.low) (i.words) = _
  apply decodeSlot_packI hw <;> first | exact bit6_lt _ | exact immLow_lt _ | omega | skip
  intro x; delta readSlot decodeS; simp

theorem shli : ∀ d a i, Statement (.shli d a i) := by
  intro d a i _ hw; change decodeSlot (packI 0 0x20 0 d.toNat a.toNat i.low) (i.words) = _
  apply decodeSlot_packI hw <;> first | exact bit6_lt _ | exact immLow_lt _ | omega | skip
  intro x; delta readSlot decodeS; simp

theorem shri : ∀ d a i, Statement (.shri d a i) := by
  intro d a i _ hw; change decodeSlot (packI 0 0x21 0 d.toNat a.toNat i.low) (i.words) = _
  apply decodeSlot_packI hw <;> first | exact bit6_lt _ | exact immLow_lt _ | omega | skip
  intro x; delta readSlot decodeS; simp

theorem sari : ∀ d a i, Statement (.sari d a i) := by
  intro d a i _ hw; change decodeSlot (packI 0 0x22 0 d.toNat a.toNat i.low) (i.words) = _
  apply decodeSlot_packI hw <;> first | exact bit6_lt _ | exact immLow_lt _ | omega | skip
  intro x; delta readSlot decodeS; simp

theorem slti : ∀ d a i, Statement (.slti d a i) := by
  intro d a i _ hw; change decodeSlot (packI 0 0x23 0 d.toNat a.toNat i.low) (i.words) = _
  apply decodeSlot_packI hw <;> first | exact bit6_lt _ | exact immLow_lt _ | omega | skip
  intro x; delta readSlot decodeS; simp

theorem sltni : ∀ d a i, Statement (.sltni d a i) := by
  intro d a i _ hw; change decodeSlot (packI 0 0x24 0 d.toNat a.toNat i.low) (i.words) = _
  apply decodeSlot_packI hw <;> first | exact bit6_lt _ | exact immLow_lt _ | omega | skip
  intro x; delta readSlot decodeS; simp

theorem li : ∀ x d i, Statement (.li x d i) := by
  intro x d i _ hw; change decodeSlot (packI 0 0x25 (b2n x) d.toNat 0 i.low) (i.words) = _; have h0 := b2n_lt x
  apply decodeSlot_packI hw <;> first | exact bit6_lt _ | exact immLow_lt _ | omega | skip
  intro x; delta readSlot decodeS; simp; omega

theorem lds : ∀ z d r i, Statement (.lds z d r i) := by
  intro z d r i _ hw; change decodeSlot (packI 0 0x26 z.toNat d.toNat r.toNat i.low) (i.words) = _; have h0 := bit2_lt z
  apply decodeSlot_packI hw <;> first | exact bit6_lt _ | exact immLow_lt _ | omega | skip
  intro x; delta readSlot decodeS; simp; omega

theorem sts : ∀ z d r i, Statement (.sts z d r i) := by
  intro z d r i _ hw; change decodeSlot (packI 0 0x27 z.toNat d.toNat r.toNat i.low) (i.words) = _; have h0 := bit2_lt z
  apply decodeSlot_packI hw <;> first | exact bit6_lt _ | exact immLow_lt _ | omega | skip
  intro x; delta readSlot decodeS; simp; omega

theorem agen : ∀ n d a b m, Statement (.agen n d a b m) := by
  intro n d a b m _ hw; change decodeSlot (packA 0 0x28 n.toNat d.toNat a.toNat b.toNat 0) (mdWords m) = _; have h0 := bit2_lt n
  apply decodeSlot_packA hw <;> first | exact bit6_lt _ | exact immLow_lt _ | omega | skip
  intro x; delta readSlot decodeS; simp; omega

theorem lcset : ∀ n a i, Statement (.lcset n a i) := by
  intro n a i _ hw; change decodeSlot (packI 0 0x29 0 (36 + n.toNat) a.toNat i.low) (i.words) = _; have h0 := bit2_lt n
  apply decodeSlot_packI hw <;> first | exact bit6_lt _ | exact immLow_lt _ | omega | skip
  intro x; delta readSlot decodeS; simp; omega

theorem br : ∀ i, Statement (.br i) := by
  intro i _ hw; change decodeSlot (packI 0 0x2A 0 0 0 i.low) (i.words) = _
  apply decodeSlot_packI hw <;> first | exact bit6_lt _ | exact immLow_lt _ | omega | skip
  intro x; delta readSlot decodeS; simp

theorem brc : ∀ z a i, Statement (.brc z a i) := by
  intro z a i _ hw; change decodeSlot (packI 0 0x2B (b2n z) 0 a.toNat i.low) (i.words) = _; have h0 := b2n_lt z
  apply decodeSlot_packI hw <;> first | exact bit6_lt _ | exact immLow_lt _ | omega | skip
  intro x; delta readSlot decodeS; simp; omega

theorem call : ∀ d i, Statement (.call d i) := by
  intro d i _ hw; change decodeSlot (packI 0 0x2C 0 d.toNat 0 i.low) (i.words) = _
  apply decodeSlot_packI hw <;> first | exact bit6_lt _ | exact immLow_lt _ | omega | skip
  intro x; delta readSlot decodeS; simp

theorem ret : ∀ a, Statement (.ret a) := by
  intro a _ hw; change decodeSlot (packA 0 0x2D 0 0 a.toNat 0 0) ([]) = _
  apply decodeSlot_packA hw <;> first | exact bit6_lt _ | exact immLow_lt _ | omega | skip
  intro x; delta readSlot decodeS; simp

theorem repeatLoop : ∀ n a i, Statement (.repeatLoop n a i) := by
  intro n a i _ hw; change decodeSlot (packI 0 0x2E 0 (36 + n.toNat) a.toNat i.low) (i.words) = _; have h0 := bit2_lt n
  apply decodeSlot_packI hw <;> first | exact bit6_lt _ | exact immLow_lt _ | omega | skip
  intro x; delta readSlot decodeS; simp; omega

theorem moor : ∀ o c sigl sigh budget safe, Statement (.moor o c sigl sigh budget safe) := by
  intro o c sigl sigh budget safe _ hw
  have h0 := o.isLt; have h1 := c.isLt; have h2 := sigl.isLt; have h3 := sigh.isLt; have h4 := budget.isLt; have h5 := b2n_lt safe
  have e0 : BitVec.ofNat 19 (o.toNat / 2 ^ 13 * 2 ^ 13 + o.toNat / 2 ^ 7 % 64 * 2 ^ 7 + o.toNat % 128) = o := by
    apply BitVec.eq_of_toNat_eq; simp only [BitVec.toNat_ofNat]; omega
  have e1 : BitVec.ofNat 4 ((sigh.toNat + budget.toNat * 2 ^ 4 + b2n safe * 2 ^ 13) % 16) = sigh := by
    apply BitVec.eq_of_toNat_eq; simp only [BitVec.toNat_ofNat]; omega
  have e2 : BitVec.ofNat 9 ((sigh.toNat + budget.toNat * 2 ^ 4 + b2n safe * 2 ^ 13) / 16 % 512) = budget := by
    apply BitVec.eq_of_toNat_eq; simp only [BitVec.toNat_ofNat]; omega
  have e3 : (sigh.toNat + budget.toNat * 2 ^ 4 + b2n safe * 2 ^ 13) / 2 ^ 13 % 2 = b2n safe := by omega
  have e4 : (sigh.toNat + budget.toNat * 2 ^ 4 + b2n safe * 2 ^ 13) / 2 ^ 14 = 0 := by omega
  change decodeSlot (packI 0 0x2F 0 (o.toNat / 2 ^ 13) (o.toNat / 2 ^ 7 % 64) (o.toNat % 128))
    [c.toNat, sigl.toNat, sigh.toNat + budget.toNat * 2 ^ 4 + b2n safe * 2 ^ 13] = _
  apply decodeSlot_packI hw <;> first | omega | skip
  intro x; delta readSlot decodeS
  simp only [e0, e1, e2, e3, e4, n2b_b2n, if_true, BitVec.ofNat_toNat, BitVec.setWidth_eq]


theorem rdvPlain : ∀ sc g, Statement (.rdvPlain sc g) := by
  intro sc g _ hw; change decodeSlot (packA 0 0x30 sc.toNat g.toNat 0 0 0) ([]) = _; have h0 := bit3_lt sc
  apply decodeSlot_packA hw <;> first | exact bit6_lt _ | exact immLow_lt _ | omega | skip
  intro x; delta readSlot decodeS; simp

theorem rdvBar : ∀ sc g a b, Statement (.rdvBar sc g a b) := by
  intro sc g a b _ hw; change decodeSlot (packA 0 0x31 sc.toNat g.toNat a.toNat b.toNat 0) ([]) = _; have h0 := bit3_lt sc
  apply decodeSlot_packA hw <;> first | exact bit6_lt _ | exact immLow_lt _ | omega | skip
  intro x; delta readSlot decodeS; simp

theorem rdvWm : ∀ sc g a b, Statement (.rdvWm sc g a b) := by
  intro sc g a b _ hw; change decodeSlot (packA 0 0x32 sc.toNat g.toNat a.toNat b.toNat 0) ([]) = _; have h0 := bit3_lt sc
  apply decodeSlot_packA hw <;> first | exact bit6_lt _ | exact immLow_lt _ | omega | skip
  intro x; delta readSlot decodeS; simp

theorem rdvCmt : ∀ sc g a b, Statement (.rdvCmt sc g a b) := by
  intro sc g a b _ hw; change decodeSlot (packA 0 0x33 sc.toNat g.toNat a.toNat b.toNat 0) ([]) = _; have h0 := bit3_lt sc
  apply decodeSlot_packA hw <;> first | exact bit6_lt _ | exact immLow_lt _ | omega | skip
  intro x; delta readSlot decodeS; simp

theorem rdvLp : ∀ sc, Statement (.rdvLp sc) := by
  intro sc _ hw; change decodeSlot (packA 0 0x34 sc.toNat 0 0 0 0) ([]) = _; have h0 := bit3_lt sc
  apply decodeSlot_packA hw <;> first | exact bit6_lt _ | exact immLow_lt _ | omega | skip
  intro x; delta readSlot decodeS; simp

theorem halt : Statement (.halt) := by
  intro _ hw; change decodeSlot (packA 0 0x35 0 0 0 0 0) ([]) = _
  apply decodeSlot_packA hw <;> first | exact bit6_lt _ | exact immLow_lt _ | omega | skip
  intro x; delta readSlot decodeS; simp

theorem trap : ∀ z a i, Statement (.trap z a i) := by
  intro z a i _ hw; change decodeSlot (packI 0 0x36 (b2n z) 0 a.toNat i.low) (i.words) = _; have h0 := b2n_lt z
  apply decodeSlot_packI hw <;> first | exact bit6_lt _ | exact immLow_lt _ | omega | skip
  intro x; delta readSlot decodeS; simp; omega

theorem rett : Statement (.rett) := by
  intro _ hw; change decodeSlot (packA 0 0x37 0 0 0 0 0) ([]) = _
  apply decodeSlot_packA hw <;> first | exact bit6_lt _ | exact immLow_lt _ | omega | skip
  intro x; delta readSlot decodeS; simp

theorem resync : Statement (.resync) := by
  intro _ hw; change decodeSlot (packA 0 0x3A 0 0 0 0 0) ([]) = _
  apply decodeSlot_packA hw <;> first | exact bit6_lt _ | exact immLow_lt _ | omega | skip
  intro x; delta readSlot decodeS; simp

theorem sysrd : ∀ d a i, Statement (.sysrd d a i) := by
  intro d a i _ hw; change decodeSlot (packI 0 0x38 0 d.toNat a.toNat i.low) (i.words) = _
  apply decodeSlot_packI hw <;> first | exact bit6_lt _ | exact immLow_lt _ | omega | skip
  intro x; delta readSlot decodeS; simp

theorem syswr : ∀ d a i, Statement (.syswr d a i) := by
  intro d a i _ hw; change decodeSlot (packI 0 0x39 0 d.toNat a.toNat i.low) (i.words) = _
  apply decodeSlot_packI hw <;> first | exact bit6_lt _ | exact immLow_lt _ | omega | skip
  intro x; delta readSlot decodeS; simp

theorem cancel : ∀ lvl a i, Statement (.cancel lvl a i) := by
  intro lvl a i _ hw; change decodeSlot (packI 0 0x3B lvl.toNat 0 a.toNat i.low) (i.words) = _; have h0 := bit2_lt lvl
  apply decodeSlot_packI hw <;> first | exact bit6_lt _ | exact immLow_lt _ | omega | skip
  intro x; delta readSlot decodeS; simp; omega

theorem winv : ∀ a b m, Statement (.winv a b m) := by
  intro a b m _ hw; change decodeSlot (packA 0 0x3C 0 0 a.toNat b.toNat 0) (mdWords m) = _
  apply decodeSlot_packA hw <;> first | exact bit6_lt _ | exact immLow_lt _ | omega | skip
  intro x; delta readSlot decodeS; simp

set_option Elab.async false in
theorem vadd : ∀ f d a b h m, Statement (.vadd f d a b h m) := by
  intro f d a b h m _ hw; change decodeSlot (packA 1 0x00 f.toNat d.toNat a.toNat b.toNat (b2n h)) (mdWords m) = _; have h0 := bit3_lt f; have h1 := b2n_lt h
  apply decodeSlot_packA hw <;> first | exact bit6_lt _ | exact immLow_lt _ | omega | skip
  intro x; delta readSlot decodeV; simp

theorem vsub : ∀ f d a b h m, Statement (.vsub f d a b h m) := by
  intro f d a b h m _ hw; change decodeSlot (packA 1 0x01 f.toNat d.toNat a.toNat b.toNat (b2n h)) (mdWords m) = _; have h0 := bit3_lt f; have h1 := b2n_lt h
  apply decodeSlot_packA hw <;> first | exact bit6_lt _ | exact immLow_lt _ | omega | skip
  intro x; delta readSlot decodeV; simp

theorem vmul : ∀ f d a b h m, Statement (.vmul f d a b h m) := by
  intro f d a b h m _ hw; change decodeSlot (packA 1 0x02 f.toNat d.toNat a.toNat b.toNat (b2n h)) (mdWords m) = _; have h0 := bit3_lt f; have h1 := b2n_lt h
  apply decodeSlot_packA hw <;> first | exact bit6_lt _ | exact immLow_lt _ | omega | skip
  intro x; delta readSlot decodeV; simp

theorem vfma : ∀ f d a b h m, Statement (.vfma f d a b h m) := by
  intro f d a b h m _ hw; change decodeSlot (packA 1 0x03 f.toNat d.toNat a.toNat b.toNat (b2n h)) (mdWords m) = _; have h0 := bit3_lt f; have h1 := b2n_lt h
  apply decodeSlot_packA hw <;> first | exact bit6_lt _ | exact immLow_lt _ | omega | skip
  intro x; delta readSlot decodeV; simp

theorem vfms : ∀ f d a b h m, Statement (.vfms f d a b h m) := by
  intro f d a b h m _ hw; change decodeSlot (packA 1 0x04 f.toNat d.toNat a.toNat b.toNat (b2n h)) (mdWords m) = _; have h0 := bit3_lt f; have h1 := b2n_lt h
  apply decodeSlot_packA hw <;> first | exact bit6_lt _ | exact immLow_lt _ | omega | skip
  intro x; delta readSlot decodeV; simp

theorem vmin : ∀ f d a b h m, Statement (.vmin f d a b h m) := by
  intro f d a b h m _ hw; change decodeSlot (packA 1 0x05 f.toNat d.toNat a.toNat b.toNat (b2n h)) (mdWords m) = _; have h0 := bit3_lt f; have h1 := b2n_lt h
  apply decodeSlot_packA hw <;> first | exact bit6_lt _ | exact immLow_lt _ | omega | skip
  intro x; delta readSlot decodeV; simp

theorem vmax : ∀ f d a b h m, Statement (.vmax f d a b h m) := by
  intro f d a b h m _ hw; change decodeSlot (packA 1 0x06 f.toNat d.toNat a.toNat b.toNat (b2n h)) (mdWords m) = _; have h0 := bit3_lt f; have h1 := b2n_lt h
  apply decodeSlot_packA hw <;> first | exact bit6_lt _ | exact immLow_lt _ | omega | skip
  intro x; delta readSlot decodeV; simp

theorem vabs : ∀ f d a h m, Statement (.vabs f d a h m) := by
  intro f d a h m _ hw; change decodeSlot (packA 1 0x07 f.toNat d.toNat a.toNat 0 (b2n h)) (mdWords m) = _; have h0 := bit3_lt f; have h1 := b2n_lt h
  apply decodeSlot_packA hw <;> first | exact bit6_lt _ | exact immLow_lt _ | omega | skip
  intro x; delta readSlot decodeV; simp

theorem vneg : ∀ f d a h m, Statement (.vneg f d a h m) := by
  intro f d a h m _ hw; change decodeSlot (packA 1 0x08 f.toNat d.toNat a.toNat 0 (b2n h)) (mdWords m) = _; have h0 := bit3_lt f; have h1 := b2n_lt h
  apply decodeSlot_packA hw <;> first | exact bit6_lt _ | exact immLow_lt _ | omega | skip
  intro x; delta readSlot decodeV; simp

theorem vadds : ∀ f d a b h m, Statement (.vadds f d a b h m) := by
  intro f d a b h m _ hw; change decodeSlot (packA 1 0x09 f.toNat d.toNat a.toNat b.toNat (b2n h)) (mdWords m) = _; have h0 := bit3_lt f; have h1 := b2n_lt h
  apply decodeSlot_packA hw <;> first | exact bit6_lt _ | exact immLow_lt _ | omega | skip
  intro x; delta readSlot decodeV; simp

theorem vsubs : ∀ f d a b h m, Statement (.vsubs f d a b h m) := by
  intro f d a b h m _ hw; change decodeSlot (packA 1 0x0A f.toNat d.toNat a.toNat b.toNat (b2n h)) (mdWords m) = _; have h0 := bit3_lt f; have h1 := b2n_lt h
  apply decodeSlot_packA hw <;> first | exact bit6_lt _ | exact immLow_lt _ | omega | skip
  intro x; delta readSlot decodeV; simp

theorem vmulh : ∀ f d a b h m, Statement (.vmulh f d a b h m) := by
  intro f d a b h m _ hw; change decodeSlot (packA 1 0x0B f.toNat d.toNat a.toNat b.toNat (b2n h)) (mdWords m) = _; have h0 := bit3_lt f; have h1 := b2n_lt h
  apply decodeSlot_packA hw <;> first | exact bit6_lt _ | exact immLow_lt _ | omega | skip
  intro x; delta readSlot decodeV; simp

theorem vcmp : ∀ f cond k a b h m, Statement (.vcmp f cond k a b h m) := by
  intro f cond k a b h m _ hw; change decodeSlot (packA 1 0x0C f.toNat (cond.toNat * 8 + k.toNat) a.toNat b.toNat (b2n h)) (mdWords m) = _; have h0 := bit3_lt f; have h1 := bit3_lt cond; have h2 := bit3_lt k; have h3 := b2n_lt h
  apply decodeSlot_packA hw <;> first | exact bit6_lt _ | exact immLow_lt _ | omega | skip
  intro x; delta readSlot decodeV; simp only [condHigh, condLow]; simp

theorem vsel : ∀ f d a b h m, Statement (.vsel f d a b h m) := by
  intro f d a b h m _ hw; change decodeSlot (packA 1 0x0D f.toNat d.toNat a.toNat b.toNat (b2n h)) (mdWords m) = _; have h0 := bit3_lt f; have h1 := b2n_lt h
  apply decodeSlot_packA hw <;> first | exact bit6_lt _ | exact immLow_lt _ | omega | skip
  intro x; delta readSlot decodeV; simp

theorem vand : ∀ d a b h m, Statement (.vand d a b h m) := by
  intro d a b h m _ hw; change decodeSlot (packA 1 0x0E 0 d.toNat a.toNat b.toNat (b2n h)) (mdWords m) = _; have h0 := b2n_lt h
  apply decodeSlot_packA hw <;> first | exact bit6_lt _ | exact immLow_lt _ | omega | skip
  intro x; delta readSlot decodeV; simp

theorem vor : ∀ d a b h m, Statement (.vor d a b h m) := by
  intro d a b h m _ hw; change decodeSlot (packA 1 0x0F 0 d.toNat a.toNat b.toNat (b2n h)) (mdWords m) = _; have h0 := b2n_lt h
  apply decodeSlot_packA hw <;> first | exact bit6_lt _ | exact immLow_lt _ | omega | skip
  intro x; delta readSlot decodeV; simp

theorem vxor : ∀ d a b h m, Statement (.vxor d a b h m) := by
  intro d a b h m _ hw; change decodeSlot (packA 1 0x10 0 d.toNat a.toNat b.toNat (b2n h)) (mdWords m) = _; have h0 := b2n_lt h
  apply decodeSlot_packA hw <;> first | exact bit6_lt _ | exact immLow_lt _ | omega | skip
  intro x; delta readSlot decodeV; simp

theorem vandn : ∀ d a b h m, Statement (.vandn d a b h m) := by
  intro d a b h m _ hw; change decodeSlot (packA 1 0x11 0 d.toNat a.toNat b.toNat (b2n h)) (mdWords m) = _; have h0 := b2n_lt h
  apply decodeSlot_packA hw <;> first | exact bit6_lt _ | exact immLow_lt _ | omega | skip
  intro x; delta readSlot decodeV; simp

theorem vshl : ∀ f d a b h m, Statement (.vshl f d a b h m) := by
  intro f d a b h m _ hw; change decodeSlot (packA 1 0x12 f.toNat d.toNat a.toNat b.toNat (b2n h)) (mdWords m) = _; have h0 := bit3_lt f; have h1 := b2n_lt h
  apply decodeSlot_packA hw <;> first | exact bit6_lt _ | exact immLow_lt _ | omega | skip
  intro x; delta readSlot decodeV; simp

theorem vshr : ∀ f d a b h m, Statement (.vshr f d a b h m) := by
  intro f d a b h m _ hw; change decodeSlot (packA 1 0x13 f.toNat d.toNat a.toNat b.toNat (b2n h)) (mdWords m) = _; have h0 := bit3_lt f; have h1 := b2n_lt h
  apply decodeSlot_packA hw <;> first | exact bit6_lt _ | exact immLow_lt _ | omega | skip
  intro x; delta readSlot decodeV; simp

theorem vsar : ∀ f d a b h m, Statement (.vsar f d a b h m) := by
  intro f d a b h m _ hw; change decodeSlot (packA 1 0x14 f.toNat d.toNat a.toNat b.toNat (b2n h)) (mdWords m) = _; have h0 := bit3_lt f; have h1 := b2n_lt h
  apply decodeSlot_packA hw <;> first | exact bit6_lt _ | exact immLow_lt _ | omega | skip
  intro x; delta readSlot decodeV; simp

theorem vcvt : ∀ rm d a h m, Statement (.vcvt rm d a h m) := by
  intro rm d a h m _ hw; change decodeSlot (packA 1 0x15 rm.toNat d.toNat a.toNat 0 (b2n h)) (mdWords m) = _; have h0 := bit2_lt rm; have h1 := b2n_lt h
  apply decodeSlot_packA hw <;> first | exact bit6_lt _ | exact immLow_lt _ | omega | skip
  intro x; delta readSlot decodeV; simp; omega

theorem vrcp : ∀ f d a h m, Statement (.vrcp f d a h m) := by
  intro f d a h m _ hw; change decodeSlot (packA 1 0x16 f.toNat d.toNat a.toNat 0 (b2n h)) (mdWords m) = _; have h0 := bit3_lt f; have h1 := b2n_lt h
  apply decodeSlot_packA hw <;> first | exact bit6_lt _ | exact immLow_lt _ | omega | skip
  intro x; delta readSlot decodeV; simp

theorem vrsq : ∀ f d a h m, Statement (.vrsq f d a h m) := by
  intro f d a h m _ hw; change decodeSlot (packA 1 0x17 f.toNat d.toNat a.toNat 0 (b2n h)) (mdWords m) = _; have h0 := bit3_lt f; have h1 := b2n_lt h
  apply decodeSlot_packA hw <;> first | exact bit6_lt _ | exact immLow_lt _ | omega | skip
  intro x; delta readSlot decodeV; simp

theorem vsqrt : ∀ f d a h m, Statement (.vsqrt f d a h m) := by
  intro f d a h m _ hw; change decodeSlot (packA 1 0x18 f.toNat d.toNat a.toNat 0 (b2n h)) (mdWords m) = _; have h0 := bit3_lt f; have h1 := b2n_lt h
  apply decodeSlot_packA hw <;> first | exact bit6_lt _ | exact immLow_lt _ | omega | skip
  intro x; delta readSlot decodeV; simp

theorem vdiv : ∀ f d a b h m, Statement (.vdiv f d a b h m) := by
  intro f d a b h m _ hw; change decodeSlot (packA 1 0x19 f.toNat d.toNat a.toNat b.toNat (b2n h)) (mdWords m) = _; have h0 := bit3_lt f; have h1 := b2n_lt h
  apply decodeSlot_packA hw <;> first | exact bit6_lt _ | exact immLow_lt _ | omega | skip
  intro x; delta readSlot decodeV; simp

theorem vexp2 : ∀ f d a h m, Statement (.vexp2 f d a h m) := by
  intro f d a h m _ hw; change decodeSlot (packA 1 0x1A f.toNat d.toNat a.toNat 0 (b2n h)) (mdWords m) = _; have h0 := bit3_lt f; have h1 := b2n_lt h
  apply decodeSlot_packA hw <;> first | exact bit6_lt _ | exact immLow_lt _ | omega | skip
  intro x; delta readSlot decodeV; simp

theorem vlog2 : ∀ f d a h m, Statement (.vlog2 f d a h m) := by
  intro f d a h m _ hw; change decodeSlot (packA 1 0x1B f.toNat d.toNat a.toNat 0 (b2n h)) (mdWords m) = _; have h0 := bit3_lt f; have h1 := b2n_lt h
  apply decodeSlot_packA hw <;> first | exact bit6_lt _ | exact immLow_lt _ | omega | skip
  intro x; delta readSlot decodeV; simp

theorem vred : ∀ f d a op h m, Statement (.vred f d a op h m) := by
  intro f d a op h m _ hw; change decodeSlot (packA 1 0x1C f.toNat d.toNat a.toNat op.toNat (b2n h)) (mdWords m) = _; have h0 := bit3_lt f; have h1 := bit3_lt op; have h2 := b2n_lt h
  apply decodeSlot_packA hw <;> first | exact bit6_lt _ | exact immLow_lt _ | omega | skip
  intro x; delta readSlot decodeV; simp; omega

theorem vscan : ∀ f d a op h m, Statement (.vscan f d a op h m) := by
  intro f d a op h m _ hw; change decodeSlot (packA 1 0x1D f.toNat d.toNat a.toNat op.toNat (b2n h)) (mdWords m) = _; have h0 := bit3_lt f; have h1 := bit3_lt op; have h2 := b2n_lt h
  apply decodeSlot_packA hw <;> first | exact bit6_lt _ | exact immLow_lt _ | omega | skip
  intro x; delta readSlot decodeV; simp; omega

theorem vperm : ∀ d a b h m, Statement (.vperm d a b h m) := by
  intro d a b h m _ hw; change decodeSlot (packA 1 0x1E 0 d.toNat a.toNat b.toNat (b2n h)) (mdWords m) = _; have h0 := b2n_lt h
  apply decodeSlot_packA hw <;> first | exact bit6_lt _ | exact immLow_lt _ | omega | skip
  intro x; delta readSlot decodeV; simp

theorem vshuf : ∀ f d a b h m, Statement (.vshuf f d a b h m) := by
  intro f d a b h m _ hw; change decodeSlot (packA 1 0x1F f.toNat d.toNat a.toNat b.toNat (b2n h)) (mdWords m) = _; have h0 := bit3_lt f; have h1 := b2n_lt h
  apply decodeSlot_packA hw <;> first | exact bit6_lt _ | exact immLow_lt _ | omega | skip
  intro x; delta readSlot decodeV; simp

theorem vbcast : ∀ d a b h m, Statement (.vbcast d a b h m) := by
  intro d a b h m _ hw; change decodeSlot (packA 1 0x20 0 d.toNat a.toNat b.toNat (b2n h)) (mdWords m) = _; have h0 := b2n_lt h
  apply decodeSlot_packA hw <;> first | exact bit6_lt _ | exact immLow_lt _ | omega | skip
  intro x; delta readSlot decodeV; simp

set_option Elab.async false in
theorem vsplat : ∀ f d a i, Statement (.vsplat f d a i) := by
  intro f d a i _ hw; change decodeSlot (packI 1 0x21 f.toNat d.toNat a.toNat i.low) (i.words) = _; have h0 := bit3_lt f
  apply decodeSlot_packI hw <;> first | exact bit6_lt _ | exact immLow_lt _ | omega | skip
  intro x; delta readSlot decodeV; simp

theorem vlane : ∀ d a b h m, Statement (.vlane d a b h m) := by
  intro d a b h m _ hw; change decodeSlot (packA 1 0x22 0 d.toNat a.toNat b.toNat (b2n h)) (mdWords m) = _; have h0 := b2n_lt h
  apply decodeSlot_packA hw <;> first | exact bit6_lt _ | exact immLow_lt _ | omega | skip
  intro x; delta readSlot decodeV; simp

theorem vext : ∀ d a b h m, Statement (.vext d a b h m) := by
  intro d a b h m _ hw; change decodeSlot (packA 1 0x23 0 d.toNat a.toNat b.toNat (b2n h)) (mdWords m) = _; have h0 := b2n_lt h
  apply decodeSlot_packA hw <;> first | exact bit6_lt _ | exact immLow_lt _ | omega | skip
  intro x; delta readSlot decodeV; simp

theorem vins : ∀ d a b m, Statement (.vins d a b m) := by
  intro d a b m _ hw; change decodeSlot (packA 1 0x24 0 d.toNat a.toNat b.toNat 0) (mdWords m) = _
  apply decodeSlot_packA hw <;> first | exact bit6_lt _ | exact immLow_lt _ | omega | skip
  intro x; delta readSlot decodeV; simp

theorem vdot : ∀ f d a b h m, Statement (.vdot f d a b h m) := by
  intro f d a b h m _ hw; change decodeSlot (packA 1 0x25 f.toNat d.toNat a.toNat b.toNat (b2n h)) (mdWords m) = _; have h0 := bit3_lt f; have h1 := b2n_lt h
  apply decodeSlot_packA hw <;> first | exact bit6_lt _ | exact immLow_lt _ | omega | skip
  intro x; delta readSlot decodeV; simp

theorem vpack : ∀ w d a b h m, Statement (.vpack w d a b h m) := by
  intro w d a b h m _ hw; change decodeSlot (packA 1 0x26 (4 + b2n w) d.toNat a.toNat b.toNat (b2n h)) (mdWords m) = _; have h0 := b2n_lt w; have h1 := b2n_lt h
  apply decodeSlot_packA hw <;> first | exact bit6_lt _ | exact immLow_lt _ | omega | skip
  intro x; delta readSlot decodeV; simp; omega

theorem vunpack : ∀ w d a mode h m, Statement (.vunpack w d a mode h m) := by
  intro w d a mode h m _ hw; change decodeSlot (packA 1 0x27 (4 + b2n w) d.toNat a.toNat mode.toNat (b2n h)) (mdWords m) = _; have h0 := b2n_lt w; have h1 := bit2_lt mode; have h2 := b2n_lt h
  apply decodeSlot_packA hw <;> first | exact bit6_lt _ | exact immLow_lt _ | omega | skip
  intro x; delta readSlot decodeV; simp; omega

theorem vld : ∀ z d r i, Statement (.vld z d r i) := by
  intro z d r i _ hw; change decodeSlot (packI 1 0x28 (4 + z.toNat) d.toNat r.toNat i.low) (i.words) = _; have h0 := bit2_lt z
  apply decodeSlot_packI hw <;> first | exact bit6_lt _ | exact immLow_lt _ | omega | skip
  intro x; delta readSlot decodeV; simp

theorem vlds : ∀ f d a b m, Statement (.vlds f d a b m) := by
  intro f d a b m _ hw; change decodeSlot (packA 1 0x29 f.toNat d.toNat a.toNat b.toNat 0) (mdWords m) = _; have h0 := bit3_lt f
  apply decodeSlot_packA hw <;> first | exact bit6_lt _ | exact immLow_lt _ | omega | skip
  intro x; delta readSlot decodeV; simp

theorem vldg : ∀ f d a b m, Statement (.vldg f d a b m) := by
  intro f d a b m _ hw; change decodeSlot (packA 1 0x2A f.toNat d.toNat a.toNat b.toNat 0) (mdWords m) = _; have h0 := bit3_lt f
  apply decodeSlot_packA hw <;> first | exact bit6_lt _ | exact immLow_lt _ | omega | skip
  intro x; delta readSlot decodeV; simp

theorem vst : ∀ z d r i, Statement (.vst z d r i) := by
  intro z d r i _ hw; change decodeSlot (packI 1 0x2B (4 + z.toNat) d.toNat r.toNat i.low) (i.words) = _; have h0 := bit2_lt z
  apply decodeSlot_packI hw <;> first | exact bit6_lt _ | exact immLow_lt _ | omega | skip
  intro x; delta readSlot decodeV; simp

theorem vsts : ∀ f d a b m, Statement (.vsts f d a b m) := by
  intro f d a b m _ hw; change decodeSlot (packA 1 0x2C f.toNat d.toNat a.toNat b.toNat 0) (mdWords m) = _; have h0 := bit3_lt f
  apply decodeSlot_packA hw <;> first | exact bit6_lt _ | exact immLow_lt _ | omega | skip
  intro x; delta readSlot decodeV; simp

theorem vstx : ∀ f d a b m, Statement (.vstx f d a b m) := by
  intro f d a b m _ hw; change decodeSlot (packA 1 0x2D f.toNat d.toNat a.toNat b.toNat 0) (mdWords m) = _; have h0 := bit3_lt f
  apply decodeSlot_packA hw <;> first | exact bit6_lt _ | exact immLow_lt _ | omega | skip
  intro x; delta readSlot decodeV; simp

theorem vstm : ∀ f d a b m, Statement (.vstm f d a b m) := by
  intro f d a b m _ hw; change decodeSlot (packA 1 0x2E f.toNat d.toNat a.toNat b.toNat 0) (mdWords m) = _; have h0 := bit3_lt f
  apply decodeSlot_packA hw <;> first | exact bit6_lt _ | exact immLow_lt _ | omega | skip
  intro x; delta readSlot decodeV; simp

theorem vmov : ∀ d a h m, Statement (.vmov d a h m) := by
  intro d a h m _ hw; change decodeSlot (packA 1 0x2F 0 d.toNat a.toNat 0 (b2n h)) (mdWords m) = _; have h0 := b2n_lt h
  apply decodeSlot_packA hw <;> first | exact bit6_lt _ | exact immLow_lt _ | omega | skip
  intro x; delta readSlot decodeV; simp

theorem mand : ∀ d a b m, Statement (.mand d a b m) := by
  intro d a b m _ hw; change decodeSlot (packA 1 0x30 0 d.toNat a.toNat b.toNat 0) (mdWords m) = _
  apply decodeSlot_packA hw <;> first | exact bit6_lt _ | exact immLow_lt _ | omega | skip
  intro x; delta readSlot decodeV; simp

theorem mor : ∀ d a b m, Statement (.mor d a b m) := by
  intro d a b m _ hw; change decodeSlot (packA 1 0x31 0 d.toNat a.toNat b.toNat 0) (mdWords m) = _
  apply decodeSlot_packA hw <;> first | exact bit6_lt _ | exact immLow_lt _ | omega | skip
  intro x; delta readSlot decodeV; simp

theorem mxor : ∀ d a b m, Statement (.mxor d a b m) := by
  intro d a b m _ hw; change decodeSlot (packA 1 0x32 0 d.toNat a.toNat b.toNat 0) (mdWords m) = _
  apply decodeSlot_packA hw <;> first | exact bit6_lt _ | exact immLow_lt _ | omega | skip
  intro x; delta readSlot decodeV; simp

theorem mnot : ∀ d a m, Statement (.mnot d a m) := by
  intro d a m _ hw; change decodeSlot (packA 1 0x33 0 d.toNat a.toNat 0 0) (mdWords m) = _
  apply decodeSlot_packA hw <;> first | exact bit6_lt _ | exact immLow_lt _ | omega | skip
  intro x; delta readSlot decodeV; simp

theorem mpop : ∀ d a m, Statement (.mpop d a m) := by
  intro d a m _ hw; change decodeSlot (packA 1 0x34 0 d.toNat a.toNat 0 0) (mdWords m) = _
  apply decodeSlot_packA hw <;> first | exact bit6_lt _ | exact immLow_lt _ | omega | skip
  intro x; delta readSlot decodeV; simp

theorem mfirst : ∀ d a m, Statement (.mfirst d a m) := by
  intro d a m _ hw; change decodeSlot (packA 1 0x35 0 d.toNat a.toNat 0 0) (mdWords m) = _
  apply decodeSlot_packA hw <;> first | exact bit6_lt _ | exact immLow_lt _ | omega | skip
  intro x; delta readSlot decodeV; simp

theorem vmrd : ∀ t d a mode m, Statement (.vmrd t d a mode m) := by
  intro t d a mode m _ hw; change decodeSlot (packA 1 0x36 t.toNat d.toNat a.toNat mode.toNat 0) (mdWords m) = _; have h0 := bit3_lt t; have h1 := bit2_lt mode
  apply decodeSlot_packA hw <;> first | exact bit6_lt _ | exact immLow_lt _ | omega | skip
  intro x; delta readSlot decodeV; simp; omega

theorem vmwr : ∀ t d a mode m, Statement (.vmwr t d a mode m) := by
  intro t d a mode m _ hw; change decodeSlot (packA 1 0x37 t.toNat d.toNat a.toNat mode.toNat 0) (mdWords m) = _; have h0 := bit3_lt t; have h1 := bit2_lt mode
  apply decodeSlot_packA hw <;> first | exact bit6_lt _ | exact immLow_lt _ | omega | skip
  intro x; delta readSlot decodeV; simp; omega

theorem vminn : ∀ f d a b h m, Statement (.vminn f d a b h m) := by
  intro f d a b h m _ hw; change decodeSlot (packA 1 0x38 f.toNat d.toNat a.toNat b.toNat (b2n h)) (mdWords m) = _; have h0 := bit3_lt f; have h1 := b2n_lt h
  apply decodeSlot_packA hw <;> first | exact bit6_lt _ | exact immLow_lt _ | omega | skip
  intro x; delta readSlot decodeV; simp

theorem vmaxn : ∀ f d a b h m, Statement (.vmaxn f d a b h m) := by
  intro f d a b h m _ hw; change decodeSlot (packA 1 0x39 f.toNat d.toNat a.toNat b.toNat (b2n h)) (mdWords m) = _; have h0 := bit3_lt f; have h1 := b2n_lt h
  apply decodeSlot_packA hw <;> first | exact bit6_lt _ | exact immLow_lt _ | omega | skip
  intro x; delta readSlot decodeV; simp

theorem vaddsn : ∀ f d a b h m, Statement (.vaddsn f d a b h m) := by
  intro f d a b h m _ hw; change decodeSlot (packA 1 0x3A f.toNat d.toNat a.toNat b.toNat (b2n h)) (mdWords m) = _; have h0 := bit3_lt f; have h1 := b2n_lt h
  apply decodeSlot_packA hw <;> first | exact bit6_lt _ | exact immLow_lt _ | omega | skip
  intro x; delta readSlot decodeV; simp

theorem vsubsn : ∀ f d a b h m, Statement (.vsubsn f d a b h m) := by
  intro f d a b h m _ hw; change decodeSlot (packA 1 0x3B f.toNat d.toNat a.toNat b.toNat (b2n h)) (mdWords m) = _; have h0 := bit3_lt f; have h1 := b2n_lt h
  apply decodeSlot_packA hw <;> first | exact bit6_lt _ | exact immLow_lt _ | omega | skip
  intro x; delta readSlot decodeV; simp

theorem vmulhn : ∀ f d a b h m, Statement (.vmulhn f d a b h m) := by
  intro f d a b h m _ hw; change decodeSlot (packA 1 0x3C f.toNat d.toNat a.toNat b.toNat (b2n h)) (mdWords m) = _; have h0 := bit3_lt f; have h1 := b2n_lt h
  apply decodeSlot_packA hw <;> first | exact bit6_lt _ | exact immLow_lt _ | omega | skip
  intro x; delta readSlot decodeV; simp

theorem vcmpn : ∀ f cond k a b h m, Statement (.vcmpn f cond k a b h m) := by
  intro f cond k a b h m _ hw; change decodeSlot (packA 1 0x3D f.toNat (cond.toNat * 8 + k.toNat) a.toNat b.toNat (b2n h)) (mdWords m) = _; have h0 := bit3_lt f; have h1 := bit3_lt cond; have h2 := bit3_lt k; have h3 := b2n_lt h
  apply decodeSlot_packA hw <;> first | exact bit6_lt _ | exact immLow_lt _ | omega | skip
  intro x; delta readSlot decodeV; simp only [condHigh, condLow]; simp

set_option Elab.async false in
theorem mma : ∀ f tl t z c a b sc m, Statement (.mma f tl t z c a b sc m) := by
  intro f tl t z c a b sc m _ hw; change decodeSlot (packA 2 0x00 f.toNat (tl.toNat * 8 + b2n t * 4 + b2n z * 2 + b2n c) a.toNat b.toNat (b2n sc)) (mdWords m) = _; have h0 := bit3_lt f; have h1 := bit3_lt tl; have h2 := b2n_lt t; have h3 := b2n_lt z; have h4 := b2n_lt c; have h5 := b2n_lt sc
  apply decodeSlot_packA hw <;> first | exact bit6_lt _ | exact immLow_lt _ | omega | skip
  intro x; delta readSlot decodeM; simp [tileFlags]

theorem mmat : ∀ f tl t z c a b sc m, Statement (.mmat f tl t z c a b sc m) := by
  intro f tl t z c a b sc m _ hw; change decodeSlot (packA 2 0x01 f.toNat (tl.toNat * 8 + b2n t * 4 + b2n z * 2 + b2n c) a.toNat b.toNat (b2n sc)) (mdWords m) = _; have h0 := bit3_lt f; have h1 := bit3_lt tl; have h2 := b2n_lt t; have h3 := b2n_lt z; have h4 := b2n_lt c; have h5 := b2n_lt sc
  apply decodeSlot_packA hw <;> first | exact bit6_lt _ | exact immLow_lt _ | omega | skip
  intro x; delta readSlot decodeM; simp [tileFlags]

theorem mmag : ∀ f tl t z c a b sc m, Statement (.mmag f tl t z c a b sc m) := by
  intro f tl t z c a b sc m _ hw; change decodeSlot (packA 2 0x02 f.toNat (tl.toNat * 8 + b2n t * 4 + b2n z * 2 + b2n c) a.toNat b.toNat (b2n sc)) ([m.word]) = _; have h0 := bit3_lt f; have h1 := bit3_lt tl; have h2 := b2n_lt t; have h3 := b2n_lt z; have h4 := b2n_lt c; have h5 := b2n_lt sc
  apply decodeSlot_packA hw <;> first | exact bit6_lt _ | exact immLow_lt _ | omega | skip
  intro x; delta readSlot decodeM; simp [tileFlags]

theorem mclr : ∀ i tl m, Statement (.mclr i tl m) := by
  intro i tl m _ hw; change decodeSlot (packA 2 0x03 (b2n i) (tl.toNat * 8) 0 0 0) (mdWords m) = _; have h0 := b2n_lt i; have h1 := bit3_lt tl
  apply decodeSlot_packA hw <;> first | exact bit6_lt _ | exact immLow_lt _ | omega | skip
  intro x; delta readSlot decodeM; simp; omega

theorem mchk : ∀ tl a m, Statement (.mchk tl a m) := by
  intro tl a m _ hw; change decodeSlot (packA 2 0x04 0 (tl.toNat * 8) a.toNat 0 0) (mdWords m) = _; have h0 := bit3_lt tl
  apply decodeSlot_packA hw <;> first | exact bit6_lt _ | exact immLow_lt _ | omega | skip
  intro x; delta readSlot decodeM; simp

theorem mchkSp : ∀ a m, Statement (.mchkSp a m) := by
  intro a m _ hw; change decodeSlot (packA 2 0x04 1 0 a.toNat 0 0) (mdWords m) = _
  apply decodeSlot_packA hw <;> first | exact bit6_lt _ | exact immLow_lt _ | omega | skip
  intro x; delta readSlot decodeM; simp

theorem mmarg : ∀ a b m, Statement (.mmarg a b m) := by
  intro a b m _ hw; change decodeSlot (packA 2 0x05 0 0 a.toNat b.toNat 0) (mdWords m) = _
  apply decodeSlot_packA hw <;> first | exact bit6_lt _ | exact immLow_lt _ | omega | skip
  intro x; delta readSlot decodeM; simp

theorem mload : ∀ tl t c a m, Statement (.mload tl t c a m) := by
  intro tl t c a m _ hw; change decodeSlot (packA 2 0x06 0 (tl.toNat * 8 + b2n t * 4 + b2n c) a.toNat 0 0) (mdWords m) = _; have h0 := bit3_lt tl; have h1 := b2n_lt t; have h2 := b2n_lt c
  apply decodeSlot_packA hw <;> first | exact bit6_lt _ | exact immLow_lt _ | omega | skip
  intro x; delta readSlot decodeM; simp [tileTwoFlags]

theorem mout : ∀ rm tl t c a b m, Statement (.mout rm tl t c a b m) := by
  intro rm tl t c a b m _ hw; change decodeSlot (packA 2 0x07 rm.toNat (tl.toNat * 8 + b2n t * 4 + b2n c) a.toNat b.toNat 0) (mdWords m) = _; have h0 := bit2_lt rm; have h1 := bit3_lt tl; have h2 := b2n_lt t; have h3 := b2n_lt c
  apply decodeSlot_packA hw <;> first | exact bit6_lt _ | exact immLow_lt _ | omega | skip
  intro x; delta readSlot decodeM; simp [tileTwoFlags]; omega

set_option Elab.async false in
theorem cpy : ∀ put i d a sh m, Statement (.cpy put i d a sh m) := by
  intro put i d a sh m _ hw; change decodeSlot (packL 3 0x00 (b2n put) i.toNat d.toNat a.toNat sh.toNat) (mdWords m) = _; have h0 := b2n_lt put; have h1 := bit4_lt i; have h2 := bit3_lt sh
  apply decodeSlot_packL hw <;> first | exact bit6_lt _ | exact immLow_lt _ | omega | skip
  intro x; delta readSlot decodeL; simp; omega

theorem cpys : ∀ put i d a sh m, Statement (.cpys put i d a sh m) := by
  intro put i d a sh m _ hw; change decodeSlot (packL 3 0x01 (b2n put) i.toNat d.toNat a.toNat sh.toNat) (mdWords m) = _; have h0 := b2n_lt put; have h1 := bit4_lt i; have h2 := bit3_lt sh
  apply decodeSlot_packL hw <;> first | exact bit6_lt _ | exact immLow_lt _ | omega | skip
  intro x; delta readSlot decodeL; simp; omega

theorem cpym : ∀ i d a sh m, Statement (.cpym i d a sh m) := by
  intro i d a sh m _ hw; change decodeSlot (packL 3 0x02 1 i.toNat d.toNat a.toNat sh.toNat) ([m.word]) = _; have h0 := bit4_lt i; have h1 := bit3_lt sh
  apply decodeSlot_packL hw <;> first | exact bit6_lt _ | exact immLow_lt _ | omega | skip
  intro x; delta readSlot decodeL; simp

theorem cpyt : ∀ put i d a m, Statement (.cpyt put i d a m) := by
  intro put i d a m _ hw; change decodeSlot (packL 3 0x03 (b2n put) i.toNat d.toNat a.toNat 0) ([m.word]) = _; have h0 := b2n_lt put; have h1 := bit4_lt i
  apply decodeSlot_packL hw <;> first | exact bit6_lt _ | exact immLow_lt _ | omega | skip
  intro x; delta readSlot decodeL; simp; omega

theorem code : ∀ v i d a sh m, Statement (.code v i d a sh m) := by
  intro v i d a sh m _ hw; change decodeSlot (packL 3 0x04 v.toNat i.toNat d.toNat a.toNat sh.toNat) (mdWords m) = _; have h0 := bit2_lt v; have h1 := bit4_lt i; have h2 := bit3_lt sh
  apply decodeSlot_packL hw <;> first | exact bit6_lt _ | exact immLow_lt _ | omega | skip
  intro x; delta readSlot decodeL; simp; omega

theorem hcpy : ∀ put ch d a sh m, Statement (.hcpy put ch d a sh m) := by
  intro put ch d a sh m _ hw; change decodeSlot (packL 3 0x05 (b2n put) ch.toNat d.toNat a.toNat sh.toNat) (mdWords m) = _; have h0 := b2n_lt put; have h1 := bit2_lt ch; have h2 := bit3_lt sh
  apply decodeSlot_packL hw <;> first | exact bit6_lt _ | exact immLow_lt _ | omega | skip
  intro x; delta readSlot decodeL; simp; omega

theorem stageRd : ∀ d m, Statement (.stageRd d m) := by
  intro d m _ hw; change decodeSlot (packL 3 0x06 0 0 d.toNat 0 0) (mdWords m) = _
  apply decodeSlot_packL hw <;> first | exact bit6_lt _ | exact immLow_lt _ | omega | skip
  intro x; delta readSlot decodeL; simp

theorem stageSet : ∀ a m, Statement (.stageSet a m) := by
  intro a m _ hw; change decodeSlot (packL 3 0x06 1 0 0 a.toNat 0) (mdWords m) = _
  apply decodeSlot_packL hw <;> first | exact bit6_lt _ | exact immLow_lt _ | omega | skip
  intro x; delta readSlot decodeL; simp

set_option Elab.async false in
theorem bara : ∀ n a m, Statement (.bara n a m) := by
  intro n a m _ hw; change decodeSlot (packA 3 0x07 n.toNat 0 a.toNat 0 0) (mdWords m) = _; have h0 := bit3_lt n
  apply decodeSlot_packA hw <;> first | exact bit6_lt _ | exact immLow_lt _ | omega | skip
  intro x; delta readSlot decodeL; simp

theorem atomInt : ∀ op d a b w m, Statement (.atomInt op d a b w m) := by
  intro op d a b w m _ hw; change decodeSlot (packA 3 0x08 op.toNat d.toNat a.toNat b.toNat (b2n w)) (mdWords m) = _; have h0 := bit3_lt op; have h1 := b2n_lt w
  apply decodeSlot_packA hw <;> first | exact bit6_lt _ | exact immLow_lt _ | omega | skip
  intro x; delta readSlot decodeL; simp

theorem atomOther : ∀ op d a b w m, Statement (.atomOther op d a b w m) := by
  intro op d a b w m _ hw; change decodeSlot (packA 3 0x09 op.toNat d.toNat a.toNat b.toNat (b2n w)) (mdWords m) = _; have h0 := bit2_lt op; have h1 := b2n_lt w
  apply decodeSlot_packA hw <;> first | exact bit6_lt _ | exact immLow_lt _ | omega | skip
  intro x; delta readSlot decodeL; simp; omega

set_option Elab.async false in
theorem send : ∀ i n a sh m, Statement (.send i n a sh m) := by
  intro i n a sh m _ hw; change decodeSlot (packL 4 0x00 0 i.toNat n.toNat a.toNat sh.toNat) (mdWords m) = _; have h0 := bit4_lt i; have h1 := bit4_lt n; have h2 := bit3_lt sh
  apply decodeSlot_packL hw <;> first | exact bit6_lt _ | exact immLow_lt _ | omega | skip
  intro x; delta readSlot decodeQ; simp; omega

theorem recv : ∀ n a m, Statement (.recv n a m) := by
  intro n a m _ hw; change decodeSlot (packL 4 0x01 0 n.toNat 0 a.toNat 0) (mdWords m) = _; have h0 := bit4_lt n
  apply decodeSlot_packL hw <;> first | exact bit6_lt _ | exact immLow_lt _ | omega | skip
  intro x; delta readSlot decodeQ; simp

theorem rld : ∀ z i d a ord m, Statement (.rld z i d a ord m) := by
  intro z i d a ord m _ hw; change decodeSlot (packL 4 0x02 z.toNat i.toNat d.toNat a.toNat ord.toNat) (mdWords m) = _; have h0 := bit2_lt z; have h1 := bit4_lt i; have h2 := bit2_lt ord
  apply decodeSlot_packL hw <;> first | exact bit6_lt _ | exact immLow_lt _ | omega | skip
  intro x; delta readSlot decodeQ; simp; omega

theorem rst : ∀ z i d a ord m, Statement (.rst z i d a ord m) := by
  intro z i d a ord m _ hw; change decodeSlot (packL 4 0x03 z.toNat i.toNat d.toNat a.toNat ord.toNat) (mdWords m) = _; have h0 := bit2_lt z; have h1 := bit4_lt i; have h2 := bit2_lt ord
  apply decodeSlot_packL hw <;> first | exact bit6_lt _ | exact immLow_lt _ | omega | skip
  intro x; delta readSlot decodeQ; simp; omega

theorem rred : ∀ op i d a m, Statement (.rred op i d a m) := by
  intro op i d a m _ hw; change decodeSlot (packL 4 0x04 op.toNat i.toNat d.toNat a.toNat 0) (mdWords m) = _; have h0 := bit3_lt op; have h1 := bit4_lt i
  apply decodeSlot_packL hw <;> first | exact bit6_lt _ | exact immLow_lt _ | omega | skip
  intro x; delta readSlot decodeQ; simp

theorem rrel : ∀ i m, Statement (.rrel i m) := by
  intro i m _ hw; change decodeSlot (packL 4 0x05 0 i.toNat 0 0 0) (mdWords m) = _; have h0 := bit4_lt i
  apply decodeSlot_packL hw <;> first | exact bit6_lt _ | exact immLow_lt _ | omega | skip
  intro x; delta readSlot decodeQ; simp

theorem rrelAll : ∀ m, Statement (.rrelAll m) := by
  intro m _ hw; change decodeSlot (packL 4 0x05 1 0 0 0 0) (mdWords m) = _
  apply decodeSlot_packL hw <;> first | exact bit6_lt _ | exact immLow_lt _ | omega | skip
  intro x; delta readSlot decodeQ; simp

theorem bcst : ∀ i d a sh m, Statement (.bcst i d a sh m) := by
  intro i d a sh m _ hw; change decodeSlot (packL 4 0x06 0 i.toNat d.toNat a.toNat sh.toNat) (mdWords m) = _; have h0 := bit4_lt i; have h1 := bit3_lt sh
  apply decodeSlot_packL hw <;> first | exact bit6_lt _ | exact immLow_lt _ | omega | skip
  intro x; delta readSlot decodeQ; simp

theorem drain : ∀ d sc m, Statement (.drain d sc m) := by
  intro d sc m _ hw; change decodeSlot (packL 4 0x07 0 0 d.toNat 0 sc.toNat) (mdWords m) = _; have h0 := bit3_lt sc
  apply decodeSlot_packL hw <;> first | exact bit6_lt _ | exact immLow_lt _ | omega | skip
  intro x; delta readSlot decodeQ; simp

theorem ratomInt : ∀ op i d a opt m, Statement (.ratomInt op i d a opt m) := by
  intro op i d a opt m _ hw; change decodeSlot (packL 4 0x08 op.toNat i.toNat d.toNat a.toNat opt.toNat) (mdWords m) = _; have h0 := bit3_lt op; have h1 := bit4_lt i; have h2 := bit3_lt opt
  apply decodeSlot_packL hw <;> first | exact bit6_lt _ | exact immLow_lt _ | omega | skip
  intro x; delta readSlot decodeQ; simp

theorem ratomOther : ∀ op i d a opt m, Statement (.ratomOther op i d a opt m) := by
  intro op i d a opt m _ hw; change decodeSlot (packL 4 0x09 op.toNat i.toNat d.toNat a.toNat opt.toNat) (mdWords m) = _; have h0 := bit2_lt op; have h1 := bit4_lt i; have h2 := bit3_lt opt
  apply decodeSlot_packL hw <;> first | exact bit6_lt _ | exact immLow_lt _ | omega | skip
  intro x; delta readSlot decodeQ; simp; omega

set_option Elab.async false in
theorem scl : ∀ n r i, Statement (.scl n r i) := by
  intro n r i _ hw; change decodeSlot (packI 5 0x00 4 n.toNat r.toNat i.low) (i.words) = _; have h0 := bit4_lt n
  apply decodeSlot_packI hw <;> first | exact bit6_lt _ | exact immLow_lt _ | omega | skip
  intro x; delta readSlot decodeX; simp; omega

set_option Elab.async false in
theorem sclv : ∀ n a m, Statement (.sclv n a m) := by
  intro n a m _ hw; change decodeSlot (packA 5 0x01 0 n.toNat a.toNat 0 0) (mdWords m) = _; have h0 := bit4_lt n
  apply decodeSlot_packA hw <;> first | exact bit6_lt _ | exact immLow_lt _ | omega | skip
  intro x; delta readSlot decodeX; simp; omega

theorem xpack : ∀ mode d a g m, Statement (.xpack mode d a g m) := by
  intro mode d a g m _ hw; change decodeSlot (packA 5 0x02 mode.toNat d.toNat a.toNat g.toNat 0) (mdWords m) = _; have h0 := bit2_lt mode; have h1 := bit3_lt g
  apply decodeSlot_packA hw <;> first | exact bit6_lt _ | exact immLow_lt _ | omega | skip
  intro x; delta readSlot decodeX; simp; omega

theorem xunpack : ∀ mode d a g m, Statement (.xunpack mode d a g m) := by
  intro mode d a g m _ hw; change decodeSlot (packA 5 0x03 mode.toNat d.toNat a.toNat g.toNat 0) (mdWords m) = _; have h0 := bit2_lt mode; have h1 := bit3_lt g
  apply decodeSlot_packA hw <;> first | exact bit6_lt _ | exact immLow_lt _ | omega | skip
  intro x; delta readSlot decodeX; simp; omega

theorem rndpop : ∀ packed d m, Statement (.rndpop packed d m) := by
  intro packed d m _ hw; change decodeSlot (packA 5 0x04 0 d.toNat 0 0 (b2n packed)) (mdWords m) = _; have h0 := b2n_lt packed
  apply decodeSlot_packA hw <;> first | exact bit6_lt _ | exact immLow_lt _ | omega | skip
  intro x; delta readSlot decodeX; simp

theorem rndseed : ∀ a m, Statement (.rndseed a m) := by
  intro a m _ hw; change decodeSlot (packA 5 0x05 0 0 a.toNat 0 0) (mdWords m) = _
  apply decodeSlot_packA hw <;> first | exact bit6_lt _ | exact immLow_lt _ | omega | skip
  intro x; delta readSlot decodeX; simp

set_option Elab.async false in
theorem idle : ∀ n, Statement (.idle n) := by
  intro n _ hw
  have h := n.isLt
  have e : BitVec.ofNat 24 (7 * 2 ^ 28 + n.toNat) = n := by
    apply BitVec.eq_of_toNat_eq; simp only [BitVec.toNat_ofNat]; omega
  have c : (fieldsOf (7 * 2 ^ 28 + n.toNat)).cls = 7 := by unfold fieldsOf; simp only; omega
  have q : (7 * 2 ^ 28 + n.toNat) / 2 ^ 24 % 16 = 0 := by omega
  change decodeSlot (7 * 2 ^ 28 + n.toNat) [] = _
  delta decodeSlot
  simp only [c, q, withNoK_nil, if_true, e]
  rfl


set_option Elab.async false in
theorem powerOnReset : ∀ x0, Statement (.powerOnReset x0) := by
  intros; intro h; cases h

theorem createPartition : ∀ x0 x1 x2 x3, Statement (.createPartition x0 x1 x2 x3) := by
  intros; intro h; cases h

theorem chamoisAppend : ∀ x0, Statement (.chamoisAppend x0) := by
  intros; intro h; cases h

theorem resultLanding : ∀ x0 x1, Statement (.resultLanding x0 x1) := by
  intros; intro h; cases h

theorem matrixReadable : ∀ x0 x1, Statement (.matrixReadable x0 x1) := by
  intros; intro h; cases h

theorem marginCheck : ∀ x0 x1, Statement (.marginCheck x0 x1) := by
  intros; intro h; cases h

theorem memberShareStart : ∀ x0 x1, Statement (.memberShareStart x0 x1) := by
  intros; intro h; cases h

theorem gangCompletionAdd : ∀ x0 x1 x2, Statement (.gangCompletionAdd x0 x1 x2) := by
  intros; intro h; cases h

theorem pieceTransfer : ∀ x0 x1 x2, Statement (.pieceTransfer x0 x1 x2) := by
  intros; intro h; cases h

theorem codeFillLanding : ∀ x0 x1 x2, Statement (.codeFillLanding x0 x1 x2) := by
  intros; intro h; cases h

theorem hcpyPiece : ∀ x0 x1, Statement (.hcpyPiece x0 x1) := by
  intros; intro h; cases h

theorem serviceAccess : ∀ x0, Statement (.serviceAccess x0) := by
  intros; intro h; cases h

theorem stagedWriteLanding : ∀ x0, Statement (.stagedWriteLanding x0) := by
  intros; intro h; cases h

theorem remoteRead : ∀ x0, Statement (.remoteRead x0) := by
  intros; intro h; cases h

theorem ratomLanding : ∀ x0, Statement (.ratomLanding x0) := by
  intros; intro h; cases h

theorem reductionMerge : ∀ x0 x1, Statement (.reductionMerge x0 x1) := by
  intros; intro h; cases h

theorem bankAluWrite : ∀ x0, Statement (.bankAluWrite x0) := by
  intros; intro h; cases h

theorem commitFlitLanding : ∀ x0, Statement (.commitFlitLanding x0) := by
  intros; intro h; cases h

theorem recallFlitLanding : ∀ x0, Statement (.recallFlitLanding x0) := by
  intros; intro h; cases h

theorem linkFlit : ∀ x0 x1, Statement (.linkFlit x0 x1) := by
  intros; intro h; cases h

theorem flitLost : ∀ x0, Statement (.flitLost x0) := by
  intros; intro h; cases h

theorem noticeLanding : ∀ x0, Statement (.noticeLanding x0) := by
  intros; intro h; cases h

theorem packageLost : ∀ x0, Statement (.packageLost x0) := by
  intros; intro h; cases h

theorem peerSetUpdate : ∀ x0 x1, Statement (.peerSetUpdate x0 x1) := by
  intros; intro h; cases h

theorem drainComplete : ∀ x0 x1, Statement (.drainComplete x0 x1) := by
  intros; intro h; cases h

theorem horizonResume : ∀ x0, Statement (.horizonResume x0) := by
  intros; intro h; cases h

theorem rendezvousRelease : ∀ x0, Statement (.rendezvousRelease x0) := by
  intros; intro h; cases h

theorem watermarkCompare : ∀ x0, Statement (.watermarkCompare x0) := by
  intros; intro h; cases h

theorem cancelVisible : ∀ x0 x1 x2, Statement (.cancelVisible x0 x1 x2) := by
  intros; intro h; cases h

theorem coreIdle : ∀ x0, Statement (.coreIdle x0) := by
  intros; intro h; cases h

theorem launchStaging : ∀ x0, Statement (.launchStaging x0) := by
  intros; intro h; cases h

theorem launchPointRelease : ∀ x0, Statement (.launchPointRelease x0) := by
  intros; intro h; cases h

theorem jobStart : ∀ x0, Statement (.jobStart x0) := by
  intros; intro h; cases h

theorem thermalTrip : ∀ x0, Statement (.thermalTrip x0) := by
  intros; intro h; cases h

theorem thermalRelease : ∀ x0, Statement (.thermalRelease x0) := by
  intros; intro h; cases h

theorem podFreeze : ∀ x0 x1, Statement (.podFreeze x0 x1) := by
  intros; intro h; cases h

theorem freezeBoundary : ∀ x0, Statement (.freezeBoundary x0) := by
  intros; intro h; cases h

theorem partitionResume : ∀ x0, Statement (.partitionResume x0) := by
  intros; intro h; cases h

theorem dredgerStep : ∀ x0, Statement (.dredgerStep x0) := by
  intros; intro h; cases h

theorem dredgerWriteback : ∀ x0 x1, Statement (.dredgerWriteback x0 x1) := by
  intros; intro h; cases h

theorem timing : ∀ x0 x1, Statement (.timing x0 x1) := by
  intros; intro h; cases h

theorem deliver : ∀ x0 x1, Statement (.deliver x0 x1) := by
  intros; intro h; cases h

theorem cycslip : ∀ x0, Statement (.cycslip x0) := by
  intros; intro h; cases h

theorem undoWriteback : ∀ x0, Statement (.undoWriteback x0) := by
  intros; intro h; cases h

theorem handlerEntry : ∀ x0, Statement (.handlerEntry x0) := by
  intros; intro h; cases h

theorem segmentReentry : ∀ x0, Statement (.segmentReentry x0) := by
  intros; intro h; cases h

theorem deferredLanding : ∀ x0, Statement (.deferredLanding x0) := by
  intros; intro h; cases h

theorem tableServiceRequest : ∀ x0, Statement (.tableServiceRequest x0) := by
  intros; intro h; cases h

theorem tableEntryWrite : ∀ x0 x1 x2 x3, Statement (.tableEntryWrite x0 x1 x2 x3) := by
  intros; intro h; cases h

theorem tableEntryRepair : ∀ x0 x1, Statement (.tableEntryRepair x0 x1) := by
  intros; intro h; cases h

theorem mapPublication : ∀ x0 x1 x2, Statement (.mapPublication x0 x1 x2) := by
  intros; intro h; cases h

theorem surveyWindow : ∀ x0 x1, Statement (.surveyWindow x0 x1) := by
  intros; intro h; cases h

theorem inServiceSurvey : ∀ x0 x1, Statement (.inServiceSurvey x0 x1) := by
  intros; intro h; cases h

theorem load : ∀ x0, Statement (.load x0) := by
  intros; intro h; cases h

theorem unload : ∀ x0, Statement (.unload x0) := by
  intros; intro h; cases h

theorem start : ∀ x0, Statement (.start x0) := by
  intros; intro h; cases h

theorem endJob : ∀ x0, Statement (.endJob x0) := by
  intros; intro h; cases h

theorem cancelCommand : ∀ x0, Statement (.cancelCommand x0) := by
  intros; intro h; cases h

theorem hold : ∀ x0, Statement (.hold x0) := by
  intros; intro h; cases h

theorem release : ∀ x0, Statement (.release x0) := by
  intros; intro h; cases h

theorem patch : ∀ x0, Statement (.patch x0) := by
  intros; intro h; cases h

theorem attest : ∀ x0, Statement (.attest x0) := by
  intros; intro h; cases h

theorem ckpt : ∀ x0, Statement (.ckpt x0) := by
  intros; intro h; cases h

theorem resumeck : ∀ x0, Statement (.resumeck x0) := by
  intros; intro h; cases h

theorem rebind : ∀ x0, Statement (.rebind x0) := by
  intros; intro h; cases h

theorem freeze : ∀ x0, Statement (.freeze x0) := by
  intros; intro h; cases h

theorem save : ∀ x0, Statement (.save x0) := by
  intros; intro h; cases h

theorem restore : ∀ x0, Statement (.restore x0) := by
  intros; intro h; cases h

theorem resume : ∀ x0, Statement (.resume x0) := by
  intros; intro h; cases h

theorem discard : ∀ x0, Statement (.discard x0) := by
  intros; intro h; cases h

theorem mbrespClear : ∀ x0, Statement (.mbrespClear x0) := by
  intros; intro h; cases h

theorem ctxstatClear : ∀ x0, Statement (.ctxstatClear x0) := by
  intros; intro h; cases h

theorem firedClear : ∀ x0 x1, Statement (.firedClear x0 x1) := by
  intros; intro h; cases h

theorem launchQueueEnqueue : ∀ x0 x1 x2, Statement (.launchQueueEnqueue x0 x1 x2) := by
  intros; intro h; cases h

theorem launchQueueEmpty : ∀ x0 x1 x2, Statement (.launchQueueEmpty x0 x1 x2) := by
  intros; intro h; cases h

theorem launchQueueFieldWrite : ∀ x0 x1 x2, Statement (.launchQueueFieldWrite x0 x1 x2) := by
  intros; intro h; cases h

theorem repairreq : ∀ x0 x1, Statement (.repairreq x0 x1) := by
  intros; intro h; cases h

theorem bistsum : ∀ x0 x1, Statement (.bistsum x0 x1) := by
  intros; intro h; cases h

theorem arrayInjectorArm : ∀ x0 x1 x2, Statement (.arrayInjectorArm x0 x1 x2) := by
  intros; intro h; cases h

theorem linkInjectorArm : ∀ x0 x1 x2, Statement (.linkInjectorArm x0 x1 x2) := by
  intros; intro h; cases h

theorem systemRegisterWrite : ∀ x0 x1, Statement (.systemRegisterWrite x0 x1) := by
  intros; intro h; cases h

theorem illegal : ∀ x0 x1 x2, Statement (.illegal x0 x1 x2) := by
  intros; intro h; cases h

theorem unknownCommandCode : ∀ x0 x1, Statement (.unknownCommandCode x0 x1) := by
  intros; intro h; cases h

theorem coreLost : ∀ x0, Statement (.coreLost x0) := by
  intros; intro h; cases h

theorem extendService : ∀ x0 x1 x2, Statement (.extendService x0 x1 x2) := by
  intros; intro h; cases h

theorem tableServiceAnswer : ∀ x0 x1, Statement (.tableServiceAnswer x0 x1) := by
  intros; intro h; cases h

end Sys2Proof.Laws.SlotWord
end

