-- ==== Sys2Proof/Tests/Slice0.lean ====
section
/-! SUPPORT. The model's own tests: ill-formed instructions, decoding of the spec's words, one step on small states, and for
every statement with hypotheses a state and operands that meet them together. -/

open Sys2Proof Sys2Proof.Machine

namespace Sys2Proof.Tests

set_option maxRecDepth 20000

/-! ### States -/

/-- An image of one unit on core 0, with a gang of cores 0 and 1, group 0 of both and group 63 of core 0 alone. -/
def image : Image :=
  { addr := 0, len := 0, maps := [(0, 0, 0)], nvc := 1, berths := [(0, [0], 0)], gangs := [⟨[(0, 0), (1, 63)]⟩]
    groups := [⟨0, 1, [0, 1]⟩, ⟨63, 1, [0]⟩], table := [], data := [], regs := [], code := [], codeBase := 0, paths := [], relocs := [], symbols := []
    specs := [], extents := [], moors := [], useLayers := [], usePod := false, intact := true, bexvar := 0 }

/-- The launch of that image at queue entry 0. -/
def launch : Launch :=
  { entry := 0, handle := 1, graph := 0, layers := [0], nvc := 1, start := 0, done := 0, canc := false, cores := [0], taken := 0
    stopPending := false, stopped := [], ord := 0, finished := [] }

/-- Partition 0 as `x` says. -/
def part (f : Part → Part) (s : State) : State := modPart s 0 f

/-- Core 0 runs a pass of that launch on die layer 0, and its first slot is being issued. -/
def busy : State := part (fun x => { x with launches := [launch] })
  { State.reset.withFetchWord 32 0x80002106 with cur := ⟨0, 0, 0, 1, [], []⟩, images := [⟨1, 0, image⟩] }

/-- The same, core 0 changed. -/
def core0 (f : Core → Core) : State := modCore busy 0 f

/-- The same, slot position `n` being issued. -/
def slot (n : Nat) (s : State) : State := { s with cur := { s.cur with slot := n } }

/-- Scalar register `n` of core 0 holds `x`. -/
def holds (n : Nat) (x : Word) (s : State) : State := modCore s 0 (fun c => landCore c (.sreg n x))

/-- System register `i` of core 0 holds `x`. -/
def sysHolds (i : Nat) (x : Word) (s : State) : State := modCore s 0 (fun c => sysSet c i x)

/-- A guard that is false: s0, not negated, holds 0. -/
def shut : Md := some ⟨true, false, 0, 0⟩

/-! ### Witnesses: scalar statements -/

theorem wit_ScalarRegisterResults :
    (∀ i ∈ [Instr.add 31 40 0 none, .sub 0 32 31 none, .mul 31 0 0 none, .mulh 31 0 0 none, .mulhn 31 0 0 none, .minS 31 0 0 none,
      .minn 31 0 0 none, .maxS 31 0 0 none, .maxn 31 0 0 none, .slt 31 0 0 none, .sltn 31 0 0 none, .seq 31 0 0 none,
      .andS 31 0 0 none, .orS 31 0 0 none, .xorS 31 0 0 none, .andn 31 0 0 none, .shl 31 0 0 none, .shr 31 0 0 none,
      .sar 31 0 0 none, .add 32 0 0 shut], operandFaults busy i = []) ∧
    (∀ k ∈ [0, 1], landingClash busy 0 (landCyc busy k (if k = 0 then 1 else 3)) (.sreg 31 0) = false) ∧
    guardMd busy shut = false := by decide

theorem wit_DivisionResults :
    (∀ i ∈ [Instr.div 31 40 0 none, .divn 0 0 0 none, .rem 31 0 0 none, .remn 31 0 0 none], operandFaults busy i = []) ∧
    landingClash busy 0 (landCyc busy 2 34) (.sreg 31 0) = false ∧
    0 ≤ (sVal (holds 0 0x7FFFFFFFFFFFFFFF busy) 0).toInt ∧ (sVal (holds 0 0x8000000000000000 busy) 0).toInt ≤ 0 := by decide

theorem wit_SelectAndCountResults :
    (∀ i ∈ [Instr.sel 31 40 0 none, .sel 32 0 0 none, .clz 31 0 none, .ctz 31 0 none, .popc 31 0 none], operandFaults busy i = []) ∧
    landingClash busy 0 (landCyc busy 0 1) (.sreg 31 0) = false ∧ sVal (holds 31 1 busy) 31 ≠ 0 ∧
    (fieldsOf 0x86C00000).cls = 0 ∧ (fieldsOf 0x86C00000).opc = 0x1B := by decide

theorem wit_ScalarImmediateResults :
    (∀ i ∈ [Instr.addi 31 0 (.k0 64), .andi 31 0 (.k0 127), .ori 31 0 (.k0 0), .xori 31 0 (.k0 0), .shli 31 0 (.k0 63), .shri 31 0 (.k0 0),
      .sari 31 0 (.k0 0), .slti 31 0 (.k0 0), .sltni 31 0 (.k0 0), .li false 31 (.k0 0), .li true 31 (.k2 0),
      .agen 3 31 0 0 none, .lcset 3 0 (.k0 0)], operandFaults busy i = []) ∧
    landingClash busy 0 (landCyc busy 0 1) (.sreg 31 0) = false ∧ landingClash busy 0 (landCyc busy 0 1) (.lcr 3 0) = false := by
  decide

theorem wit_BranchOutcomes :
    isControl busy.cur.g = false ∧ busy.cur.off + 4 * busy.cur.n ≤ 0xFFFC ∧
    (∀ i ∈ [Instr.br (.k1 0xFFFC), .brc false 0 (.k0 0), .brc true 0 (.k1 0xFFFC), .call 31 (.k0 0), .call 32 (.k0 0), .ret 1,
      .repeatLoop 3 0 (.k0 63), .repeatLoop 0 0 (.k0 64)], operandFaults (holds 1 0xFFFC busy) i = []) ∧
    (sVal (holds 1 0xFFFC busy) 1).toNat < 2 ^ 16 ∧ (sVal (holds 1 0xFFFC busy) 1).toNat % 4 = 0 ∧
    ((lcReg (coreOf busy 0) 3).toNat : Int) + 1 < max 1 (min (2 ^ 32 - 1) ((sVal busy 0).toInt + (Imm.k0 63).toInt)) ∧
    (decide (sVal busy 0 ≠ 0) != false) = false ∧ (decide (sVal busy 0 ≠ 0) != true) = true := by decide

/-- The last byte and the last word of the slice (R227, R228). -/
theorem wit_ScalarMemory :
    ([((0 : BitVec 2), (0x1FFFFF : Word)), (3, 0x1FFFF8)].all (fun q => decide (
      let s := holds 1 q.2 busy
      let x : Nat := q.2.toNat
      let n : Nat := 2 ^ q.1.toNat
      operandFaults s (.lds q.1 31 1 (.k0 0)) = [] ∧ operandFaults s (.sts q.1 31 1 (.k0 0)) = [] ∧ x + n ≤ 2 ^ 21 ∧ x % n = 0 ∧
      readPortFaults s 0 (linesOf ((List.range n).map (x + ·))) (cnow s 0) false = [] ∧
      loadFaults s 0 ((List.range n).map (x + ·)) = [] ∧
      writePortFaults s 0 ((List.range n).map (x + ·)) (cnow s 0) = [] ∧ budgetFaults s ((List.range n).map (x + ·)) = [] ∧
      landingClash s 0 (landCyc s 3 4) (.sreg 31 0) = false))) = true ∧ isControl busy.cur.g = false := by decide

/-- Control core 384 issues; its register s1 holds `x`. -/
def control (x : Word) : State :=
  modCore { busy with cur := ⟨384, 0, 0, 1, [], []⟩ } 384 (fun c => landCore c (.sreg 1 x))

theorem wit_ControlCores :
    (let s := control 0xFFFF8
     isControl s.cur.g = true ∧ operandFaults s (.lds 3 31 1 (.k0 0)) = [] ∧ operandFaults s (.sts 3 31 1 (.k0 0)) = [] ∧
     0xFFFF8 + 8 ≤ 2 ^ 20 ∧ landingClash s 384 (landCyc s 3 4) (.sreg 31 0) = false) ∧
    (∀ q ∈ [((0xE00000000000 : Word), 7), (0x200000000000, 1), (0x1FFFF8, 0)],
      let s := control q.1
      controlAddr s 384 q.1.toNat = true ∧ spaceOf q.1.toNat = q.2 ∧ operandFaults s (.sysrd 31 1 (.k0 0)) = [] ∧
      operandFaults s (.syswr 31 1 (.k0 0)) = [] ∧
      landingClash s 384 (landCyc s 0 1) (.sreg 31 0) = false) := by decide

theorem wit_StoreTakesPlace : anyArmed (coreOf busy 0) = false := by decide

/-! ### Witnesses: passes, rendezvous, traps and handlers -/

/-- The pass of core 0 is changed. -/
def inPass (f : Pass → Pass) : State := core0 (fun c => { c with pass := f c.pass })

theorem wit_MoorBeginsPass :
    (coreOf (inPass (fun p => { p with id := { p.id with serial := 0 } })) 0).pass.id.serial = 0 ∧
    (coreOf (inPass (fun p => { p with next := some .haltUnit })) 0).pass.next = some .haltUnit ∧
    (let s := inPass (fun p => { p with c := 0, sig := crcFinal p.crc, homes := [⟨1, 1, 1, 0, 3, 3, []⟩] })
     let old := (coreOf s 0).pass
     passCount old (cnow s 0) = old.c ∧ crcFinal old.crc = old.sig ∧ old.id.serial ≠ 0 ∧ old.homes ≠ []) := by decide

theorem wit_RendezvousArrival :
    rdvFaults busy (.rdvPlain 6 63) 0 63 6 0 = [] ∧ rdvFaults busy (.rdvBar 1 0 31 40) 1 0 1 (sVal busy 31) = [] ∧
    rdvFaults (holds 31 0x1FFFFC busy) (.rdvBar 1 0 31 40) 1 0 1 (sVal (holds 31 0x1FFFFC busy) 31) = [] ∧
    rdvFaults busy (.rdvWm 1 0 0 0) 2 0 1 (sVal busy 0) = [] ∧ rdvFaults busy (.rdvCmt 1 0 0 0) 3 0 1 (sVal busy 0) = [] ∧ inhibited (coreOf busy 0) = false ∧
    (∀ q ∈ [(0, [0, 1]), (63, [0])], groupMembers busy 0 q.1 = some q.2 ∧ 0 ∈ q.2 ∧ openRdv busy (rdvPart busy 0 q.2) q.1 q.2 = none) ∧
    busy.rdvs.all (fun r => decide (r.id < busy.seq)) = true ∧
    rdvFailed busy ⟨busy.seq, rdvPart busy 0 [0], 0, 63, 1, [0], [], 0, 0, none, 0, false⟩ = false := by decide

theorem wit_HaltEndsTheUnit :
    (let s := inPass (fun p => { p with id := { p.id with serial := 0 } })
     inhibited (coreOf s 0) = false ∧ (coreOf s 0).live.red = [] ∧ (coreOf s 0).pass.id.serial = 0 ∧
     ∀ l ∈ (coreOf s 0).lands, l.2.2 = true → l.2.1 ≤ cnow s 0) ∧
    (let s := core0 (fun c => { c with lands := [(1, 0, true), (1, 9, false)], pass := { c.pass with c := 1, sig := crcFinal c.pass.crc } })
     passCount (coreOf s 0).pass (cnow s 0 + corePace s 0) = (coreOf s 0).pass.c ∧ crcFinal (coreOf s 0).pass.crc = (coreOf s 0).pass.sig ∧
     ∀ l ∈ (coreOf s 0).lands, l.2.2 = true → l.2.1 ≤ cnow s 0) ∧
    anyArmed (coreOf busy 0) = false := by decide

/-- TRAPENT: enabled, its handler at offset 0, no redo allowed yet. -/
def trapping : State := sysHolds 0x400 0x10000 busy

theorem wit_Traps :
    (decide (sVal busy 0 ≠ 0) != false) = false ∧ (decide (sVal busy 0 ≠ 0) != true) = true ∧
    operandFaults busy (.trap false 0 (.k0 0)) = [] ∧ operandFaults trapping (.trap true 32 (.k2 65535)) = [] ∧
    (coreOf trapping 0).run = .running ∧ inhibited (coreOf trapping 0) = false ∧ trapEnabled (coreOf trapping 0) = true ∧
    redoOf (coreOf trapping 0) ≤ redoMax (coreOf trapping 0) := by decide

theorem wit_UndoAndHandlerEntry :
    (let c := coreOf (inPass (fun p => { p with undo := [⟨0, 0, 0, []⟩] ++ [⟨0x1FFFC0, 0, 0, []⟩] })) 0
     c.pass.undo.map (·.off) = [0, 0x1FFFC0] ∧ 0x1FFFC0 % 64 = 0 ∧ c.zone = [] ∧ c.bases = []) ∧
    (coreOf busy 0).pass.undo = [] ∧
    tabGet (fun _ => false) (coreOf busy 0).codeValid (handlerOff (coreOf busy 0) / 4) = true ∧
    tabGet (fun _ => false) (coreOf State.reset 0).codeValid (handlerOff (coreOf State.reset 0) / 4) = false := by decide

/-- A rollback of the pass of core 0 found at cycle 0. -/
def roll0 : Roll := ⟨0, 13, 0, 0, Pass.none⟩

/-- Core 0 is between RETT and its re-entry; the handler's last pass has ended without a slip. -/
def reentering (f : Core → Core) : State := core0 (fun c => f { c with
  run := .reenter false 0, roll := some roll0, pass := { c.pass with c := 1, sig := crcFinal c.pass.crc } })

/-- A line of a get of core 0, one piece, whose bytes have come. -/
def xfer0 : Xfer :=
  ⟨7, 0, 0, ⟨0, 0, 0, 0, 0, 0, 0⟩, ⟨0, 0, 0, 0, 0⟩, false, false, 0, 0, BitVec.allOnes 64, 0, 0, 0, 0, 1, 2, 1, 4, 1, 1, [],
    [(0x1FFFC0, 0, 2 ^ 30, 64)], [(0, List.replicate 64 0xA5)], [], [], [], false⟩

theorem wit_LeavingAHandler :
    inhibited (coreOf (sysHolds 0x401 1 busy) 0) = true ∧ inhibited (coreOf busy 0) = false ∧
    (coreOf (reentering id) 0).roll = some roll0 ∧ (coreOf (reentering id) 0).run = .reenter false 0 ∧
    fieldOf (sysGet (coreOf (reentering (fun c => sysSet c 0x451 1)) 0) 0x451) 0 1 = 1 ∧
    (let f : FaultRec := ⟨0x0A, 5, 0, 0, 0, 0, 0, 0, 0⟩
     let s := reentering (fun c => { c with heldFaults := [f] })
     firstFault ((coreOf s 0).heldFaults ++ handlerSlips s 0 (coreOf s 0).pass 0 roll0.pass.off) = some f ∧ f.cls < 2 ^ 8) ∧
    fieldOf (sysGet (coreOf (reentering id) 0) 0x451) 0 1 = 0 ∧ (coreOf (reentering id) 0).heldFaults = [] ∧
    handlerSlips (reentering id) 0 (coreOf (reentering id) 0).pass 0 roll0.pass.off = [] := by decide

theorem wit_LeavingAHandler_deferred :
    (∀ n ∈ [0, 1], let s := { core0 (fun c => { c with
          deferred := [(0, .pieceTransfer 7 0 false)]
          ports := if n = 1 then [⟨1, bankOf 0x1FFFC0, 0, 0, 9⟩] else [] }) with xfers := [xfer0] }
      xferOf s 7 = some xfer0 ∧ xfer0.g = 0 ∧ xfer0.cancelled = false ∧ pieceData xfer0 0 = some (List.replicate 64 0xA5, []) ∧
      anyArmed (coreOf s 0) = false ∧ (coreOf s 0).deferred = [(0, .pieceTransfer 7 0 false)] ∧
      (ownTaken (coreOf s 0) (bankOf 0x1FFFC0) (0x1FFFC0 / 64) (cnow s 0) false ||
        landingTaken (coreOf s 0) (bankOf 0x1FFFC0) (cnow s 0)) = decide (n = 1)) := by decide

/-! ### Witnesses: vectors -/

/-- First V position, core 0 as in `busy`. -/
def vecs : State := slot 1 busy

theorem wit_VectorArithmeticResults :
    (∀ f ∈ [(0 : BitVec 3), 5], ∀ i ∈ [Instr.vadd f 47 56 0 true none, .vsub f 47 0 0 false none, .vmul f 47 0 0 false none,
      .vfma f 47 0 0 false none, .vfms f 47 0 0 false none, .vmin f 47 0 0 false none, .vmax f 47 0 0 false none, .vminn 5 47 0 0 false none,
      .vmaxn 3 47 0 0 false none, .vabs f 47 0 false none, .vneg f 47 0 false none, .vadds 3 47 0 0 false none, .vsubs 5 47 0 0 false none,
      .vaddsn 3 47 0 0 false none, .vsubsn 5 47 0 0 false none, .vmulh 3 47 0 0 false none, .vmulhn 5 47 0 0 false none,
      .vshl 3 47 0 0 false none, .vshr 4 47 0 0 false none, .vsar 5 47 0 0 false none, .vand 47 0 0 false none, .vor 47 0 0 false none,
      .vxor 47 0 0 false none, .vandn 47 0 0 false none, .vmov 47 0 false none], vecFaults vecs i = []) ∧
    (∀ k ∈ [(4, 2), (5, 3), (6, 4)], landFaults vecs 0 (landCyc vecs k.1 k.2) (.vreg 47 0 0) = [] ∧
      landingClash vecs 0 (landCyc vecs k.1 k.2) (.vreg 47 0 0) = false) ∧ guardMd vecs none = true ∧ guardMd vecs shut = false := by decide

theorem wit_LaneMovementResults :
    (∀ i ∈ [Instr.vsel 7 47 0 56 true none, .vperm 47 0 0 false none, .vshuf 0 47 0 0 false none, .vshuf 1 47 0 0 false none,
      .vshuf 2 47 0 0 false none, .vshuf 3 47 0 0 false none, .vshuf 4 47 0 0 false none, .vext 47 0 1 false (some ⟨false, false, 0, 63⟩),
      .vbcast 47 0 0 false none, .vsplat 5 47 0 (.k0 0), .vins 47 0 0 none, .vpack true 47 0 1 false none,
      .vunpack false 47 0 3 false none, .vlane 31 0 0 false none, .vlane 32 0 0 true none], vecFaults vecs i = []) ∧
    (∀ k ∈ [(4, 2), (8, 3)], landFaults vecs 0 (landCyc vecs k.1 k.2) (.vreg 47 0 0) = [] ∧
      landingClash vecs 0 (landCyc vecs k.1 k.2) (.vreg 47 0 0) = false) ∧
    landFaults vecs 0 (landCyc vecs 8 3) (.sreg 31 0) = [] ∧ landingClash vecs 0 (landCyc vecs 8 3) (.sreg 31 0) = false := by decide

/-- The Chamois queue of core 0 holds one word. -/
def drawn : State := modCore vecs 0 (fun c => { c with live := { c.live with rnd := ⟨0, 1, [0], true⟩ } })

theorem wit_VectorFunctionResults :
    (∀ i ∈ [Instr.vcmp 0 7 7 0 1 true none, .vcmpn 5 0 0 0 1 false none, .vcvt 0 47 0 false (some ⟨false, false, 0, 0xCC⟩),
      .vcvt 3 47 0 false none, .vrcp 2 47 0 false none, .vrsq 0 47 0 false none, .vsqrt 0 47 0 false none, .vdiv 0 47 0 0 false none,
      .vexp2 0 47 0 false none, .vlog2 0 47 0 false none, .vred 5 47 0 7 false none, .vscan 0 47 0 2 false none, .vdot 1 47 0 0 false none,
      .vdot 4 47 0 0 false none, .vdot 5 47 0 0 false none], vecFaults vecs i = []) ∧
    vecFaults drawn (.vcvt 2 47 0 false none) = [] ∧ (coreOf drawn 0).live.rnd.queue ≠ [] ∧
    (∀ k ∈ [(4, 2), (6, 4), (7, 3), (9, 8), (10, 10), (11, 18), (12, 14)], landFaults vecs 0 (landCyc vecs k.1 k.2) (.vreg 47 0 0) = [] ∧
      landingClash vecs 0 (landCyc vecs k.1 k.2) (.vreg 47 0 0) = false) ∧
    landFaults vecs 0 (landCyc vecs 7 2) (.mreg 7 0 0) = [] ∧ landingClash vecs 0 (landCyc vecs 7 2) (.mreg 7 0 0) = false := by decide

theorem wit_MaskResults :
    (∀ i ∈ [Instr.mand 55 48 55 none, .mor 48 48 48 none, .mxor 48 48 48 none, .mnot 55 48 none, .mpop 31 48 none, .mfirst 32 55 none],
      vecFaults vecs i = []) ∧
    landFaults vecs 0 (landCyc vecs 4 2) (.mreg 7 0 0) = [] ∧ landingClash vecs 0 (landCyc vecs 4 2) (.mreg 7 0 0) = false ∧
    landFaults vecs 0 (landCyc vecs 4 2) (.sreg 31 0) = [] ∧ landingClash vecs 0 (landCyc vecs 4 2) (.sreg 31 0) = false ∧
    Machine.mReg (coreOf vecs 0) 0 = 0 ∧ Machine.mReg (landCore (coreOf vecs 0) (.mreg 0 (BitVec.allOnes 64) 1)) 0 ≠ 0 := by decide

/-- Lanes 0 to 2 alone are enabled: m0 holds 7. -/
def few : State := modCore vecs 0 (fun c => landCore c (.mreg 0 (BitVec.allOnes 64) 7))
def fewMd : Md := some ⟨false, false, 0, 0x80000⟩

theorem wit_VectorLoads :
    (let s := holds 1 0x1FFFC0 vecs
     let es := (List.range 64).map (fun (j : Nat) => (j, (0x1FFFC0 : Int) + (j : Int)))
     vecFaults s (.vld 0 47 1 (.k0 0)) = [] ∧ landFaults s 0 (landCyc s 13 5) (.vreg 47 0 0) = [] ∧
     loadElemFaults s none es 1 (offsetFaults s [0x1FFFC0] 64 64) = [] ∧
     landingClash s 0 (landCyc s 13 5) (.vreg 47 0 0) = false) ∧
    (let s := few
     let lanes := (List.range 64).filter (fun j => (laneMask s fewMd).getLsbD j)
     let rows := lanes.map (fun (j : Nat) => (j, ((sVal s 0).toNat : Int) + (j : Int) * (sVal s 0).toInt))
     let at_ := lanes.map (fun (j : Nat) => (j, ((sVal s 0).toNat : Int) + (lane (vVal s 0) j : Int)))
     lanes = [0, 1, 2] ∧ vecFaults s (.vlds 5 47 0 0 fewMd) = [] ∧ vecFaults s (.vldg 0 47 0 0 fewMd) = [] ∧
     loadElemFaults s fewMd rows 1 (offsetFaults s (rows.map (·.2)) 1 1) = [] ∧
     loadElemFaults s fewMd at_ 4 (offsetFaults s (at_.map (·.2)) 4 4) = []) := by decide

theorem wit_VectorStores :
    (let s := holds 1 0x1FFFC0 vecs
     let es := (List.range 64).map (fun (j : Nat) => (j, (0x1FFFC0 : Int) + (j : Int)))
     vecFaults s (.vst 0 47 1 (.k0 0)) = [] ∧ storeElemFaults s none es 1 (offsetFaults s [0x1FFFC0] 64 64) = []) ∧
    (let s := few
     let lanes := (List.range 64).filter (fun j => (laneMask s fewMd).getLsbD j)
     let rows := lanes.map (fun (j : Nat) => (j, ((sVal s 0).toNat : Int) + (j : Int) * (sVal s 0).toInt))
     let at_ := lanes.map (fun (j : Nat) => (j, ((sVal s 0).toNat : Int) + (lane (vVal s 0) j : Int)))
     vecFaults s (.vsts 5 47 0 0 fewMd) = [] ∧ vecFaults s (.vstx 5 47 0 0 fewMd) = [] ∧ rows ≠ [] ∧
     storeElemFaults s fewMd rows 1 (offsetFaults s (rows.map (·.2)) 1 1) = [] ∧
     storeElemFaults s fewMd at_ 1 (offsetFaults s (at_.map (·.2)) 1 1) = []) := by decide

/-- Entry 63 holds a tile of 64 by 64 i8 elements (FMT 8) at offset 0. -/
def tiled : State := modCore few 0 (fun c => setDir c 63 (mkDir true 8 true 64 64 0))

theorem wit_VectorStores_checked :
    (let s := holds 2 1 tiled
     let lanes := (List.range 64).filter (fun j => (laneMask s fewMd).getLsbD j)
     let es := lanes.map (fun (j : Nat) => (j, ((sVal s 0).toNat : Int) + (j : Int) * (sVal s 2).toInt))
     es ≠ [] ∧ vecFaults s (.vstm 5 47 0 2 fewMd) = [] ∧ vstmFaults s fewMd es 1 = [] ∧ oldReadFaults s fewMd es 1 = [] ∧
     storeElemFaults s fewMd es 1 [] = [] ∧ vstmEntry s es 1 = some 63 ∧ guardMd s fewMd = true) ∧
    guardMd tiled shut = false := by decide

/-! ### Witnesses: matrix operations -/

/-- M position of core 0; s1 holds the start of bank group 1, s2 a descriptor of entry 8 with FMT 8, 64 by 64, and entry 63
is a tile of that kind at offset 0. -/
def tiles : State :=
  slot 3 (holds 2 (BitVec.ofNat 64 (8 + 8 * 2 ^ 6 + 64 * 2 ^ 10 + 64 * 2 ^ 17)) (holds 3 63 (holds 1 0x80000
    (modCore busy 0 (fun c => setDir c 63 (mkDir true 8 true 64 64 0))))))

theorem wit_MultipliesIssue :
    (∀ i ∈ [Instr.mma 0 7 true true true 0 1 false none, .mmat 2 0 false false false 0 1 true none], operandFaults tiles i = []) ∧
    deadFaults tiles = [] ∧ engineFaults tiles 0 (cnow tiles 0) = [] ∧
    guardMd tiles none = true ∧ guardMd tiles shut = false ∧
    (∀ k ∈ [(0, 7, true, true), (2, 0, false, false)], multiplyFaults tiles k.1 k.2.1 k.2.2.1 k.2.2.2 0 0x80000 8192 = []) ∧
    holdFaults tiles 0 (cnow tiles 0) (unitPace tiles 0 3) [0 / 2 ^ 19, 0x80000 / 2 ^ 19] = [] ∧
    tilePlaced 0 8192 = true ∧ tilePlaced 0x80000 8192 = true ∧
    declFaults tiles 0 (multiplyOp tiles 0 0 7 false true true true false true 0 0x80000 1) = [] ∧
    chainOf (coreOf tiles 0) 0 (cnow tiles 0) = none := by decide

theorem wit_MultipliesIssue_gang :
    (let md : Modifier := ⟨false, false, 0, 0⟩
     operandFaults tiles (.mmag 2 7 false true true 0 1 true md) = [] ∧ deadFaults tiles = [] ∧
     engineFaults tiles 0 (cnow tiles 0) = [] ∧ guardOf tiles md = true ∧ guardOf tiles ⟨true, false, 0, 0⟩ = false ∧ gangOf tiles 0 0 = some ⟨[(0, 0), (1, 63)]⟩ ∧
     (∀ b ∈ [true, false], gangFaults tiles (some ⟨[(0, 0), (1, 63)]⟩) 1 b = []) ∧ multiplyFaults tiles 2 7 true true 0 0x80000 8192 = [] ∧
     holdFaults tiles 0 (cnow tiles 0) (gangPace tiles ⟨[(0, 0), (1, 63)]⟩) [0 / 2 ^ 19, 0x80000 / 2 ^ 19] = [] ∧
     declFaults tiles 0 (multiplyOp tiles 0 2 7 false false true true true true 0 0x80000 1) = [] ∧
     (coreOf tiles 0).pass.mmagSkip = []) ∧
    (coreOf (inPass (fun p => { p with mmagSkip := [3, 4] })) 0).pass.mmagSkip = 3 :: [4] := by decide

theorem wit_TileInstructionsIssue :
    (∀ i ∈ [Instr.mclr false 7 none, .mload 7 true true 3 none, .mmarg 0 0 none, .mmarg 0 2 none, .mchk 7 0 none, .mchkSp 3 none,
      .mout 3 7 true true 1 2 none], operandFaults tiles i = []) ∧
    deadFaults tiles = [] ∧ engineFaults tiles 0 (cnow tiles 0) = [] ∧
    tileFaults tiles 0 7 (cnow tiles 0) false = [] ∧ (sVal tiles 3).toNat % 64 = 63 ∧ dValid (dirEntry (coreOf tiles 0) 63) = true ∧
    holdFaults tiles 0 (cnow tiles 0) (unitPace tiles 0 3) [dBase (dirEntry (coreOf tiles 0) 63) / 2 ^ 19] = [] ∧
    occupancyFaults tiles 0 (cnow tiles 0) (unitPace tiles 0 3) 0 = [] ∧ marginFaults tiles 0 7 (cnow tiles 0) = [] ∧
    (let d := sVal tiles 2
     d.toNat % 64 = 8 ∧ descFmt d = 8 ∧ descRows d = 64 ∧ descCols d = 64 ∧ descEntry d = 8 ∧
     tilePlaced (sVal tiles 1).toNat (tileBytes (descFmt d)) = true) ∧
    (let d := sVal (holds 4 (BitVec.ofNat 64 (7 + 2 ^ 10 + 2 ^ 17)) tiles) 4
     d.toNat % 64 = 7 ∧ descRows d = 1 ∧ descCols d = 1) ∧
    (∀ k ∈ List.range 64, windowShut tiles 0
      (cnow tiles 0 + 78 * unitPace tiles 0 3 + stretchOf tiles 0 15 - (63 - k) * unitPace tiles 0 3) = false) := by decide

theorem wit_AccumulatorRows :
    (∀ md ∈ [(0 : BitVec 2), 2], vecFaults vecs (.vmrd 7 47 0 md none) = [] ∧ vecFaults vecs (.vmwr 7 47 0 md none) = []) ∧
    startFaults vecs 1 (rowBads (coreOf vecs 0) 7 0 (laneMask vecs none)) = [] ∧
    landFaults vecs 0 (landCyc vecs 8 3) (.vreg 47 0 0) = [] ∧ landingClash vecs 0 (landCyc vecs 8 3) (.vreg 47 0 0) = false ∧
    vmwrFaults vecs 0 7 (landCyc vecs 8 3) = [] ∧ landingClash vecs 0 (landCyc vecs 8 3) (.accRow 7 0 0 (laneMask vecs none) 0) = false := by decide

theorem wit_ScaleAndRandomResults :
    (let s := slot 6 (holds 1 0x1FFFC0 busy)
     operandFaults s (.scl 15 1 (.k0 0)) = [] ∧ deadFaults s = [] ∧ readPortFaults s 0 [0x1FFFC0 / 64] (cnow s 0) false = [] ∧
     loadFaults s 0 ((List.range 64).map (0x1FFFC0 + ·)) = [] ∧ landingClash s 0 (landCyc s 14 2) (.srow 15 0) = false ∧
     (∀ i ∈ [Instr.sclv 0 56 none, .xpack 0 47 0 7 none, .xpack 1 0 0 0 none, .xpack 2 0 0 0 none, .xunpack 0 47 0 7 none,
       .xunpack 1 0 0 0 none], vecFaults s i = []) ∧
     landFaults s 0 (landCyc s 8 3) (.vreg 47 0 0) = [] ∧ landingClash s 0 (landCyc s 8 3) (.vreg 47 0 0) = false ∧
     operandFaults s (.rndseed 0 none) = []) ∧
    (∀ p ∈ [true, false], operandFaults drawn (.rndpop p 47 none) = [] ∧ (coreOf drawn 0).live.rnd.queue ≠ []) := by decide

/-! ### Witnesses: transfers, atomics, remote accesses -/

/-- A page of 1 MiB, readable, writable, with atomics and code, from virtual `va` to global `ga` (R143). -/
def page (va ga : Nat) : BitVec 128 := BitVec.ofNat 128 (0xF5 + va + ga * 2 ^ 64)

/-- Pages of core 1's slice at 0, of stack 0 at 1 MiB, of the host window at 2 MiB and of core 0's own slice at 3 MiB; route 0
leads to core 1, route 1 to stack 0 and route 2 to die layer 0; shape 0 is a run of one line, shape 1 of 1 MiB;
the host window is 1 MiB. L position. -/
def linked : State :=
  let s := [(0, page 0 (2 ^ 30)), (1, page 0x100000 (2 ^ 45)), (2, page 0x200000 (2 ^ 46)), (3, page 0x300000 0)].foldl
    (fun s e => setTable s 0 e.1 e.2) (slot 4 (part (fun x => { x with hostMap := [(1, 0x100000)] }) busy))
  [(0x380, (1 + 2 ^ 9 + 8 * 2 ^ 24 + 8 * 2 ^ 40 : Word)), (0x381, 1 + 2 + 8 * 2 ^ 24 + 8 * 2 ^ 40), (0x382, 1 + 4 + 8 * 2 ^ 24 + 8 * 2 ^ 40),
    (0x300, 0xFFFFFFFF00000040), (0x308, 0xFFFFFFFF00100000)].foldl (fun s e => sysHolds e.1 e.2 s) s

/-- s1 at stack 0, s2 at the host window, s3 at core 0's own slice, through the table. -/
def aimed : State := holds 1 0x100000 (holds 2 0x200000 (holds 3 0x300000 linked))

theorem wit_CopiesIssue :
    (∀ q ∈ [(Instr.cpy true 0 0 0 0 none, true, false, (0 : Word), routeReg aimed 0 0, none),
        (.cpys false 1 1 0 0 none, false, true, 0x100000, routeReg aimed 0 1, none),
        (.cpy true 0 0 0 0 (some ⟨false, false, 0, 0x80000⟩), true, false, 0, routeReg aimed 0 0, some ⟨false, false, 0, 0x80000⟩)],
      let ps := piecesOf aimed 0 0 q.2.2.1 0 q.2.2.2.1.toNat
      operandFaults aimed q.1 = [] ∧
      transferFaults aimed 0 (if q.2.1 = true then 2 else 1) q.2.2.2.2.1 true 0 0 q.2.2.2.1.toNat ps
        (routed aimed 0 { newXfer aimed 0 (if q.2.2.1 = true then 1 else 0) 0 q.2.1 (decide (xfOf q.2.2.2.2.2 / 2 ^ 19 % 2 = 1))
          q.2.2.2.2.1 with mask := BitVec.allOnes 64 } q.2.2.2.2.1 q.2.2.2.1.toNat 0 ps) 0 = []) ∧
    (let md : Modifier := ⟨false, false, 0, 7⟩
     let ps := piecesOf aimed 0 0 false 0 0
     operandFaults aimed (.cpym 0 0 0 0 md) = [] ∧ shRun aimed 0 0 % 64 = 0 ∧
     transferFaults aimed 0 2 (routeReg aimed 0 0) true 0 0 0 ps (routed aimed 0 { newXfer aimed 0 2 0 true false (routeReg aimed 0 0)
       with mask := Machine.mReg (coreOf aimed 0) 7 } (routeReg aimed 0 0) 0 0 ps) 0 = []) ∧
    deadFaults aimed = [] ∧ guardMd aimed shut = false := by decide

theorem wit_CopiesIssue_tile :
    (∀ q ∈ [((0 : BitVec 4), (0 : Word), false, (256 : Nat)), (1, 0x100000, true, 64)],
      let s := holds 4 q.2.1 aimed
      let r := routeReg s 0 q.1.toNat
      let md : Modifier := ⟨false, false, 0, BitVec.ofNat 20 (63 + 8 * 64)⟩
      let tile := tilePieces 8 0 q.2.1.toNat
      let ps := if q.2.2.1 = true then tile ++ (List.range 9).map (fun j => ((0 : Int), ((q.2.1.toNat + 4096 + 64 * j : Nat) : Int), 64))
        else tile
      decide (rtKind r = 1) = q.2.2.1 ∧ operandFaults s (.cpyt true q.1 4 0 md) = [] ∧ guardOf s md = true ∧
      q.2.1.toNat % q.2.2.2 = 0 ∧ capacityFaults s 0 = [] ∧ routeFaults s r = [] ∧ farRange s q.2.1.toNat = [] ∧ localFaults s 0 tile = [] ∧
      tableFaults s 0 = [] ∧ farFaults s 0 2 r true q.2.1.toNat ps = [] ∧
      firstPortFaults s 0 (tileXfer s 0 0 true false 63 8 r 0 q.2.1.toNat 0) 0 = []) ∧
    guardOf aimed ⟨true, false, 0, 0⟩ = false := by decide

theorem wit_CodeAndHostCopiesIssue :
    (∀ v ∈ [(0 : BitVec 2), 1, 2],
      let s := aimed
      let fa := (sVal s 1).toNat
      let md : Md := some ⟨false, false, 0, 0⟩
      operandFaults s (.code v 1 1 0 0 md) = [] ∧ guardMd s md = true ∧ capacityFaults s 0 = [] ∧ routeFaults s (routeReg s 0 1) = [] ∧
      tableFaults s 0 = [] ∧ shRun s 0 0 = 64 ∧ (v = 1 → (gangOf s 0 0).isSome = true) ∧ fa % 64 = 0 ∧ fa < 2 ^ 48 ∧
      farFaults s 0 8 (routeReg s 0 1) true fa [(0, (fa : Int), 64)] = [] ∧ isStack (homeOf (translate s 0 fa)) = true) ∧
    deadFaults aimed = [] ∧ guardMd aimed shut = false ∧
    (let s := aimed
     let fa := (sVal s 2).toNat
     let ps := piecesOf s 0 0 true 0 fa
     operandFaults s (.hcpy true 3 2 0 0 none) = [] ∧ decide ((coreOf s 0).pass.hcpys < (coreOf s 0).pass.hcpySkip) = false ∧
     capacityFaults s 0 = [] ∧ shapeFaults s 0 0 ps = [] ∧ farRange s fa = [] ∧ localFaults s 0 ps = [] ∧ tableFaults s 0 = [] ∧
     windowFaults s 0 2 fa ps = []) ∧
    (let c := coreOf (inPass (fun p => { p with hcpySkip := 1 })) 0
     decide (c.pass.hcpys < c.pass.hcpySkip) = true) := by decide

theorem wit_LocalAtomics :
    (∀ i ∈ [Instr.stageRd 31 none, .stageRd 32 none, .stageSet 40 none], operandFaults linked i = []) ∧ deadFaults linked = [] ∧
    landingClash linked 0 (landCyc linked 0 1) (.sreg 31 0) = false ∧
    (∀ q ∈ [((4 : Nat), (0x1FFFFC : Word)), (8, 0x1FFFF8)],
      let s := holds 5 q.2 linked
      let offs := (List.range q.1).map (q.2.toNat + ·)
      (∀ i ∈ [Instr.atomInt 7 31 5 0 (decide (q.1 = 8)) none, .atomOther 2 31 5 0 (decide (q.1 = 8)) none, .bara 7 5 none],
        operandFaults s i = []) ∧
      q.2.toNat + q.1 ≤ 2 ^ 21 ∧ q.2.toNat % q.1 = 0 ∧ sameBundleFaults s 0 q.2.toNat q.1 = [] ∧ readPortFaults s 0 [q.2.toNat / 64] (cnow s 0) true = [] ∧
      loadFaults s 0 offs = [] ∧ (writePortFaults s 0 offs (cnow s 0 + 2)).filter (fun r => r.sub ≠ 8) = [] ∧
      budgetFaults s offs = [] ∧ landingClash s 0 (cnow s 0 + 4) (.sreg 31 0) = false) ∧ guardMd linked shut = false := by decide

/-- Q position. -/
def sending : State := slot 5 aimed

theorem wit_QuaylineAccessesIssue :
    (∀ q ∈ [((0 : BitVec 4), (0 : RegField)), (1, 1)],
      let s := sending
      let r := routeReg s 0 q.1.toNat
      let va := (sVal s q.2).toNat
      operandFaults s (.rld 3 q.1 31 q.2 0 none) = [] ∧ operandFaults s (.rst 3 q.1 40 q.2 0 none) = [] ∧
      unitFaults s 0 1 r va 8 false = [] ∧ unitFaults s 0 2 r va 8 false = []) ∧
    (∀ i ∈ [Instr.ratomInt 7 0 31 0 4 none, .ratomOther 2 0 30 0 0 none], operandFaults sending i = []) ∧
    unitFaults sending 0 4 (routeReg sending 0 0) 0 8 true = [] ∧ deadFaults sending = [] ∧
    (∀ sc ∈ [(1 : BitVec 3), 6], operandFaults sending (.drain 31 sc none) = []) ∧ guardMd sending shut = false := by decide

theorem wit_SendsIssue :
    (∀ i ∈ [Instr.send 0 15 0 0 none, .bcst 2 0 0 0 none, .recv 15 40 none], operandFaults sending i = []) ∧ deadFaults sending = [] ∧ capacityFaults sending 0 = [] ∧ shRun sending 0 0 = 64 ∧
    (let r := routeReg sending 0 0
     rtValid r = true ∧ rtKind r = 0 ∧ rtNode r < 384) ∧
    (let r := routeReg sending 0 2
     rtValid r = true ∧ rtKind r = 2 ∧ rtNode r < 8) ∧
    portClash sending 0 0 (cnow sending 0) true = none ∧ (sVal sending 0).toNat % 64 = 0 := by decide

/-- One line of core 1 waits in the reduction buffer under route 0. -/
def buffered : State := modCore sending 0 (fun c => { c with live := { c.live with red := [⟨0, 2 ^ 24, 7, [(15, 1)]⟩] } })

theorem wit_Reductions :
    (∀ op ∈ [(0 : BitVec 3), 7], operandFaults buffered (.rred op 0 0 0 none) = []) ∧ deadFaults buffered = [] ∧ unitFaults buffered 0 4 (routeReg buffered 0 0) 0 4 true = [] ∧
    (coreOf buffered 0).live.red.length < 32 ∧ operandFaults buffered (.rrel 0 none) = [] ∧ operandFaults buffered (.rrelAll none) = [] ∧
    capacityFaults buffered 0 = [] ∧ rtValid (routeReg buffered 0 0) = true ∧
    (∀ l ∈ (coreOf buffered 0).live.red, l.line / 2 ^ 24 ≠ 0 ∧ rtValid (routeReg buffered 0 l.route) = true) ∧
    (coreOf buffered 0).live.red.all (fun l => decide (l.elems.Pairwise (fun p q => p.1 < q.1))) = true ∧
    guardMd buffered shut = false := by decide

theorem wit_SystemAccesses :
    isControl busy.cur.g = false ∧
    (∀ n ∈ [0xFF, 0x104, 0x408], operandFaults busy (.sysrd 31 0 (.k1 (BitVec.ofNat 35 n))) = [] ∧ sysFaults busy n = []) ∧
    (∀ n ∈ [0x100, 0x103], operandFaults busy (.sysrd 31 0 (.k1 (BitVec.ofNat 35 n))) = []) ∧
    operandFaults busy (.syswr 40 32 (.k1 0x441)) = [] ∧ operandFaults busy (.cancel 3 0 (.k0 0)) = [] ∧
    operandFaults busy (.winv 0 0 none) = [] ∧ inhibited (coreOf busy 0) = false ∧
    landingClash busy 0 (landCyc busy 0 1) (.sreg 31 0) = false ∧
    0x400 ∉ [0x451, 0x430, 0x462, 0x468] ∧ (0x43F < 0x440 ∨ 0x448 ≤ 0x43F) := by decide

/-- A result is to land in s5 in the next cycle. -/
def clashing : State := postAt busy 0 1 10 none (.instr (.resultLanding 0 (.sreg 5 1)))

theorem wit_ResultsLand :
    anyArmed (coreOf busy 0) = false ∧ operandFaults clashing (.add 5 0 0 none) = [] ∧
    landingClash clashing 0 (landCyc clashing 0 1) (.sreg 5 0) = true ∧
    (let c := setDir (coreOf busy 0) 63 (mkDir true 8 true 64 64 0)
     fmtIsInt (tileFmt (dFmt (dirEntry c 63))) = true ∧ anyArmed c = false) ∧
    dFmt (dirEntry (setDir (coreOf busy 0) 7 (mkDir true 14 true 64 64 0)) 7) = 14 := by decide

theorem wit_MatrixResultsLand :
    (∀ k ∈ [0, 1, 2], let m : MOp := { multiplyOp tiles 0 (if k = 0 then 3 else 14) 7 false false true false false true 0 0x80000 1 with
        id := 9, kind := k, nrow := 64, ncol := 64 }
      let s := modCore tiles 0 (fun c => { c with mops := [m] })
      mopOf s 0 9 = some m ∧ anyArmed (coreOf s 0) = false ∧ m.tile < 8 ∧ m.kind = k ∧ m.late = false ∧ m.gang = none) := by decide

/-! ### Witnesses: checks, shares and copies under way -/

/-- Core 0 holds engine operation 9 of this kind, of FMT 8 and 2 by 2 filled; directory entry 7 is a tile of that kind with
the word `w`. -/
def checking (k entry : Nat) (w : Word) (s : State) : State :=
  modCore s 0 (fun c => setDir { c with mops := [{ multiplyOp tiles 0 (if k = 0 then 5 else 8) 7 false false true true false true 0 0x80000 1 with
    id := 9, kind := k, nrow := 2, ncol := 2, entry := entry, decls := [] }] } 7 w)

theorem wit_MarginChecks :
    (∀ q ∈ [(4, 7), (4, 8), (4, 63), (5, 7)],
      let s := checking q.1 q.2 (mkDir true 8 false 2 2 0) tiles
      (mopOf s 0 9).map (fun m => (m.kind, m.entry)) = some q ∧ anyArmed (coreOf s 0) = false ∧ s.cur.g = 0 ∧
      cellBads (coreOf s 0) 7 = [] ∧ slotBads (coreOf s 0) 7 = [] ∧ dMst (dirEntry (coreOf s 0) 7) = false) := by decide

/-! A check of nothing: an operation that has read no line multiplies zeros. -/

theorem no_gang (m : MOp) (h : m.gang = none) : ∀ l n st, m.gang = some (l, n, st) → n = 0 := fun _ _ _ hg => by simp [h] at hg

theorem no_lines (m : MOp) (o j x y : Nat) (hf : m.fmt = 5) (ha : m.aLines = []) (hb : m.bLines = []) :
    (subTile m o j).val x y = zeroV := by
  have hl : (if o = 0 then m.aLines else m.bLines) = [] := by split <;> assumption
  unfold subTile
  rw [hf, hl]
  unfold Grid.val
  split
  · have : (lineGrid (mmTile 5) [] (mmStride 5 * j) (declRegion m o j).1 (declRegion m o j).2).code x y = 0 := by
      simp only [Grid.code, lineGrid, List.getD_eq_getElem?_getD, List.getElem?_map]
      cases lane64[x]? <;> simp <;> cases lane64[y]? <;> simp [lineElem, tabGet, zeroAt]
    rw [this]
    show codeVal 7 0 = zeroV
    decide
  · rfl

theorem map_const {α β : Type} (l : List α) (f : α → β) (b : β) (h : ∀ x ∈ l, f x = b) : l.map f = List.replicate l.length b := by
  rw [List.map_congr_left h, List.map_const']

theorem getD_replicate {α : Type} (n k : Nat) (x : α) : (List.replicate n x).getD k x = x := by
  simp only [List.getD_eq_getElem?_getD, List.getElem?_replicate]
  split <;> rfl

theorem getD_replicate_lt {α : Type} (n k : Nat) (x d : α) (h : k < n) : (List.replicate n x).getD k d = x := by
  simp [List.getD_eq_getElem?_getD, h]

theorem getD_zero (ts : List Grid) (j x y : Nat) (h : ∀ g ∈ ts, ∀ x y, g.val x y = zeroV) :
    (ts.getD j ⟨0, [], 0, 0⟩).val x y = zeroV := by
  rw [List.getD_eq_getElem?_getD]
  cases hg : ts[j]? with
  | none => rfl
  | some g => exact h g (List.mem_of_getElem? hg) x y

/-- Margins of which the first row's and the first column's are 1, or the first row's alone, or none. -/
def oneMargins : Margins := (1 :: List.replicate 63 0, 1 :: List.replicate 63 0)
def rowMargins : Margins := (1 :: List.replicate 63 0, List.replicate 64 0)

theorem predictions_zero (m : MOp) (hf : m.fmt = 5) (ha : m.aLines = []) (hb : m.bLines = []) (hs : m.sc = false)
    (hg : ∀ l n st, m.gang = some (l, n, st) → n = 0) (ms : Margins) (hl : ms ∈ [zeroMargins, rowMargins, oneMargins])
    (hm : m.margs = ms) : predictions m = (ms, zeroMargins) := by
  have hk : kOf m = 128 := by rw [kOf, hf]; rfl
  have hi : mmInt m.fmt = true := by rw [hf]; rfl
  have hz : ∀ (o : Nat) (f : Nat → Nat) (n : Nat), ∀ g ∈ (List.range n).map (fun j => subTile m o (f j)), ∀ x y, g.val x y = zeroV := by
    intro o f n g hg x y
    obtain ⟨j, -, rfl⟩ := List.mem_map.1 hg
    exact no_lines m o (f j) x y hf ha hb
  have hA : aRows m = List.replicate 64 (List.replicate 128 zeroV) := by
    unfold aRows
    rw [hk]
    refine map_const lane64 _ _ (fun i _ => map_const (List.range 128) _ zeroV (fun k _ => ?_))
    simp only [hs, Bool.false_eq_true, if_false]
    split <;> exact getD_zero _ _ _ _ (hz 0 id _)
  have hB : bCols m 0 = List.replicate 64 (List.replicate 128 zeroV) := by
    unfold bCols
    rw [hk]
    refine map_const lane64 _ _ (fun i _ => map_const (List.range 128) _ zeroV (fun k _ => ?_))
    simp only [hs, Bool.false_eq_true, if_false]
    split <;> exact getD_zero _ _ _ _ (hz 1 _ _)
  have hs : sideSums true 128 (List.replicate 64 (List.replicate 128 zeroV)) = List.replicate 128 zeroV := by
    refine map_const (List.range 128) _ zeroV (fun k _ => ?_)
    rw [List.map_replicate, getD_replicate]
    decide
  have hacc : ∀ x ∈ [0, 1], accumulate true x (products (List.replicate 128 zeroV) (List.replicate 128 zeroV)) = x := by decide
  have hx : ∀ ms ∈ [zeroMargins, rowMargins, oneMargins], ∀ i ∈ lane64, ms.1.getD i 0 ∈ [0, 1] ∧ ms.2.getD i 0 ∈ [0, 1] := by decide
  have hms : ∀ ms ∈ [zeroMargins, rowMargins, oneMargins],
      lane64.map (fun i => ms.1.getD i 0) = ms.1 ∧ lane64.map (fun i => ms.2.getD i 0) = ms.2 := by decide
  have hr : ∀ i ∈ lane64, (List.replicate 64 (List.replicate 128 zeroV)).getD i [] = List.replicate 128 zeroV :=
    fun i h => getD_replicate_lt _ _ _ _ (List.mem_range.1 h)
  have h1 : lane64.map (fun i => accumulate true (ms.1.getD i 0)
      (products ((List.replicate 64 (List.replicate 128 zeroV)).getD i []) (List.replicate 128 zeroV))) = ms.1 := by
    rw [← (hms ms hl).1]
    refine List.map_congr_left (fun i h => ?_)
    rw [hr i h, (hms ms hl).1, hacc _ (hx ms hl i h).1]
  have h2 : lane64.map (fun n => accumulate true (ms.2.getD n 0)
      (products (List.replicate 128 zeroV) ((List.replicate 64 (List.replicate 128 zeroV)).getD n []))) = ms.2 := by
    rw [← (hms ms hl).2]
    refine List.map_congr_left (fun i h => ?_)
    rw [hr i h, (hms ms hl).2, hacc _ (hx ms hl i h).2]
  unfold predictions predict
  rw [hA, hB, hk, hi, hm]
  dsimp only
  cases hq : m.gang with
  | none => simp only [Bool.false_and, Bool.false_eq_true, if_false, if_true, hs, h1, h2]
  | some x =>
    obtain ⟨l, n, st⟩ := x
    cases hg l n st hq
    simp only [ne_eq, not_true_eq_false, decide_false, Bool.false_and, Bool.false_eq_true, if_false, if_true, hs, h1, h2]

theorem zero_margins (t : Grid) (n : Nat) (hn : n ∈ [7, 8, 14]) (hf : t.fmt = n) (h : ∀ i j, t.val i j = zeroV) : t.margins = zeroMargins := by
  have hz : ∀ n ∈ [7, 8, 14], formSum (marginKind n) (List.replicate 64 zeroV) = 0 := by decide
  have hr : lane64.map (fun _ => formSum (marginKind n) (lane64.map (fun _ => zeroV))) = List.replicate 64 0 :=
    map_const lane64 _ _ (fun i _ => (congrArg _ (map_const lane64 _ zeroV (fun _ _ => rfl))).trans (hz n hn))
  show formMargins (marginKind t.fmt) t.val = _
  rw [hf, show t.val = fun _ _ => zeroV from funext fun i => funext fun j => h i j]
  exact Prod.ext hr hr

/-- Cells that nothing has written are zero. -/
theorem no_cells (c : Core) (k n rows cols i j : Nat) (hn : n ∈ [8, 14]) (ha : c.live.acc = []) : (cellGrid c k n rows cols).val i j = zeroV := by
  have hz : ∀ n ∈ [8, 14], codeVal n 0 = zeroV := by decide
  unfold Grid.val
  split
  · have : (cellGrid c k n rows cols).code i j = 0 := by
      simp only [Grid.code, cellGrid, List.getD_eq_getElem?_getD, List.getElem?_map]
      cases lane64[i]? <;> simp <;> cases lane64[j]? <;> simp [accCell, ha, tabGet, zeroAt]
    rw [this]
    exact hz n hn
  · rfl

/-- Margins of an integer format agree where they are equal. -/
theorem agree_int (n : Nat) (hn : n ∈ [7, 8, 14]) (v : Val) (x y : Nat) : agree (marginKind n) v x y = decide (x = y) := by
  have : ∀ n ∈ [7, 8, 14], marginFloat (marginKind n) = false := by decide
  unfold agree; rw [this n hn]; rfl

/-- What a check of a grid of zeros finds: nothing where its margins are zero; a row and nothing to correct where the first row's is
not; and where the first column's is not either, the first element, which should be 1. -/
theorem check_zero (t : Grid) (n : Nat) (hn : n ∈ [7, 8, 14]) (hf : t.fmt = n) (h : ∀ i j, t.val i j = zeroV) (tol : List Val × List Val) :
    (runCheck t t.margins zeroMargins tol).clean = true ∧
    ((runCheck t t.margins rowMargins tol).clean = false ∧ (runCheck t t.margins rowMargins tol).fixed = none) ∧
    (t.code 0 0 = 0 → (runCheck t t.margins oneMargins tol).clean = false ∧ (runCheck t t.margins oneMargins tol).fixed = some (0, 0, 1, 0)) := by
  have hd : ∀ ms ∈ [(zeroMargins, [], []), (rowMargins, [0], []), (oneMargins, [0], [0])],
      lane64.filter (fun i => !decide (zeroMargins.1.getD i 0 = ms.1.1.getD i 0)) = ms.2.1 ∧
      lane64.filter (fun i => !decide (zeroMargins.2.getD i 0 = ms.1.2.getD i 0)) = ms.2.2 := by decide
  have hm : ∀ n ∈ [7, 8, 14], marginFloat (marginKind n) = false := by decide
  have he : lane64.filter (fun _ => !decide True) = [] := by decide
  rw [zero_margins t n hn hf h]
  unfold runCheck
  dsimp only
  rw [hf]
  simp only [agree_int n hn]
  refine ⟨?_, ?_, fun hc => ?_⟩
  · rw [he]; rfl
  · rw [(hd (rowMargins, [0], []) (by decide)).1, (hd (rowMargins, [0], []) (by decide)).2]; exact ⟨rfl, rfl⟩
  · rw [(hd (oneMargins, [0], [0]) (by decide)).1, (hd (oneMargins, [0], [0]) (by decide)).2]
    have hx : restoreInt t zeroMargins oneMargins 0 0 = some 1 := by
      unfold restoreInt
      rw [hf, hc]
      rcases (by simpa using hn : n = 7 ∨ n = 8 ∨ n = 14) with rfl | rfl | rfl <;> decide
    simp only [hm n hn, Bool.false_eq_true, if_false, hx, Option.map_some]
    exact ⟨rfl, trivial⟩

theorem wit_MarginChecks_multiply :
    let s := checking 0 0 0 tiles
    ∃ m, mopOf s 0 9 = some m ∧ m.kind = 0 ∧ m.decls = [] ∧ m.gang = none ∧ anyArmed (coreOf s 0) = false ∧ s.cur.g = 0 ∧
      cellBads (coreOf s 0) m.tile = [] ∧
      (let grid := tileGrid (coreOf s 0) m.tile (resultFmt m.fmt)
       (runCheck grid grid.margins (predictions m).1 (resultTols (predictions m).2)).clean = true) := by
  refine ⟨_, rfl, rfl, rfl, rfl, by decide, rfl, by decide, ?_⟩
  rw [predictions_zero _ rfl rfl rfl rfl (no_gang _ rfl) zeroMargins (by decide) rfl]
  exact (check_zero _ 14 (by decide) rfl (fun i j => no_cells _ _ _ _ _ i j (by decide) rfl) _).1

/-- The margin slots of core 0 hold these words. -/
def stored (ws : List (Nat × BitVec 32)) (s : State) : State := modCore s 0 (fun c => { c with live := { c.live with marg := ws } })

/-- What `check_zero` says of a grid of zeros whose three forms of stored margins stand in three states. -/
def Outcomes (r : Margins → CheckRes) (a b c : Margins) : Prop :=
  (r a).clean = true ∧ ((r b).clean = false ∧ (r b).fixed = none) ∧ (r c).clean = false ∧ (r c).fixed = some (0, 0, 1, 0)

theorem outcomes (t : Grid) (n : Nat) (hn : n ∈ [7, 8, 14]) (hf : t.fmt = n) (h : ∀ i j, t.val i j = zeroV) (hc : t.code 0 0 = 0)
    (tol : List Val × List Val) (a b c : Margins) (ha : a = zeroMargins) (hb : b = rowMargins) (hd : c = oneMargins) :
    Outcomes (fun ms => runCheck t t.margins ms tol) a b c := by
  subst ha; subst hb; subst hd
  have := check_zero t n hn hf h tol
  exact ⟨this.1, this.2.1, this.2.2 hc⟩

theorem no_cell_code (c : Core) (k n rows cols : Nat) (ha : c.live.acc = []) : (cellGrid c k n rows cols).code 0 0 = 0 := by
  simp [Grid.code, cellGrid, lane64, accCell, ha, tabGet, zeroAt]

theorem no_line_val (n base rows cols i j : Nat) (hn : n ∈ [7, 8]) : (lineGrid n [] base rows cols).val i j = zeroV := by
  have hz : ∀ n ∈ [7, 8], codeVal n 0 = zeroV := by decide
  unfold Grid.val
  split
  · have : (lineGrid n [] base rows cols).code i j = 0 := by
      simp only [Grid.code, lineGrid, List.getD_eq_getElem?_getD, List.getElem?_map]
      cases lane64[i]? <;> simp <;> cases lane64[j]? <;> simp [lineElem, tabGet, zeroAt]
    rw [this]
    exact hz n hn
  · rfl

theorem no_line_code (n base rows cols : Nat) : (lineGrid n [] base rows cols).code 0 0 = 0 := by
  simp [Grid.code, lineGrid, lane64, lineElem, tabGet, zeroAt]

theorem no_cells_mout (m : MOp) (hc : m.cells = []) (i j : Nat) : (moutGrid m 14).val i j = zeroV := by
  unfold Grid.val
  split
  · have : (moutGrid m 14).code i j = 0 := by
      simp only [Grid.code, moutGrid, List.getD_eq_getElem?_getD, List.getElem?_map]
      cases lane64[i]? <;> simp <;> cases lane64[j]? <;> simp [tabGet, hc, zeroAt]
    rw [this]
    show codeVal 14 0 = zeroV
    decide
  · rfl

theorem no_mout_code (m : MOp) (hc : m.cells = []) : (moutGrid m 14).code 0 0 = 0 := by
  simp [Grid.code, moutGrid, lane64, tabGet, hc, zeroAt]

/-- The words of a slot of margins of one word each, or of two: none, the first row's 1, or the first row's and the first column's. -/
def slotOf (e : Nat) (wide : Bool) : List (List (Nat × BitVec 32)) :=
  [[], [(e * 256, 1)], [(e * 256, 1), (e * 256 + if wide then 128 else 64, 1)]]

theorem wit_MarginChecks_tile :
    (∀ ws ∈ slotOf 7 false,
      let s := stored ws (checking 5 7 (mkDir true 8 true 2 2 0) tiles)
      (mopOf s 0 9).map (fun m => (m.kind, m.tile)) = some (5, 7) ∧ dMst (dirEntry (coreOf s 0) 7) = true ∧ (coreOf s 0).run = .running ∧
      dFmt (dirEntry (coreOf s 0) 7) = 8 ∧ cellBads (coreOf s 0) 7 = [] ∧ slotBads (coreOf s 0) 7 = [] ∧ anyArmed (coreOf s 0) = false) ∧
    (let c (ws : List (Nat × BitVec 32)) := coreOf (stored ws (checking 5 7 (mkDir true 8 true 2 2 0) tiles)) 0
     let grid := cellGrid (c []) 7 8 2 2
     Outcomes (fun ms => runCheck grid grid.margins ms exactTols) (storedMargins (c []) 7 (marginKind 8))
       (storedMargins (c ((slotOf 7 false).getD 1 [])) 7 (marginKind 8)) (storedMargins (c ((slotOf 7 false).getD 2 [])) 7 (marginKind 8))) :=
  ⟨by decide, outcomes _ 8 (by decide) rfl (fun i j => no_cells _ _ _ _ _ i j (by decide) rfl) (no_cell_code _ _ _ _ _ rfl) _ _ _ _
    (by decide) (by decide) (by decide)⟩

/-- A declared operand: entry 8 names the sub-tile or not, or a write has met it; its MST at the issue was 0; or 1, its margins
those of the sub-tile or not. -/
theorem wit_MarginChecks_operand :
    (let m (dirty : List Nat) := { multiplyOp tiles 0 5 7 false false true true false true 0 0 1 with id := 0, decls := [], dirty := dirty }
     let s (w : Word) := modCore tiles 0 (fun c => setDir c 8 w)
     anyArmed (coreOf (s 0) 0) = false ∧ dMst (mkDir true 7 false 64 64 0) = false ∧ dMst (mkDir true 7 true 64 64 0) = true ∧
     (let w := dirEntry (coreOf (s (mkDir true 7 true 64 64 0)) 0) 8
      dValid w = true ∧ dBase w = (m []).aOff + mmStride (m []).fmt * 0 ∧ dFmt w = mmTile (m []).fmt ∧ (m []).dirty.contains 8 = false) ∧
     dValid (dirEntry (coreOf (s 0) 0) 8) = false ∧ (m [8]).dirty.contains 8 = true) ∧
    (∀ o < 2, let t := subTile { multiplyOp tiles 0 5 7 false false true true false true 0 0 1 with id := 0, decls := [] } o 0
     Outcomes (fun ms => runCheck t t.margins ms (scratchTols 7 t.val)) (marginsOf (marginKind 7) [])
       (marginsOf (marginKind 7) [1]) (marginsOf (marginKind 7) (1 :: List.replicate 63 0 ++ [1]))) := by
  refine ⟨by decide, fun o ho => outcomes _ 7 (by decide) rfl (fun i j => no_lines _ o 0 i j rfl rfl rfl) ?_ _ _ _ _
    (by decide) (by decide) (by decide)⟩
  rcases (by omega : o = 0 ∨ o = 1) with rfl | rfl <;> exact no_line_code _ _ _ _

/-- A multiply of nothing with margins `ms` to start from, the declarations `ds`, in the gang `q`. -/
def checked (ms : Margins) (ds : List (Nat × Nat × Nat × Word × List (BitVec 32))) (q : Option (Nat × Nat × Nat)) : MOp :=
  { multiplyOp tiles 0 5 7 false false true true false true 0 0 1 with id := 9, margs := ms, decls := ds, gang := q, bar := some 0, members := [(0, 0, 0)] }
def checkedIn (ms : Margins) (ds : List (Nat × Nat × Nat × Word × List (BitVec 32))) (q : Option (Nat × Nat × Nat)) (seen : List Nat) : State :=
  modCore tiles 0 (fun c => { c with mops := [{ checked ms ds q with seen := seen }, { checked ms [(1, 0, 8, mkDir true 7 true 64 64 0, [1])] none with id := 4, kind := 7 }] })

/-- The result's check: clean, not located, located and read since or not; nothing found before it. -/
theorem wit_MarginChecks_result :
    (∀ q ∈ [none, some (0, 0, 4)], ∀ seen ∈ [[], [64], [0]],
      let s := checkedIn oneMargins [] q seen
      mopOf s 0 9 = some { checked oneMargins [] q with seen := seen } ∧ anyArmed (coreOf s 0) = false ∧
      (coreOf s 0).run = .running ∧ cellBads (coreOf s 0) 7 = [] ∧ (coreOf s 0).pass.added = [] ∧ s.cur.g = 0 ∧
      (operandChecks s 0 (checked oneMargins [] q)).2 = [] ∧ seenRow s 0 9 0 = !seen.isEmpty) ∧
    (∀ q ∈ [none, some (0, 0, 4)],
      let t := tileGrid (coreOf (checkedIn zeroMargins [] q []) 0) 7 14
      Outcomes (fun ms => runCheck t t.margins ms (resultTols zeroMargins)) (predictions (checked zeroMargins [] q)).1
        (predictions (checked rowMargins [] q)).1 (predictions (checked oneMargins [] q)).1) := by
  refine ⟨by decide, fun q hq => ?_⟩
  have hg : ∀ ms, ∀ l n st, (checked ms [] q).gang = some (l, n, st) → n = 0 := fun ms l n st h => by
    have : q = some (l, n, st) := h
    subst this
    simp at hq
    exact hq.2.1
  refine outcomes _ 14 (by decide) rfl (fun i j => no_cells _ _ _ _ _ i j (by decide) rfl) (no_cell_code _ _ _ _ _ rfl) _ _ _ _ ?_ ?_ ?_
  · rw [predictions_zero (checked zeroMargins [] q) rfl rfl rfl rfl (hg _) zeroMargins (by decide) rfl]
  · rw [predictions_zero (checked rowMargins [] q) rfl rfl rfl rfl (hg _) rowMargins (by decide) rfl]
  · rw [predictions_zero (checked oneMargins [] q) rfl rfl rfl rfl (hg _) oneMargins (by decide) rfl]

theorem operands_found (s : State) (g : Nat) (m : MOp) (o e : Nat) (w : Word) (ws : List (BitVec 32)) (hd : m.decls = [(o, 0, e, w, ws)])
    (h2 : o ≠ 2) (hw : dMst w = true)
    (hc : ∀ tol, (runCheck (subTile m o 0) (subTile m o 0).margins (marginsOf (marginKind (mmTile m.fmt)) ws) tol).clean = false ∧
      (runCheck (subTile m o 0) (subTile m o 0).margins (marginsOf (marginKind (mmTile m.fmt)) ws) tol).fixed = none) :
    ∃ f, (operandChecks s g m).2 = [f] := by
  unfold operandChecks operandCheck
  simp [hd, h2, hw, hc]

theorem leader_found (s : State) (l st : Nat) (m : MOp) (e : Nat) (w : Word) (ws : List (BitVec 32))
    (hm : (coreOf s l).mops.find? (fun m => m.kind = 7 && m.id = st) = some m) (hd : m.decls = [(1, 0, e, w, ws)]) (hw : dMst w = true)
    (hc : ∀ tol, (runCheck (subTile m 1 0) (subTile m 1 0).margins (marginsOf (marginKind (mmTile m.fmt)) ws) tol).clean = false ∧
      (runCheck (subTile m 1 0) (subTile m 1 0).margins (marginsOf (marginKind (mmTile m.fmt)) ws) tol).fixed = none) :
    ∃ r, leaderBad s l st = some (e, r) := by
  unfold leaderBad
  simp [hm, hd, hw, hc]

theorem bad_operand (m : MOp) (o : Nat) (hf : m.fmt = 5) (ha : m.aLines = []) (hl : m.bLines = []) (tol : List Val × List Val) :
    (runCheck (subTile m o 0) (subTile m o 0).margins (marginsOf (marginKind (mmTile m.fmt)) [1]) tol).clean = false ∧
    (runCheck (subTile m o 0) (subTile m o 0).margins (marginsOf (marginKind (mmTile m.fmt)) [1]) tol).fixed = none := by
  rw [show marginsOf (marginKind (mmTile m.fmt)) [1] = rowMargins by rw [hf]; decide]
  exact (check_zero _ 7 (by decide) (by unfold subTile lineGrid; rw [hf]; rfl) (fun i j => no_lines m o 0 i j hf ha hl) tol).2.1

/-- An operand's fault found before the result's, and the leader's B found bad by its own check. -/
theorem wit_MarginChecks_found :
    let w := mkDir true 7 true 64 64 0
    let m := checked zeroMargins [(0, 0, 8, w, [1])] none
    let k := { checked zeroMargins [(1, 0, 8, w, [1])] none with id := 4, kind := 7 }
    (∃ f, (operandChecks (checkedIn zeroMargins m.decls none []) 0 m).2 = [f]) ∧
    (let s := checkedIn zeroMargins [] (some (0, 1, 4)) []
     (mopOf s 0 9).map (fun m => (m.kind, m.gang, m.redone)) = some (0, some (0, 1, 4), false) ∧
     (coreOf s 0).mops.find? (fun m => m.kind = 7 && m.id = 4) = some k ∧ ∃ r, leaderBad s 0 4 = some (8, r)) := by
  intro w m k
  have hk : (coreOf (checkedIn zeroMargins [] (some (0, 1, 4)) []) 0).mops.find? (fun m => m.kind = 7 && m.id = 4) = some k := by decide
  exact ⟨operands_found _ 0 m 0 8 w [1] rfl (by decide) (by decide) (bad_operand m 0 rfl rfl rfl), by decide, hk,
    leader_found _ 0 4 k 8 w [1] hk rfl (by decide) (bad_operand k 1 rfl rfl rfl)⟩

/-- `checking`, with entry `e` holding the word. -/
def naming (k e : Nat) (w : Word) : State := modCore (checking k e w tiles) 0 (fun c => setDir c e w)

/-- The checks of MCHK.sp, MLOAD and MOUT: the entry names the tile read or not; its MST is 0; or 1, its margins those read or not. -/
theorem wit_MarginChecks_slice :
    (∀ q ∈ [(6, 7, 8), (2, 63, 8), (3, 7, 14)], ∀ mst ∈ [false, true], ∀ ws ∈ slotOf q.2.1 (q.2.2 == 14),
      let s := stored ws (naming q.1 q.2.1 (mkDir true q.2.2 mst 2 2 0))
      let c := coreOf s 0
      let w := dirEntry c q.2.1
      (mopOf s 0 9).map (fun m => (m.kind, m.entry, m.chk, m.aOff, m.tile)) = some (q.1, q.2.1, true, 0, 7) ∧ anyArmed c = false ∧ c.run = .running ∧
      dValid w = true ∧ dBase w = 0 ∧ dFmt w = q.2.2 ∧ dMst w = mst ∧ c.found = [] ∧ cellBads c 7 = [] ∧ slotBads c q.2.1 = []) ∧
    (∀ q ∈ [(6, 7), (2, 63)], dValid (dirEntry (coreOf (naming q.1 q.2 0) 0) q.2) = false) ∧
    (∀ q ∈ [(6, 7), (2, 63)],
      let c (ws : List (Nat × BitVec 32)) := coreOf (stored ws (naming q.1 q.2 (mkDir true 8 true 2 2 0))) 0
      let t := lineGrid 8 [] 0 2 2
      (mopOf (naming q.1 q.2 (mkDir true 8 true 2 2 0)) 0 9).map (fun m => (m.fmt, m.aLines, m.nrow, m.ncol)) = some (8, [], 2, 2) ∧
      Outcomes (fun ms => runCheck t t.margins ms (scratchTols 8 t.val)) (storedMargins (c []) q.2 (marginKind 8))
        (storedMargins (c ((slotOf q.2 false).getD 1 [])) q.2 (marginKind 8)) (storedMargins (c ((slotOf q.2 false).getD 2 [])) q.2 (marginKind 8))) ∧
    (let c (ws : List (Nat × BitVec 32)) := coreOf (stored ws (checking 3 7 (mkDir true 14 true 2 2 0) tiles)) 0
     ∀ m, m.cells = [] → let t := moutGrid m 14
      Outcomes (fun ms => runCheck t t.margins ms exactTols) (storedMargins (c []) 7 (marginKind 14))
        (storedMargins (c ((slotOf 7 true).getD 1 [])) 7 (marginKind 14)) (storedMargins (c ((slotOf 7 true).getD 2 [])) 7 (marginKind 14))) ∧
    (mopOf (checking 3 7 (mkDir true 14 true 2 2 0) tiles) 0 9).map (fun m => m.cells) = some [] := by
  refine ⟨by decide, by decide, fun q hq => ⟨?_, ?_⟩, fun m hm => ?_, by decide⟩
  · revert q; decide
  · exact outcomes _ 8 (by decide) rfl (fun i j => no_line_val _ _ _ _ i j (by decide)) (no_line_code _ _ _ _) _ _ _ _
      (by revert q; decide) (by revert q; decide) (by revert q; decide)
  · exact outcomes _ 14 (by decide) rfl (no_cells_mout m hm) (no_mout_code m hm) _ _ _ _ (by decide) (by decide) (by decide)

/-- Core 0 leads a gang with core 1 and streams B: operation 9. -/
def streaming : State :=
  modCore (modCore tiles 0 (fun c => { c with mops := [{ multiplyOp tiles 0 5 7 false false true true false true 0 0x80000 1 with
    id := 9, kind := 7, gang := some (0, 0, 9), members := [(0, 0, 0), (1, 1, 0)] }] })) 1 (fun c => { c with run := .running })

theorem wit_MemberShareBegins :
    (let s := streaming
     let c := coreOf s 1
     c.run = .running ∧ inhibited c = false ∧ (c.pass.shares.all (fun x => decide ((x.2.gang.map (·.2.2)) ≠ some 9))) = true ∧
     ∃ m, streamOf s 9 = some (0, m) ∧ m.chk = true ∧
       shareFaults s 1 (shareOp s 1 0 (((m.members.find? (fun x => x.1 = 1)).map (·.2.1)).getD 0) m) = []) :=
  ⟨by decide, by decide, by decide, _, rfl, rfl, by decide⟩

/-- Transfer 7 of core 0, to or from `dst`, with one piece of the first line; `d` is what it has read. -/
def moving (kind : Nat) (put : Bool) (dst ga : Nat) (d : List (Nat × List Byte)) : State :=
  { aimed with xfers := [{ newXfer aimed 0 kind 0 put false (routeReg aimed 0 0) with
      id := 7, dst := dst, pieces := [(0, 0, ga, 64)], data := d }] }

theorem wit_PiecesMove :
    (∀ q ∈ [(0, true, 0, 0x1FFFC0), (1, true, 1, 2 ^ 30), (0, true, 2 ^ 20, 2 ^ 45), (4, false, 2 ^ 20, 2 ^ 45), (3, true, 1, 2 ^ 30)],
      let s := moving q.1 q.2.1 q.2.2.1 q.2.2.2 []
      (xferOf s 7).any (fun x =>
        let p := x.pieces.getD 0 (0, 0, 0, 0)
        !x.cancelled && decide (x.kind ≤ 4 ∧ p.1 < 2 ^ 21 ∧ p.2.2.1 % 2 ^ 30 < 2 ^ 21 ∧ x.dst = q.2.2.1 ∧ x.put = q.2.1)) = true) ∧
    (∀ q ∈ [(true, 0), (false, 1)],
      let s := moving 0 q.1 q.2 0 [(0, List.replicate 64 1#8)]
      (xferOf s 7).any (fun x => (pieceData x 0).isSome && decide (pieceOff x 0 < 2 ^ 21 ∧ x.cancelled = false)) = true ∧
      (coreOf s 0).recovery = false ∧ anyArmed (coreOf s 0) = false) ∧
    (let s := moving 0 false 1 (2 ^ 30) []
     (xferOf s 7).any (fun x => decide (x.put = false ∧ x.kind ≠ 4 ∧ x.dst ≠ 0 ∧ pieceData x 0 = none ∧ x.cancelled = false)) = true ∧
     (coreOf s 0).run = .running) := by decide

/-- A get from core 1, which is of the partition and has room. -/
theorem wit_PiecesMove_get :
    let s := moving 0 false 1 (2 ^ 30) []
    ∃ x, xferOf s 7 = some x ∧ x.dst ≠ 0 ∧ x.put = false ∧ isStack x.dst = false ∧
      ∀ f : Flit, f.home = x.dst → f.tag = x.tag → f.st = 0 → refusal s f 0 = none := by
  refine ⟨_, rfl, by decide, rfl, by decide, fun f h1 h2 h3 => ?_⟩
  unfold refusal
  rw [h1, h2, h3]
  decide

theorem wit_ServiceMoves :
    (let s := moving 4 false (2 ^ 20) (2 ^ 45) [(0, List.replicate 64 1#8)]
     (xferOf s 7).any (fun x => decide (x.cancelled = false) &&
       (pieceData x 0).any (fun d => decide (d.1.length = 64))) = true ∧ anyArmed (coreOf s 1) = false) ∧
    (∀ put ∈ [true, false],
      let s := modPart (moving 5 put (2 ^ 45) (2 ^ 46) []) 0 (fun x => { x with chanPend := [] })
      (xferOf s 7).any (fun x => decide (0 < x.pieces.length ∧ (x.pieces.getD 0 (0, 0, 0, 0)).1 < 2 ^ 21)) = true ∧ anyArmed (coreOf s 0) = false ∧
      partOfCore s 0 = some 0 ∧ (partOf s 0).chanPend = [] ∧
      (xferOf { s with xfers := s.xfers.map (fun x => { x with hcid := 1 }) } 7).any (fun x =>
        decide (x.hcid = (fieldOf (tabGet (zeroAt (w := 64)) (partOf s 0).chans x.chan) 32 32 + 1) % 2 ^ 32)) = true) ∧
    (let s := modPart { moving 5 false (2 ^ 45) (2 ^ 46) [] with hostFails := [(0, 0, 0, 0)] } 0 (fun x => { x with chanPend := [] })
     (xferOf s 7).any (fun x => decide (x.put = false ∧ hostFailed s x 0 = true)) = true) ∧
    (coreOf busy 0).svc = [] ∧
    (∀ q ∈ [(Svc.write 0x1FFFF8 (List.replicate 8 1#8) 5 true, 0xFC0), (.read 0 384 31, 0xFFF)],
      let s := part (fun x => { x with tide := q.2 }) (core0 (fun c => { c with svc := [q.1] }))
      (coreOf s 0).svc = q.1 :: [] ∧ inWindow (partOf s 0).tide = true ∧ contextBusy s 0 = false ∧ svcFree s 0 0x1FFFF8 false = true ∧
      svcFree s 0 0 true = true ∧ anyArmed (coreOf s 0) = false ∧ anyArmed (coreOf s 384) = false) := by decide

/-! ### Witnesses: what lands at a home, and flits on their way -/

/-- A pass of core 0. -/
def pass0 : PassId := ⟨0, 0, 0, 0, 5⟩

/-- Flit 7 from core 0 to `home` with this load, on a path of one link. -/
def flying (home : Nat) (l : Load) (s : State) : State :=
  { s with flits := [{
      id := 7, lead := 7, core := 0, home := home, inst := pass0, ref := some ⟨0, pass0, 3, 0, 0, home, true⟩, lanes := false, tag := 0
      dep := 0, land := 8, lback := 8, path := [⟨2304, true, 4⟩], st := 0, src := some ⟨0, 2, 8, 5, 0, 0, 0⟩, load := l }] }

/-- The same flit in the state `n`. -/
def flyingAs (n home : Nat) (l : Load) (s : State) : State :=
  let s := flying home l s
  { s with flits := s.flits.map (fun f => { f with st := n }) }

/-- A record of `pass0` in the zone of core 1. -/
def zoned (s : State) : State :=
  modCore s 1 (fun c => { c with zone := [⟨pass0, 32767, 1, 5, [], none, false, 0⟩] })

/-- Core 1 in a recovery run. -/
def redoing (s : State) : State := modCore s 1 (fun c => { c with recovery := true })

/-- The write port of the bank of the first line of core 1 is taken in this cycle, by a landing or by a pass of its own. -/
def met1 (serial : Nat) (s : State) : State := modCore s 1 (fun c => { c with ports := [⟨1, 0, 0, 0, serial⟩] })

theorem wit_StagedWritesLand :
    (∀ q ∈ [(2 ^ 20, 2 ^ 45), (1, 0x1FFFFF)],
      let s := flying q.1 (.write [(q.2, 1)] [] none) busy
      let c := coreOf s q.1
      (flitOf s 7).any (fun f => decide (f.lead = 7 ∧ f.st = 0 ∧ f.home = q.1) && !c.recalled.contains f.inst) = true ∧
      (isStack q.1 = false → (flitOf s 7).any (fun f => decide (landedBytes s q.1 f.load = some ((q.2, 1) :: [], [], none) ∧
        refusal s f (linesOf [q.2, q.2]).length = none)) = true ∧ defers s q.1 (coreOf s 0).soft = false ∧
        landingTaken c (bankOf q.2) (cnow s 1) = false ∧ anyArmed c = false)) ∧
    (let s := flying 48 (.write [(0, 1)] [] none) busy
     (flitOf s 7).any (fun f => foreignHome s f && decide (refusal s f (linesOf [0, 0]).length = some 2 ∧ f.ref.isSome)) = true ∧
     anyArmed (coreOf s 48) = false) ∧
    (let s := modCore (flying 1 (.write [(0, 1)] [] none) busy) 1 (fun c => { c with recalled := [pass0] })
     (flitOf s 7).any (fun f => (coreOf s 1).recalled.contains f.inst) = true) ∧
    (let s := flying 1 (.slot 15 0 (List.replicate 64 1#8) []) busy
     isStack 1 = false ∧ (tabGet (zeroAt (w := 64)) (coreOf s 1).recv 15).getLsbD 63 = false ∧ (coreOf s 0).run = .running ∧
     (flitOf s 7).any (fun f => f.src.any (fun x => decide (x.core = 0 ∧ (coreOf s 0).pass.id.serial = x.serial))) = true) := by decide

/-- The port is taken: in a recovery run by a landing or by the core's own access, else by a landing. -/
theorem wit_StagedWritesLand_met :
    (∀ q ∈ [(0, true), (9, true), (0, false)],
      let s := met1 q.1 (flying 1 (.write [(0, 1)] [] none) (if q.2 = true then redoing busy else busy))
      (flitOf s 7).any (fun f => !foreignHome s f && decide (landedBytes s 1 f.load = some ((0, 1) :: [], [], none))) = true ∧
      defers s 1 (coreOf s 0).soft = q.2 ∧ landingTaken (coreOf s 1) (bankOf 0) (cnow s 1) = decide (q.1 = 0) ∧
      ownTaken (coreOf s 1) (bankOf 0) (0 / 64) (cnow s 1) false = decide (q.1 ≠ 0)) := by decide

theorem wit_CommitsAndRecalls :
    (∀ n ∈ [1, 0],
      let s := zoned (flying 1 (.commit pass0 n) busy)
      (flitOf s 7).any (fun f => decide (f.load = .commit pass0 n ∧ f.st ≠ 3 ∧ refusal s f 0 = none)) = true ∧
      (coreOf s 1).recalled.contains pass0 = false ∧
      decide (((coreOf s 1).zone.filter (fun z => z.inst = pass0)).length = n) = decide (n = 1)) ∧
    (let s := flyingAs 3 1 (.commit pass0 1) busy
     (flitOf s 7).any (fun f => decide (f.load = .commit pass0 1 ∧ f.st = 3)) = true) ∧
    (∀ q ∈ [(48, 0, 2), (1, 4, 3)],
      let s := flyingAs q.2.1 q.1 (.commit pass0 1) busy
      (flitOf s 7).any (fun f => decide (f.st ≠ 3 ∧ refusal s f 0 = some q.2.2)) = true) ∧
    (let s := modCore (flying 1 (.commit pass0 1) busy) 1 (fun c => { c with recalled := [pass0] })
     (flitOf s 7).any (fun f => decide (f.st ≠ 3 ∧ refusal s f 0 = none)) = true ∧ (coreOf s 1).recalled.contains pass0 = true) ∧
    (let s := zoned (flying 1 (.recall pass0) busy)
     (flitOf s 7).any (fun f => decide (f.load = .recall pass0 ∧ refusal s f 0 = none)) = true ∧
     ((coreOf s 1).zone.filter (fun z => z.inst = pass0)).length = 1) ∧
    (let s := flying 48 (.recall pass0) busy
     (flitOf s 7).any (fun f => decide (f.load = .recall pass0 ∧ refusal s f 0 ≠ none)) = true) := by decide

/-- Bank-ALU operation 7 of core 0, with this code; `r` is the operation a notice would name. -/
def adding (op : Nat) (inst : Option PassId) (r : Option OpRef) : State :=
  { busy with bops := [{
      id := 7, g := 0, off := 0x1FFFF8, w := 8, op := op, x := 1, y := 2, new := 1, old := 0, bad := false, tag := 0
      src := some ⟨0, 2, 8, 5, 0, 0, 0⟩, inst := inst, merge := none, back := some (1, 0, 8, []), ref := r }] }

theorem wit_HomeOperations :
    (∀ q ∈ [(2 ^ 20, Load.readReq (2 ^ 45) 8 0), (1, .readReq (2 ^ 30 + 0x1FFFF8) 8 0), (1, .atom 0x1FFFF8 4 8 1 0 none),
        (1, .merge 0 4 [(0x1FFFFC, 1)])],
      let s := flying q.1 q.2 busy
      let c := coreOf s q.1
      (flitOf s 7).any (fun f => decide (f.st = 0 ∧ f.home = q.1 ∧ f.load = q.2) && (isStack q.1 ||
        decide (refusal s f 0 = none ∧ refusal s f 1 = none ∧ c.recalled.contains f.inst = false))) = true ∧
      defers s q.1 (coreOf s 0).soft = false ∧ landingTaken c (bankOf 0x1FFFF8) (cnow s q.1 + 2) = false) ∧
    (∀ l ∈ [Load.readReq (48 * 2 ^ 30) 8 0, .atom 0x1FFFF8 4 8 1 0 none, .merge 0 4 [(0x1FFFFC, 1)]],
      let s := flying 48 l busy
      isStack 48 = false ∧ (flitOf s 7).any (fun f => foreignHome s f && decide (refusal s f 0 = some 2 ∧ refusal s f 1 = some 2 ∧
        (coreOf s 48).recalled.contains f.inst = false)) = true) ∧
    defers busy 1 false = false ∧ landingTaken (coreOf busy 1) (bankOf 0) (cnow busy 1 + 2) = false := by decide

theorem wit_HomeOperations_writes :
    (let s := adding 4 none none
     (s.bops.find? (fun b => b.id = 7)).any (fun b => decide (b.w ≤ 8 ∧ b.bad = false ∧ b.inst = none) &&
       !builtIn (coreOf s 0) b && (b.src.any fun x => x.serial = (coreOf s 0).pass.id.serial)) = true ∧ anyArmed (coreOf s 0) = false) ∧
    (let s := adding 10 none (some ⟨0, pass0, 3, 0, 0, 0, true⟩)
     (s.bops.find? (fun b => b.id = 7)).any (fun b => decide (b.op = 10 ∧ b.old.toNat ≠ b.y.toNat % 2 ^ (8 * b.w) ∧ b.ref.isSome)) = true) ∧
    (let s := modCore (adding 4 (some pass0) none) 0 (fun c => { c with recalled := [pass0] })
     (s.bops.find? (fun b => b.id = 7)).any (fun b => b.inst.any (fun i => (coreOf s b.g).recalled.contains i)) = true) := by decide

/-- Flits at their departure, one that has no link to cross among them; pieces that arrive; a path of two links. -/
theorem wit_FlitsTravel :
    (∀ l ∈ [Load.write [(0, 1)] [] none, .slot 0 0 [] [], .merge 0 4 [(0, 1)], .readReq 0 8 0, .atom 0 4 8 1 0 none, .commit pass0 1,
        .recall pass0, .reply 0 0 false, .stream 0 0 0 []],
      let s := flying 1 l busy
      (flitOf s 7).any (fun f => decide (f.path[0]? = some ⟨2304, true, 4⟩)) = true ∧
      (pkgOf s (2304 / 4096)).dead.contains (2304 % 4096) = false ∧ (linkInjectAll s (2304 / 4096) (2304 % 4096) true).2 = none) ∧
    (let s := { flying 1 (.piece 7 0 [] []) (moving 0 false 1 (2 ^ 30) []) with now := 1 }
     (flitOf s 7).any (fun f => decide (f.st ≠ 3)) = true ∧ (xferOf s 7).isSome = true ∧
     (linkInjectAll s (2304 / 4096) (2304 % 4096) true).2 = none) ∧
    (let s := flying 1 (.recall pass0) busy
     let s := { s with flits := s.flits.map (fun f => { f with path := [⟨2304, true, 4⟩, ⟨2305, false, 4⟩] }) }
     (flitOf s 7).any (fun f => decide (f.lanes = false ∧ f.path[0]? = some ⟨2304, true, 4⟩ ∧ 0 + 1 < f.path.length)) = true ∧
     (linkInjectAll s 0 2304 true).2 = none) := by decide

/-- A dead link; a link whose injector drops the flit; links that have lost three flits in this tide, or 63 in a row. -/
theorem wit_FlitsTravel_lost :
    (let s := modPkg (flying 1 (.write [(0, 1)] [] none) busy) 0 (fun p => { p with dead := [2304] })
     (pkgOf s (2304 / 4096)).dead.contains (2304 % 4096) = true ∧ (flitOf s 7).any (fun f => f.ref.isSome) = true) ∧
    (let s := modPkg (flying 1 (.recall pass0) busy) 0 (fun p => { p with linj := [(0, BitVec.ofNat 64 (2304 + 2 ^ 12 + 2 ^ 13 + 2 ^ 63)), (1, 1)] })
     (pkgOf s (2304 / 4096)).dead.contains (2304 % 4096) = false ∧ (linkInjectAll s (2304 / 4096) (2304 % 4096) true).2 = some (1, 0, 0)) ∧
    (∀ q ∈ [(2304, 1, 3, 3), (2304, 0, 1, 63)],
      let s := modPkg { flying 1 (.recall pass0) busy with now := 4096 } 0 (fun p => { p with lost := [q] })
      (flitOf s 7).any (fun f => decide (f.path[f.st / 16]? = some ⟨2304, true, 4⟩)) = true ∧
      (pkgOf s (2304 / 4096)).lost.filter (fun x => x.1 = 2304 % 4096) = [q] ∧
      ((q.2.1 = s.now / 4096 ∧ 3 ≤ q.2.2.1) ∨ 63 ≤ q.2.2.2)) ∧
    (pkgOf busy 0).lost = [] := by decide

/-- A notice of operation 3 of core 0 at core 1. -/
def note (r : Nat) (again : Option Flit) : Notice := ⟨7, ⟨0, pass0, 3, 0, 0, 1, true⟩, r, again⟩

theorem wit_NoticesAndPeers :
    (∀ q ∈ [(2, []), (0, (flying 1 (.commit pass0 1) busy).flits)], let s := { busy with notes := [note q.1 q.2.head?] }
     (s.notes.find? (fun z => z.id = 7)).any (fun y => decide (y.resend.isSome ↔ q.2 ≠ [])) = true) ∧
    (coreOf busy 0).waits.find? (fun w => w.1 = 7) = none ∧ (coreOf busy 0).run = .running ∧
    (busy.agenda.find? (fun d => d.seq = 7 && d.cyc = cnow busy 0 && unitDelivers 0 d.ev)).bind (·.own) = none ∧
    (let s := { busy with agenda := [⟨some 0, 0, 10, 7, some ⟨0, 2, 8, 5, 0, 0, 0⟩, .instr (.resultLanding 0 (.sreg 5 1))⟩] }
     ((s.agenda.find? (fun d => d.seq = 7 && d.cyc = cnow s 0 && unitDelivers 0 d.ev)).bind (·.own)).isSome = true ∧
     (coreOf s 0).waits.find? (fun w => w.1 = 7) = none ∧ (coreOf s 0).run = .running) ∧
    (∀ d ∈ [31, 64],
      let s := core0 (fun c => { c with waits := [(7, ⟨0, 2, 8, 5, 0, 0, 0⟩, 9, 3)], draining := [(8, 6, d, true, 1)],
                                        notices := [note 1 none, note 2 none], writes := [(2, 1, 0)] })
      ((coreOf s 0).waits.find? (fun w => w.1 = 7)).isSome = true ∧ (coreOf s 0).run = .running ∧
      ((coreOf s 0).draining.find? (fun d => d.1 = 8)).any (fun e => decide (e.2.2.1 = d)) = true ∧ anyArmed (coreOf s 0) = false ∧
      (coreOf s 0).peers = [] ∧ (drainOps (coreOf s 0) 0 8 6).any (fun w => (peerOfHome (coreOf s 0).peers w.2.1).isSome ||
        routeDead s 0 w.2.2 || decide (routePeers s 0 w.2.2 ≠ [])) = false) ∧
    (let s := core0 (fun c => { c with draining := [(8, 6, 31, true, 1)], writes := [(2, 1, 0)], peers := [.core 1] })
     (drainOps (coreOf s 0) 0 8 6).any (fun w => (peerOfHome (coreOf s 0).peers w.2.1).isSome) = true) ∧
    (let s := core0 (fun c => { c with draining := [(8, 6, 31, false, 1)] })
     (coreOf s 0).notices.filter (fun y => (decide (y.ref.opno < 8) && decide (homeScope 0 y.ref.home ≤ 6)) && y.ref.wr) = [] ∧
     (coreOf s 0).peers = []) ∧
    partOfCore busy 0 = some 0 ∧ 3 ≤ (partOf busy 0).state := by decide

/-- Package 1 and package 0 have parts of one pod job. -/
theorem wit_NoticesAndPeers_pod :
    let s := modPart (part (fun x => { x with pod := true, job := 4 }) busy) 8 (fun x => { x with state := 3, pod := true, job := 4 })
    3 ≤ (partOf s 8).state ∧ (partOf s 8).state ≤ 4 ∧ 8 / 8 ≠ 0 ∧ (partOf s 8).pod = true ∧
      (∃ e ∈ s.parts, e.1 / 8 = 0 ∧ e.2.pod = true ∧ e.2.job = (partOf s 8).job ∧ 3 ≤ e.2.state) ∧
      partOfCore s 0 = some 0 ∧ (partOf s 0).pod = true ∧ (partOf s 0).job = (partOf s 8).job := by decide

/-! ### Witnesses: rendezvous, launches, freezes -/

/-- What holds of a partition that has not been created and of every one there is holds of all. -/
theorem all_parts (P : Part → Prop) (s : State) (h0 : P Part.reset) (h : ∀ e ∈ s.parts, P e.2) (q : Nat) : P (partOf s q) := by
  unfold partOf
  generalize s.parts = t at h ⊢
  induction t with
  | nil => exact h0
  | cons e t ih =>
    unfold tabGet
    split
    · exact h e (List.mem_cons_self ..)
    · exact ih (fun x hx => h x (List.mem_cons_of_mem _ hx))

/-- Both members of group 0 have arrived at rendezvous 7, of this kind; `mark` is its watermark. -/
def met (kind : Nat) (mark : Word) : State :=
  { busy with rdvs := [⟨7, 0, kind, 0, 2, [0, 1], [(0, 0, 0), (1, 0, 0)], 0, mark, none, 0, true⟩] }

theorem wit_RendezvousRelease :
    (∀ k ∈ [0, 1, 2, 3],
      let s := met k 0
      (s.rdvs.find? (fun x => x.id = 7)).any (fun r => !rdvFailed s r &&
        decide (rdvHold s r (timeOn s (some r.part)) ≤ timeOn s (some r.part) ∧ (r.arrivals.map (fun x => x.1)).Nodup ∧
          (∀ h ∈ r.members, (coreOf s h).zone = []) ∧ ∀ x ∈ r.arrivals, (launchOf s x.1).all (fun l => !l.canc) = true)) = true) ∧
    (let s := modPart (met 0 0) 0 (fun x => { x with failed := [.core 1] })
     (s.rdvs.find? (fun x => x.id = 7)).any (fun r => rdvFailed s r) = true) ∧
    (let s := modCore (met 0 0) 1 (fun c => { c with soft := true, deferEnd := 9 })
     (s.rdvs.find? (fun x => x.id = 7)).any (fun r => !rdvFailed s r && decide (timeOn s (some r.part) < rdvHold s r (timeOn s (some r.part)))) = true) ∧
    (let s := met 2 0
     (s.rdvs.find? (fun x => x.id = 7)).any (fun r => decide (r.kind = 2) && reachedMark s r && rdvFull r && !rdvFailed s r) = true) ∧
    (let s := met 2 1
     (s.rdvs.find? (fun x => x.id = 7)).any (fun r => !reachedMark s r && decide (3 ≤ (partOf s r.part).state)) = true ∧
     (partOf s 0).live = true ∧ (partOf s 0).pendB = none) := by decide

theorem wit_RendezvousRelease_quiet : ∀ q, (partOf (met 0 0) q).pubs = [] ∧ stopPends (partOf (met 0 0) q) = false :=
  all_parts (fun x => x.pubs = [] ∧ stopPends x = false) _ (by decide) (by decide)

theorem wit_CoreTimetable :
    (coreOf (core0 (fun c => { c with run := .horizon })) 0).run = .horizon ∧ (coreOf busy 0).run ≠ .horizon ∧
    passCount (coreOf busy 0).pass (cnow busy 0) ≠ (coreOf busy 0).pass.c ∧
    (let s := { inPass (fun p => { p with c := 0 }) with agenda := [] }
     let c := coreOf s 0
     c.run = .running ∧ c.pass.id.serial ≠ 0 ∧ c.pass.next ≠ some .haltUnit ∧ passCount c.pass (cnow s 0) = c.pass.c ∧
     (clkOf s 0, cnow s 0, Ev.issue 0) ∉ dues s) ∧
    (let s := postAt (core0 (fun c => { c with pc := 64 })) 0 0 20 none (.issue 0)
     (clkOf s 0, cnow s 0, Ev.issue 0) ∈ dues s ∧ mayMoor (coreOf s 0) = true) ∧
    (∀ q ∈ [((2 : Nat), (0 : Nat), true), (3, 0, true), (3, 0xFFFF, false)], cancKnown (partOf busy 0) q.1 q.2.1 = q.2.2) ∧
    3 ≤ (partOf busy 0).state ∧ (∀ l ∈ (partOf busy 0).launches, l.cores ≠ [] ∧ cancNames (partOf busy 0) 3 0 l.entry = true) := by decide

theorem wit_CoreTimetable_idle : ∀ i a, (coreOf busy 0).run ≠ .held i a := by
  rw [show (coreOf busy 0).run = .running by decide]
  exact fun _ _ => nofun

/-- Every core of partition 0 waits at the launch point, with these staged entries; entry 0 holds the image, ready. -/
def waiting (staged : List Nat) : State :=
  { part (fun x => { x with launches := [], staged := staged, waiting := staged, queue := [(0, qSet (qSet (qSet 0 0 32 1) 59 3 1) 64 8 1)] })
      (core0 (fun c => { c with entry := none })) with
    rdvs := [⟨7, 0, 4, 64, 2, [0], [(0, 0, 0)], 0, 0, none, 0, true⟩] }

/-- The same, staging over: the image of entry 0 has one word of code, which a patch has invalidated on core 0, and data of
core 1. -/
def refilling : State :=
  modPart { waiting [0] with images := [⟨1, 0, { image with code := [(0, 0x80002106)], data := [(1, 64, [5])] }⟩] } 0
    (fun x => { x with refill := [(1, 0, [0])] })

theorem wit_Launches :
    launchPoint busy 0 = none ∧
    (mateMissing busy (0 :: startMates busy 0) || (0 :: startMates busy 0).any (surveyed busy)) = false ∧
    (let s := modPkg busy 0 (fun p => { p with survey := [(0, 9)] })
     (mateMissing s (0 :: startMates s 0) || (0 :: startMates s 0).any (surveyed s)) = true) ∧
    (∀ q ∈ [(waiting [], [0]), (modPart (waiting []) 0 (fun x => { x with queue := [] }), [])],
      (launchPoint q.1 0).any (fun r => rdvFull r && !rdvFailed q.1 r) = true ∧ (partOf q.1 0).staged = [] ∧ stagedSet q.1 0 = q.2) ∧
    (let s := waiting [0]
     let x := partOf s 0
     (launchPoint s 0).any (fun r => rdvFull r && !rdvFailed s r && decide (rdvHold s r x.tide ≤ x.tide ∧
       (r.arrivals.all (fun a => (coreOf s a.1).entry.isNone)) = true ∧ ∀ m ∈ r.members, ∃ y ∈ entryBerths s 0 0, y.1 = m)) = true ∧
     entryBerths s 0 0 = [(0, [0], 0)] ∧ (∀ y ∈ x.staged, ∀ b ∈ entryBerths s 0 y, (coreOf s b.1).svc = []) ∧
     x.staged = [0] ∧ x.endAsked = false ∧ stopPends x = false ∧ x.canc = [] ∧ qState (queueEntry x 0) = 1 ∧
     qPredv (queueEntry x 0) = 0 ∧ (boundImage s 0 (qHandle (queueEntry x 0))).isSome = true ∧
     ((entryBerths s 0 0).map (fun b => b.1)).Nodup ∧ (coreOf s 0).entry = none) ∧
    (let s := modPart (waiting []) 0 (fun x => { x with endAsked := true, queue := [] })
     running (partOf s 0) = [] ∧ (partOf s 0).endAsked = true) ∧
    (let s := modPart (waiting []) 0 (fun x => { x with launches := [{ launch with cores := [], stopPending := true }] })
     running (partOf s 0) = [] ∧ (partOf s 0).endAsked = false ∧ stopPends (partOf s 0) = true) := by decide

theorem wit_Launches_staging :
    (let s := modCore (waiting [0]) 0 (fun c => { c with svc := [.write 0 [] 0 true] })
     (partOf s 0).staged ≠ [] ∧ ((partOf s 0).staged.any (fun y => (entryStaged s 0 y).any (fun b => (coreOf s b.1).svc.any (fun q => match q with
       | .write _ _ _ st => st
       | _ => false)))) = true) ∧
    (let s := refilling
     let x := partOf s 0
     (launchPoint s 0).any (fun r => rdvFull r && !rdvFailed s r) = true ∧ x.staged ≠ [] ∧
     (∀ y ∈ x.staged, ∀ b ∈ entryStaged s 0 y, (coreOf s b.1).svc = []) ∧ (entryStaged s 0 0).map (·.1) = [0, 1] ∧
     entryBerths s 0 0 = [(0, [0], 0)] ∧ qHandle (queueEntry x 0) = 1 ∧ (entryNeed x 0).testBit (layerOf 0) = true ∧
     (imageOf s 0 1).any (fun i => i.img.code.any (fun w => w.1 / 4 = 0)) = true) ∧
    (let s := modPart { waiting [] with images := [⟨1, 0, { image with maps := [(0, 1, 1)] }⟩] } 0 (fun x => { x with waiting := [0] })
     let x := partOf s 0
     x.waiting = [0] ∧ x.staged = [] ∧ x.endAsked = false ∧ stopPends x = false ∧ x.canc = [] ∧ qState (queueEntry x 0) = 1 ∧
     qPredv (queueEntry x 0) = 0 ∧ boundImage s 0 (qHandle (queueEntry x 0)) = none ∧
     (launchPoint s 0).any (fun r => !rdvFailed s r && decide (rdvHold s r x.tide ≤ x.tide)) = true) := by decide

theorem wit_Launches_quiet : ∀ q, (partOf (waiting [0]) q).pubs = [] := all_parts (fun x => x.pubs = []) _ (by decide) (by decide)

/-- Partition 0 is frozen; this die layer is hot. -/
def frozen (l : Nat) (f : Part → Part) : State :=
  modPkg (part (fun x => f { x with state := 4, live := false, layers := 129 }) busy) 0 (fun p => { p with hot := [l] })

theorem wit_Freezes :
    partAt busy 0 1 = none ∧ partAt busy 0 0 = some 0 ∧ 3 ≤ (partOf busy 0).state ∧ (partOf busy 0).state ≤ 4 ∧
    (partOf busy 0).live = true ∧ (partOf busy 0).pendB = none ∧
    (let s := part (fun x => { x with pendB := some x.tide }) busy
     (partOf s 0).live = true ∧ (partOf s 0).pendB = some (partOf s 0).tide ∧ (partOf s 0).reasons = 0) ∧
    (let s := frozen 0 (fun x => { x with reasons := 1 })
     partAt s 0 0 = some 0 ∧ (∀ l ∈ (pkgOf s 0).hot, l ≠ 0 → (partOf s 0).layers.testBit l = false) ∧
     (partOf s 0).reasons &&& ~~~1#5 = 0 ∧ (partOf s 0).live = false ∧ (partOf s 0).reasons ≠ 0) ∧
    (let s := frozen 7 (fun x => { x with resumeAt := some 0 })
     partAt s 0 0 = some 0 ∧ (∃ l ∈ (pkgOf s 0).hot, l ≠ 0 ∧ (partOf s 0).layers.testBit l = true) ∧
     (partOf s 0).state = 4 ∧ (partOf s 0).live = false ∧ (partOf s 0).reasons = 0 ∧ (partOf s 0).resumeAt = some s.now ∧
     (tabGet (zeroAt (w := 64)) (partOf s 0).context 1).getLsbD 0 = false) ∧
    (partOf busy 0).resumeAt ≠ some busy.now := by decide

/-- Partition 8 is frozen for a reason of its own, and partition 0 has a part of its pod job. -/
theorem wit_Freezes_pod :
    (let s := modPart (part (fun x => { x with pod := true, job := 4 }) busy) 8 (fun x => { x with state := 4, pod := true, job := 4, reasons := 1 })
     3 ≤ (partOf s 0).state ∧ (partOf s 0).state ≤ 4 ∧ ((podPeers s 0).any (fun q => ownReason (partOf s q))) = true) ∧
    ((podPeers busy 0).any (fun q => ownReason (partOf busy q))) = false := by decide

/-! ### Witnesses: dredger, repair, injectors, and the outside -/

/-- A reservation of the last bank of core 0 for a write, and of bank 0 for a read, in this cycle. -/
def reserved : State := core0 (fun c => { c with ports := [⟨1, 15, 3, 0, 2⟩, ⟨0, 0, 9, 0, 2⟩] })

theorem wit_DredgerRepairInjectors :
    fieldOf (sysGet (coreOf (sysHolds 0x428 0 busy) 0) 0x428) 0 1 = 0 ∧
    (fieldOf (sysGet (coreOf busy 0) 0x428) 0 1 = 1 ∧ contextBusy busy 0 = false ∧ busy.memBad = [] ∧ busy.tagBad = []) ∧
    (isControl 384 = true ∧ contextBusy busy 384 = false ∧ isControl 0 = false) ∧
    (let s := { busy with memBad := [(sliceAddr 0 0 / 8, 3)], tagBad := [(sliceAddr 0 64 / 64, 1)] }
     (∀ e ∈ s.memBad, e.2 ≠ 1000) ∧ (∀ e ∈ s.tagBad, e.2 ≠ 1000) ∧ svcFree s 0 0 true = true ∧
     (∃ i, i < 8 ∧ badAt s (sliceAddr 0 0 + 8 * i) ≠ 0) ∧ tagBadAt s (sliceAddr 0 64) ≠ 0) ∧
    svcFree busy 0 0x1FFFC0 false = true ∧ svcFree reserved 0 0x1FFFC0 false = false ∧
    ([((0 : Word), (0 : Word)), (1, 0), (0, 1), (1, 1)].all (fun q => decide (
      let s := sysHolds 0x462 (1#64 <<< 62) (sysHolds 0x4BE (q.1 ||| 256) (sysHolds 0x4BF (q.2 ||| 512) busy))
      isControl 0 = false ∧ (0x1FFFFF : Word).toNat < 2 ^ 21 ∧ fieldOf (sysGet (coreOf s 0) 0x462) 62 1 = 1 ∧
      repaired (coreOf s 0) 0x1FFFFF = false ∧ anyArmed (coreOf s 0) = false ∧ 0x4A0 + 2 * bankOf 0x1FFFFF = 0x4BE ∧
      (fieldOf (sysGet (coreOf s 0) 0x4BE) 0 1 = 1 ↔ q.1 = 1) ∧ (fieldOf (sysGet (coreOf s 0) 0x4BF) 0 1 = 1 ↔ q.2 = 1)))) = true ∧
    fieldOf (sysGet (coreOf busy 0) 0x430) 0 1 = 0 ∧ fieldOf (sysGet (coreOf (sysHolds 0x430 1 busy) 0) 0x430) 0 1 = 1 := by decide

/-- Partition 0 with queue entry 63 in state `q` and the word `w` in its mailbox. -/
def queued (st q : Nat) (w : Word) : State :=
  part (fun x => { x with state := st, queue := [(63, qSet (qSet 0 0 32 1) 59 3 q)], mailbox := [(0, w)] }) busy

theorem wit_OutsideWrites :
    (∀ i ∈ [0, 0x43F, 0x448], 0 % 512 < 384 ∧ i ∉ [0x428, 0x430, 0x451, 0x462, 0x468] ∧ (i < 0x440 ∨ 0x448 ≤ i)) ∧
    392 ≤ 511 % 512 ∧ (partOf State.reset 0).state = 0 ∧ (partOf busy 0).state ≠ 0 ∧ (partOf busy 0).state = 3 ∧
    (let s := queued 4 1 (1#64 <<< 63)
     (partOf s 0).state ≠ 0 ∧ (partOf s 0).state ≠ 3 ∧ (tabGet (zeroAt (w := 64)) (partOf s 0).mailbox 0).getLsbD 63 = true) ∧
    (let s := queued 2 1 0
     (tabGet (zeroAt (w := 64)) (partOf s 0).mailbox 0).getLsbD 63 = false ∧ 2 ≤ (partOf s 0).state) ∧
    (∀ q ∈ [0, 1, 2, 3, 4, 5], qState (queueEntry (partOf (queued 3 q 0) 0) 63) = q) ∧
    fieldOf (0x5FFFFFFFFFFFFFF : Word) 0 32 ≠ 0 ∧ fieldOf (0xFFFFFFFF00000000 : Word) 0 32 = 0 := by decide

theorem wit_BootMapAndTable :
    (let s := State.reset
     (pkgOf s 0).alive = true ∧ (partOf s 7).state = 0 ∧ (255 : BitVec 8) ≠ 0 ∧ layersFree s (7 / 8) 255 = true ∧
     (pkgOf s (8 / 8)).alive = false ∧ (pkgOf s 0).version ≠ 0xFFFFFFFF#32 ∧ s.now % 4096 = 0) ∧
    ({ State.reset with now := 4095 }).now % 4096 ≠ 0 ∧
    (let s := modPkg State.reset 0 (fun x => { x with version := 0xFFFFFFFF#32 })
     (pkgOf s 0).version = 0xFFFFFFFF#32) ∧
    ((surveyBytes State.reset 0 false [(0x40, 1#8), (0xBF7F, 2#8)]).map (fun b => b.1)).Nodup ∧
    ((surveyBytes (modPkg State.reset 0 (fun x => { x with dead := [5] })) 0 true [(0x40, 1#8)]).map (fun b => b.1)).Nodup ∧ (partOf busy 0).state = 3 ∧ (partOf busy 0).state ≠ 0 ∧
    (partOf busy 8).state = 0 ∧ layersFree busy 0 1 = false ∧ partAt busy 0 0 = some 0 ∧ partAt busy 0 7 = none ∧
    (let bs := [(0x197F, 1#8), (0xB200, 255#8)].filter (fun b => latencyByte b.1)
     changedBytes busy 0 bs ≠ []) ∧
    changedBytes busy 0 ([(0x197F, 1#8)].filter (fun b => latencyByte b.1)) = [] ∧
    partOfCore busy 0 = some 0 ∧ (partOf busy 0).live = true ∧ (partOf busy 0).pendB = none ∧
    fieldOf (sysGet (coreOf (sysHolds 0x451 1 busy) 0) 0x451) 0 1 = 1 ∧ fieldOf (sysGet (coreOf busy 0) 0x451) 0 1 = 0 ∧
    (∃ q, partAt busy 0 0 = some q ∧ (partOf busy q).state > 2) := by
  repeat refine ⟨by decide, ?_⟩
  exact ⟨0, by decide, by decide⟩

/-- Die layer 7 belongs to no partition, so its survey may run; a partition that owns layer 0 is frozen. -/
theorem wit_BootMapAndTable_owners :
    (∀ q, partAt busy (7 / 8) (7 % 8) = some q → (partOf busy q).state ≤ 2) ∧
    (∃ q, partAt (part (fun x => { x with state := 4 }) busy) (0 / 8) (0 % 8) = some q ∧
      (partOf (part (fun x => { x with state := 4 }) busy) q).state = 4) ∧
    ¬ (∃ q, partAt busy (0 / 8) (0 % 8) = some q ∧ (partOf busy q).state = 4) := by
  refine ⟨fun q h => ?_, ⟨0, by decide, by decide⟩, fun ⟨q, h, hs⟩ => ?_⟩
  · rw [show partAt busy (7 / 8) (7 % 8) = none by decide] at h
    nomatch h
  · rw [show partAt busy (0 / 8) (0 % 8) = some 0 by decide] at h
    obtain rfl := Option.some.inj h
    revert hs
    decide

/-- An image with a specialisation record of a link, and one as placed, with a relocation. -/
def linkImage : Image :=
  { image with specs := [⟨16, 1, 0, 0, 0⟩], moors := [(0, 0)], code :=
      [(0, 0), (4, 0), (8, 0), (12, 0), (16, 0x09400000), (20, 0x60000000), (24, 0xE0000000)] }
def placedImage : Image :=
  { image with relocs := [⟨16, 1, 0, -3⟩], symbols := [.value 60], code := [(16, 0x80002106)], codeBase := 2 ^ 45 }

/-- Partition 0 in state `st` with these mailbox arguments, image 1 loaded and one placed. -/
def asked (st : Nat) (args : List Word) : State :=
  { part (fun x => { x with state := st, launches := [], mailbox := (List.range args.length).map (fun i => (i + 1, args.getD i 0)) }) busy
    with images := [⟨1, 0, linkImage⟩], placed := [(0, placedImage)] }

theorem wit_MailboxCommands :
    (∀ st ∈ [0, 1, 2, 3, 4, 5, 6, 7, 8], (partOf (asked st []) 0).state = st ∧ startPending (asked st []) 0 = false) ∧
    (let s := { asked 2 [] with agenda := [⟨none, 4096, 0, 0, none, .instr (.jobStart 0)⟩] }
     startPending s 0 = true) ∧
    2 ^ 48 < (mbArg (asked 2 [1#64 <<< 48, 1]) 0 0).toNat + (mbArg (asked 2 [1#64 <<< 48, 1]) 0 1).toNat ∧
    (∀ y ∈ (asked 2 [64]).placed, y.1 = 0 → y.2.addr ≠ (mbArg (asked 2 [64]) 0 0).toNat) ∧
    imageOf (asked 2 [9]) 0 (mbArg (asked 2 [9]) 0 0).toNat = none ∧
    (let s := modPart (asked 7 [1]) 0 (fun x => { x with queue := [(0, qSet 0 0 32 1)] })
     (imageOf s 0 (mbArg s 0 0).toNat).isSome = true ∧ handleQueued (partOf s 0) (mbArg s 0 0).toNat = true) ∧
    8 ≤ (mbArg (asked 2 [0, 0, 0, 0, 8]) 0 4).toNat ∧ (mbArg (asked 2 [0, 0, 0, 0, 7]) 0 4).toNat < 8 ∧
    (let s := asked 7 [0, 0]
     (s.placed.find? (fun y => y.1 = 0 && y.2.addr = (mbArg s 0 0).toNat && y.2.len = (mbArg s 0 1).toNat)).any (fun y =>
       inMainMemory y.2 && mapsInForce s 0 y.2 && y.2.intact && y.2.specs.all (specOk y.2) && (relocate y.2 0).isSome) = true) ∧
    (let s := asked 2 [0, 0]
     let one (f : Image → Image) : Image := f placedImage
     inMainMemory (one (fun i => { i with codeBase := 0 })) = false ∧
     (∀ m ∈ (one (fun i => { i with maps := [(1, 0, 0)] })).maps, m.1 ≠ 0) ∧
     (∃ m ∈ (one (fun i => { i with maps := [(0, 0, 0), (1, 0, 7)] })).maps, m.2.2 ≠ (pkgOf s m.1).version.toNat) ∧
     relocate (one (fun i => { i with symbols := [] })) 0 = none ∧
     specOk placedImage ⟨16, 4, 0, 0, 0⟩ = false) ∧
    (let s := asked 7 [1]
     (imageOf s 0 (mbArg s 0 0).toNat).any (fun i => i.img.maps.all (fun m => m.1 = 0 / 8) &&
       (pkgOf s 0).history.all (fun e => decide (touches i.img 0 e.2.1 e.2.2 = false))) = true ∧
     handleQueued (partOf s 0) (mbArg s 0 0).toNat = false) ∧
    (let s := asked 2 [1, 0, 0xFFFF]
     (imageOf s 0 (mbArg s 0 0).toNat).any (fun i => i.img.specs[(mbArg s 0 1).toNat]?.any (fun r => specRange r (mbArg s 0 2) &&
       !runsOn s 0 (mbArg s 0 0).toNat r)) = true ∧ (coreOf s 1).entry = none ∧
     (∀ r ∈ linkImage.specs, runsOn (modPart s 0 (fun x => { x with launches := [launch] })) 0 1 r = true) ∧
     specRange ⟨16, 3, 0, 0, 0⟩ 1 = false) ∧
    (let s := modPkg { asked 7 [1] with images := [⟨1, 0, { linkImage with useLayers := [(0, 1)] }⟩] } 0 (fun x => { x with history := [(1, 1, false)] })
     (imageOf s 0 1).any (fun i => i.img.maps.any (fun m => (pkgOf s m.1).history.any (fun e =>
       decide (m.2.2 < e.1) && touches i.img m.1 e.2.1 e.2.2))) = true) := by decide

/-! ### Witnesses: areas with a digest, steps, faults, the queue -/

/-- Cells that hold bytes from an address on. -/
def cells : Nat → List Byte → List Host.Cell
  | _, [] => []
  | a, b :: bs => (a, b) :: cells (a + 1) bs

theorem cells_below (r : List Host.Cell) (k : Nat) : ∀ (bs : List Byte) (a : Nat), k < a → tabGet zeroAt (cells a bs ++ r) k = tabGet zeroAt r k
  | [], _, _ => rfl
  | b :: bs, a, h => by
    show (if a = k then b else tabGet zeroAt (cells (a + 1) bs ++ r) k) = _
    rw [if_neg (by omega)]
    exact cells_below r k bs (a + 1) (by omega)

theorem cells_bytes (s : State) (r : List Host.Cell) : ∀ (bs : List Byte) (a : Nat) (l : List Host.Cell),
    (∀ k, a ≤ k → tabGet zeroAt l k = tabGet zeroAt (cells a bs ++ r) k) → memBytes { s with mem := l } a bs.length = bs
  | [], _, _, _ => rfl
  | b :: bs, a, l, h => by
    show tabGet zeroAt l a :: memBytes { s with mem := l } (a + 1) bs.length = b :: bs
    rw [h a (Nat.le_refl a), cells_bytes s r bs (a + 1) l (fun k hk => by
      rw [h k (by omega)]
      show (if a = k then b else _) = _
      rw [if_neg (by omega)]; rfl)]
    show (if a = a then b else _) :: bs = _
    rw [if_pos rfl]

theorem same_bytes (s t : State) : ∀ (n a : Nat), (∀ k, a ≤ k → k < a + n → memByte s k = memByte t k) → memBytes s a n = memBytes t a n
  | 0, _, _ => rfl
  | n + 1, a, h => by
    show memByte s a :: memBytes s (a + 1) n = memByte t a :: memBytes t (a + 1) n
    rw [h a (by omega) (by omega), same_bytes s t n (a + 1) (fun k h1 h2 => h k (by omega) (by omega))]

theorem bytes_take (s : State) : ∀ (k n a : Nat), k ≤ n → (memBytes s a n).take k = memBytes s a k
  | 0, _, _, _ => rfl
  | k + 1, n + 1, a, h => by
    show memByte s a :: (memBytes s (a + 1) n).take k = _
    rw [bytes_take s k n (a + 1) (by omega)]; rfl

theorem bytes_length (s : State) : ∀ (n a : Nat), (memBytes s a n).length = n
  | 0, _ => rfl
  | n + 1, a => congrArg (· + 1) (bytes_length s n (a + 1))

theorem leNat_leBytes : ∀ n x, leNat (leBytes n x) = x % 256 ^ n
  | 0, x => (Nat.mod_one x).symm
  | n + 1, x => by
    show (BitVec.ofNat 8 x).toNat + 256 * leNat (leBytes n (x / 256)) = _
    rw [leNat_leBytes n, BitVec.toNat_ofNat, show 256 ^ (n + 1) = 256 * 256 ^ n from Nat.pow_succ', Nat.mod_mul]

theorem leBytes_length : ∀ n x, (leBytes n x).length = n
  | 0, _ => rfl
  | n + 1, x => congrArg (· + 1) (leBytes_length n (x / 256))

/-- A memory with these cells, all of which lie below `a`, and a digest at `a`: what stands at `a` is the digest, what stands
below is as without it. -/
def sealed (a : Nat) (d : BitVec 256) (l : List Host.Cell) (s : State) : State := { s with mem := cells a (leBytes 32 d.toNat) ++ l }

theorem sealed_digest (a : Nat) (d : BitVec 256) (l : List Host.Cell) (s : State) : leNat (memBytes (sealed a d l s) a 32) = d.toNat := by
  have := cells_bytes s l (leBytes 32 d.toNat) a (cells a (leBytes 32 d.toNat) ++ l) (fun _ _ => rfl)
  rw [leBytes_length] at this
  unfold sealed
  rw [this, leNat_leBytes]
  exact Nat.mod_eq_of_lt d.isLt

theorem sealed_below (a b n : Nat) (d : BitVec 256) (l : List Host.Cell) (s : State) (h : b + n ≤ a) :
    memBytes (sealed a d l s) b n = memBytes { s with mem := l } b n :=
  same_bytes _ _ n b (fun k _ _ => cells_below l k _ a (by omega))

/-- A checkpoint image at offset 0 of package 0's main memory with no sections, as RESUMECK asks for it. -/
def checkpoint : State :=
  let s := asked 2 [0, 0, 0]
  let l : List Host.Cell := [(mainAddr 0 0, 0x50), (mainAddr 0 1, 0x43), (mainAddr 0 2, 0x56), (mainAddr 0 3, 0x4B), (mainAddr 0 9, 0x10)]
  sealed (mainAddr 0 0xFE0) (Config.sm3 (memBytes { s with mem := l } (mainAddr 0 0) 0xFE0 ++ List.replicate 32 0)) l s

theorem wit_MailboxCommands_resume :
    let s := checkpoint
    let bs := memBytes s (mainAddr 0 0) 4096
    (partOf s 0).state = 2 ∧ startPending s 0 = false ∧ (mbArg s 0 0).toNat = 0 ∧ (mbArg s 0 2).toNat ≤ 64 ∧
      (mbArg s 0 1).toNat + 8 * (mbArg s 0 2).toNat ≤ 2 ^ 39 ∧ mainNat s 0 0 4 = 0x4B564350 ∧ mainNat s 0 8 8 = 4096 ∧ mainNat s 0 4 4 = 0 ∧
      (Config.sm3 (bs.take 0xFE0 ++ List.replicate 32 0 ++ bs.drop 4096)).toNat = mainNat s 0 0xFE0 32 ∧
      ∀ h, readSections s 0 0 h (mainNat s 0 4 4) 4096 = ([], 4096) := by
  have h0 : mainNat checkpoint 0 4 4 = 0 := by
    show leNat (memBytes (sealed _ _ _ _) (mainAddr 0 4) 4) = 0
    rw [sealed_below _ _ _ _ _ _ (by decide)]; decide
  refine ⟨by rfl, by decide, by rfl, by decide, by decide, ?_, ?_, h0, ?_, fun h => ?_⟩
  · show leNat (memBytes (sealed _ _ _ _) (mainAddr 0 0) 4) = _
    rw [sealed_below _ _ _ _ _ _ (by decide)]; decide
  · show leNat (memBytes (sealed _ _ _ _) (mainAddr 0 8) 8) = _
    rw [sealed_below _ _ _ _ _ _ (by decide)]; decide
  · rw [bytes_take _ _ _ _ (by decide), List.drop_eq_nil_of_le (Nat.le_of_eq (by rw [bytes_length])), List.append_nil]
    unfold checkpoint mainNat
    rw [sealed_digest, sealed_below _ _ _ _ _ _ (by decide)]
  · rw [h0]; rfl

/-- Partition 0 with its context registers: base of the spill region, and CTXSTAT. -/
def shelved (st layers : Nat) (base w : Word) : State :=
  part (fun x => { x with state := st, layers := layers, launches := [], live := false, context := [(1, w), (2, base)] }) busy

/-- A saved context with one core. -/
def savedCore : Saved :=
  { b := 0, bAt := 0, tag := 0, cores := [(0, Core.reset)], memBad := [], tagBad := [], agenda := [], xfers := [], flits := [], bops := [], notes := [] }

/-- Partition 1 has the die layers of `m`. -/
def besides (m : Nat) (s : State) : State := modPart s 1 (fun x => { x with state := 3, layers := m })

theorem wit_ContextCommands :
    (tabGet (zeroAt (w := 64)) (partOf (shelved 4 1 0 1) 0).context 1).getLsbD 0 = true ∧
    (∀ st ∈ [0, 3, 4, 5, 6, 7, 8], let s := shelved st 1 0 0
      (tabGet (zeroAt (w := 64)) (partOf s 0).context 1).getLsbD 0 = false ∧ (partOf s 0).state = st ∧ heldPastPeer s 0 = false) ∧
    (partOf busy 0).live = true ∧ (partOf busy 0).pendB = none ∧
    spillFits (partOf (shelved 4 1 0 0) 0) 1 = true ∧ spillFits (partOf (shelved 4 1 0x7FFFFF0000 0) 0) 1 = false ∧
    (let s := { shelved 4 1 0 0 with rdvs := [⟨7, 0, 0, 0, 2, [0, 1], [(0, 0, 0)], 0, 0, none, 0, false⟩] }
     heldPastPeer (modPart s 0 (fun x => { x with failed := [.core 1] })) 0 = true ∧
     peerDown (modPart s 0 (fun x => { x with failed := [.core 1] })) 0 = true) ∧
    peerDown (shelved 4 1 0 0) 0 = false ∧
    (let s := shelved 5 1 0 0
     savedLayers s 0 = 1 ∧ headerFails s 0 0 = true ∧ layersFree s (0 / 8) 1 = true ∧ layersFree (besides 1 s) (0 / 8) 1 = false) ∧
    onWire busy (partCores busy 0) = false ∧
    (let s := { flying 1 (.recall pass0) busy with agenda := [⟨none, 0, 8, 0, none, .instr (.linkFlit 7 0)⟩] }
     onWire s (partCores s 0) = true) := by decide

/-- A save area whose header is of specimen `b` and die layer 0, names no core and carries its digest. -/
def saveArea (b : Byte) : State :=
  let s := modPart (shelved 5 1 0 0) 0 (fun x => { x with saved := some savedCore })
  let l : List Host.Cell := [(shadowAddr 0 0, 0x56), (shadowAddr 0 1, 0x53), (shadowAddr 0 2, 0x56), (shadowAddr 0 3, 0x4B),
    (shadowAddr 0 8, b), (shadowAddr 0 0x2C, 1)]
  sealed (shadowAddr 0 0x3FFE0) (Config.sm3 (memBytes { s with mem := l } (shadowAddr 0 0) 0x3FFE0)) l s

theorem saveArea_good (b : Byte) (h : b = 0 ∨ b = 5) : headerFails (saveArea b) 0 0 = false := by
  have a : headerNat (saveArea b) 0 0 0 4 = 0x4B565356 := by
    unfold headerNat saveArea
    rw [sealed_below _ _ _ _ _ _ (by decide)]
    rcases h with rfl | rfl <;> decide
  have d : headerNat (saveArea b) 0 0 0x3FFE0 32 = (Config.sm3 (memBytes (saveArea b) (shadowAddr 0 0) 0x3FFE0)).toNat := by
    unfold headerNat saveArea
    rw [sealed_digest, sealed_below _ _ _ _ _ _ (by decide)]
  unfold headerFails
  simp only [Nat.mul_zero, Nat.add_zero]
  rw [a, d]
  simp

/-- A field of the header, from the bytes below the digest. -/
theorem saveArea_field (b : Byte) (o n v : Nat) (h : o + n ≤ 0x3FFE0) (hv : leNat (memBytes { busy with mem :=
    [(shadowAddr 0 0, 0x56), (shadowAddr 0 1, 0x53), (shadowAddr 0 2, 0x56), (shadowAddr 0 3, 0x4B), (shadowAddr 0 8, b), (shadowAddr 0 0x2C, 1)] }
    (shadowAddr 0 0 + o) n) = v) : headerNat (saveArea b) 0 0 o n = v := by
  have hn : headerNat (saveArea b) 0 0 o n = leNat (memBytes (saveArea b) (shadowAddr 0 0 + o) n) := by
    unfold headerNat; rfl
  rw [hn]
  unfold saveArea
  rw [sealed_below _ _ _ _ _ _ (by simp only [shadowAddr]; omega)]
  rw [← hv]
  exact congrArg leNat (same_bytes _ _ n _ (fun _ _ _ => rfl))

theorem wit_ContextCommands_header :
    savedLayers (saveArea 5) 0 = 1 ∧ headerFails (saveArea 5) 0 0 = false ∧
    headerNat (saveArea 5) 0 0 8 8 ≠ (pkgOf (saveArea 5) 0).spec.toNat ∧ layersFree (saveArea 5) (0 / 8) 1 = true ∧
    spillFits (partOf (saveArea 5) 0) 1 = true := by
  refine ⟨?_, saveArea_good 5 (.inr rfl), ?_, by decide, by decide⟩
  · unfold savedLayers
    rw [show layersOf (partOf (saveArea 5) 0).layers = [0] by decide]
    show (if headerFails (saveArea 5) 0 0 = true then _ else headerNat (saveArea 5) 0 0 0x2C 1) = 1
    rw [saveArea_good 5 (.inr rfl), saveArea_field 5 0x2C 1 1 (by decide) (by decide)]
    rfl
  · rw [saveArea_field 5 8 8 5 (by decide) (by decide)]
    decide

theorem wit_ContextCommands_restore :
    savedState (saveArea 0) 0 ((layersOf (partOf (saveArea 0) 0).layers).headD 0) = some savedCore ∧ areaFails (saveArea 0) 0 savedCore = none ∧
    Inv (shelved 5 1 0 0) := by
  have hr : savedRecords (saveArea 0) 0 = [] := by
    unfold savedRecords
    rw [show rankedLayers (partOf (saveArea 0) 0).layers = [(0, 0)] by decide]
    show ((List.range 48).filter (fun i => headerNat (saveArea 0) 0 0 0x30 6 / 2 ^ i % 2 = 1)).map _ ++ [] = []
    rw [saveArea_field 0 0x30 6 0 (by decide) (by decide)]
    rfl
  refine ⟨?_, ?_, by decide⟩
  · have ht := saveArea_field 0 0x2A 2 0 (by decide) (by decide)
    have hb := saveArea_field 0 0x18 8 0 (by decide) (by decide)
    have ha := saveArea_field 0 0x20 8 0 (by decide) (by decide)
    rw [show (layersOf (partOf (saveArea 0) 0).layers).headD 0 = 0 by decide]
    unfold savedState
    dsimp only
    rw [ht, hb, ha]
    rfl
  · unfold areaFails
    rw [show rankedLayers (partOf (saveArea 0) 0).layers = [(0, 0)] by decide]
    rw [hr]
    simp only [List.findSome?, Nat.zero_div, saveArea_good 0 (.inl rfl), Bool.false_eq_true, if_false, Option.orElse_none]

/-- An ADD of core 0, whose unit accepts an operation, and the same as the first event after power-on. -/
theorem wit_StepRunsTheBundle :
    (∃ d, nextDue busy = some d ∧ d.ev = .issue 0) ∧ (coreOf busy 0).run = .running ∧ isControl 0 = false ∧
    (∃ ws b pos i, fetchBundle (coreOf busy 0) 8 (coreOf busy 0).pc = .ok ws ∧ decodeBundle ws = .ok b ∧ b.slots = [(pos, i)] ∧
      bundleFaults (coreOf (fetchReads busy 0) 0) b = [] ∧
      (let v := enterBundle (fetchReads busy 0) 0 b []
       accepts v pos i = true ∧ ∃ t, exec i { v with cur := { v.cur with slot := pos } } = .next t ∧ t.cur.faults = [])) ∧
    (∃ d, nextDue State.reset = some d ∧ d.ev = .instr (.powerOnReset 0)) :=
  ⟨⟨_, rfl, rfl⟩, by decide, by decide, ⟨_, _, _, _, rfl, rfl, rfl, by decide, by decide, _, rfl, by decide⟩, ⟨_, rfl, rfl⟩⟩

/-- A word that is no bundle, a bundle that is due a mooring, and words that are not valid. -/
theorem wit_StepRunsTheBundle_illegal :
    (let s := State.reset.withFetchWord 32 0xF8000000
     ∃ d ws e, nextDue s = some d ∧ d.ev = .issue 0 ∧ fetchBundle (coreOf s 0) 8 (coreOf s 0).pc = .ok ws ∧ decodeBundle ws = .error e) ∧
    (let s := modCore busy 0 (fun c => { c with pass := { c.pass with next := some .haltUnit } })
     ∃ d ws b, nextDue s = some d ∧ d.ev = .issue 0 ∧ fetchBundle (coreOf s 0) 8 (coreOf s 0).pc = .ok ws ∧ decodeBundle ws = .ok b ∧
       bundleFaults (coreOf (fetchReads (takeDue s d) 0) 0) b ≠ []) ∧
    (let s := modCore busy 0 (fun c => { c with pc := 64 })
     ∃ d e, nextDue s = some d ∧ d.ev = .issue 0 ∧ fetchBundle (coreOf s 0) 8 (coreOf s 0).pc = .error e) :=
  ⟨⟨_, _, _, rfl, rfl, rfl, rfl⟩, ⟨_, _, _, rfl, rfl, rfl, rfl, by decide⟩, ⟨_, _, rfl, rfl, rfl⟩⟩

/-- A VADD of core 0 in cycle 1: its vector pipe has pace 2 and accepts an operation in even cycles alone. -/
def offBeat : State :=
  let s := modPart (modPkg (State.reset.withFetchWord 32 0x9008649E) 0 (fun p => { p with map := [(0x40 + unitIndex 0 1, 1)] })) 0
    (fun x => { x with tide := 1 })
  { s with agenda := s.agenda.map (fun d => { d with cyc := 1 }) }

theorem wit_StepRunsTheBundle_pace :
    ∃ d ws b pos i, nextDue offBeat = some d ∧ d.ev = .issue 0 ∧ fetchBundle (coreOf offBeat 0) 8 (coreOf offBeat 0).pc = .ok ws ∧
      decodeBundle ws = .ok b ∧ b.slots = [(pos, i)] ∧ bundleFaults (coreOf (fetchReads (takeDue offBeat d) 0) 0) b = [] ∧
      accepts (enterBundle (fetchReads (takeDue offBeat d) 0) 0 b []) pos i = false :=
  ⟨_, _, _, _, _, rfl, rfl, rfl, rfl, rfl, by decide, by decide⟩

/-- Control core 384 runs an ADD whose operands have landed. -/
def controlRuns : State :=
  let s := modCore busy 384 (fun c => { c with run := .running, code := [(0, 0x80002106)], codeValid := [(0, true)] })
  { s with agenda := [⟨none, 0, 20, 0, none, .issue 384⟩] }

theorem wit_StepRunsTheBundle_control :
    ∃ d ws b i, nextDue controlRuns = some d ∧ d.ev = .issue 384 ∧ (coreOf controlRuns 384).run = .running ∧ isControl 384 = true ∧
      fetchBundle (coreOf controlRuns 384) 8 (coreOf controlRuns 384).pc = .ok ws ∧ decodeBundle ws = .ok b ∧ b.slots = [(0, i)] ∧
      controlOp i = true ∧ (∀ n ∈ i.srcs, n < 32 → unlanded (takeDue controlRuns d) 384 n = false) ∧
      (let u := modCore (takeDue controlRuns d) 384 (fun c => { c with pass := { c.pass with next := none } })
       ∃ t, exec i { u with cur := ⟨384, 0, (coreOf controlRuns 384).pc, b.nwords, [], []⟩ } = .next t ∧ t.cur.faults = []) :=
  ⟨_, _, _, _, rfl, rfl, by decide, by decide, rfl, rfl, rfl, by decide, by decide, _, rfl, by decide⟩

theorem wit_CycleEnds :
    (let s := { State.reset with agenda := [] }
     nextDue s = none ∧ fromOutside s = none) ∧
    (let s := { State.reset with agenda := [], inbox := [(0, .podFreeze 0 0)] }
     nextDue s = none ∧ fromOutside s = some (0, .podFreeze 0 0)) := by decide

theorem wit_FaultOrder :
    (let s := modCore busy 0 (fun c => { c with run := .rolling, roll := some ⟨0, 13, 7, 0, Pass.none⟩ })
     (coreOf s 0).run = .rolling ∧ (coreOf s 0).roll.any (fun rl => rl.d = cnow s 0) = true ∧
     faultRank 4 < 13 ∧ ¬ (faultRank 1 < 13)) ∧ (coreOf busy 0).run = .running := by decide

theorem wit_InvKept : Inv busy ∧ ∃ t, step busy = .next t := ⟨by decide, _, rfl⟩

theorem wit_DecodeOfEncode : (Instr.add 31 40 0 none).isSlot = true ∧ (Instr.add 31 40 0 none).wf = true := by decide

/-- Entries 0 and 63 wait with 0 and 7 passes at a launch point that starts entry 5. -/
def ageing : State :=
  part (fun x => { x with launches := [], staged := [5], ready := [5, 0, 63], waiting := [5, 0, 63], queue :=
    [(0, qSet (qSet 0 0 32 1) 59 3 1), (5, qSet (qSet 0 0 32 1) 59 3 1), (63, qSet (qSet (qSet 0 0 32 1) 59 3 1) 72 4 7)] })
    { core0 (fun c => { c with entry := none }) with images := [⟨1, 0, { image with berths := [] }⟩] }
def aged : Part := partOf (runQueue ageing 0 0) 0

theorem wit_QueueAgeing :
    (partOf ageing 0).resume = [] ∧ (partOf ageing 0).ready.Nodup ∧ (∀ e ∈ (partOf ageing 0).staged, e < 64 ∧ e ∈ (partOf ageing 0).waiting) ∧
    (∀ e ∈ (partOf ageing 0).queue, qPass e.2 < 8) ∧ 5 ∈ (partOf ageing 0).staged ∧ qState (queueEntry (partOf ageing 0) 5) = 1 ∧
    0 ∈ (partOf ageing 0).ready ∧ qPass (queueEntry (partOf ageing 0) 0) + 1 < 8 ∧
    63 ∈ (partOf ageing 0).ready ∧ qPass (queueEntry (partOf ageing 0) 63) + 1 = 8 ∧ (partOf busy 0).staged = [] := by decide

theorem fold_same {α β : Type} (f : β → α → β) (x : β) : ∀ l : List α, (∀ e ∈ l, f x e = x) → l.foldl f x = x
  | [], _ => rfl
  | a :: l, h => by
    rw [List.foldl_cons, h a (List.mem_cons_self ..)]
    exact fold_same f x l (fun e he => h e (List.mem_cons_of_mem _ he))

/-- Where nothing is cancelled, nothing more is. -/
theorem cancel_none (x : Part) (hc : x.canc = []) (hr : x.resume = []) (hj : x.jobCanc = false) (hi : x.cancInst = []) (h : ∀ e ∈ List.range 64, ∀ i ∈ List.range 8,
    qState (queueEntry x (qPred (queueEntry x e) i)) ≠ 4) : cancelEntries x = x := by
  have e1 := fold_same (fun x e => if stoodAtA x e ∧ inCancelled x e = true then setEntry x e 4 else x) x (List.range 64)
    (fun e _ => if_neg (by simp [inCancelled, hc, hj, hi]))
  have e2 := fold_same (fun x e => if stoodAtA x e ∧ (List.range 8).any (fun i =>
    decide (qPredv (queueEntry x e) / 2 ^ i % 2 = 1) && decide (qState (queueEntry x (qPred (queueEntry x e) i)) = 4)) = true
    then setEntry x e 4 else x) x (List.range 64) (fun e he => if_neg (by
      rintro ⟨-, h'⟩
      obtain ⟨i, hi, hq⟩ := List.any_eq_true.1 h'
      exact h e he i hi (of_decide_eq_true ((Bool.and_eq_true_iff.1 hq).2))))
  have e3 := fold_same (fun x (_ : Nat) => (List.range 64).foldl (fun x e => if stoodAtA x e ∧ (List.range 8).any (fun i =>
    decide (qPredv (queueEntry x e) / 2 ^ i % 2 = 1) && decide (qState (queueEntry x (qPred (queueEntry x e) i)) = 4)) = true
    then setEntry x e 4 else x) x) x (List.range 64) (fun _ _ => e2)
  unfold cancelEntries
  simp only [e1, e3]
  cases x
  simp only at hc hr
  subst hc hr
  rfl

theorem wit_QueueAgeing_started : [5, 0, 63].map (fun e => qState (queueEntry aged e)) = [2, 1, 1] := by
  unfold aged runQueue
  rw [show modPart ageing 0 cancelEntries = ageing by unfold modPart; rw [cancel_none _ (by decide) (by decide) (by decide) (by decide) (by decide)]; decide +kernel]
  decide +kernel

/-! ### Ill-formed instructions -/

theorem test_ill_scalar :
    (∀ i ∈ [Instr.add 33 0 0 none, .add 0 41 0 none, .add 0 0 63 none, .add 0 0 0 (some ⟨true, false, 41, 0⟩),
      .add 0 0 0 (some ⟨false, false, 0, 1⟩), .br (.k1 0x10000), .br (.k0 2), .br (.k0 (-4)), .call 33 (.k0 0),
      .moor 0 0 0 0 257 false, .rdvPlain 0 0, .rdvPlain 7 0], i.illegalSub = 2) ∧
    (Instr.add 32 40 40 (some ⟨true, true, 40, 0⟩)).illegalSub = 0 ∧ (Instr.br (.k1 0xFFFC)).illegalSub = 0 := by decide

theorem test_ill_vector :
    (∀ i ∈ [Instr.vadd 6 0 0 0 false none, .vadd 0 48 0 0 false none, .vadd 0 0 48 0 false none, .vadd 0 0 57 0 false none,
      .vadd 0 0 0 0 false (some ⟨false, false, 0, 1⟩), .vadds 2 0 0 0 false none, .vrcp 3 0 0 false none,
      .vcvt 0 0 0 false (some ⟨false, false, 0, 13⟩), .vext 0 0 0 false (some ⟨false, false, 0, 64⟩),
      .vins 0 0 0 (some ⟨false, false, 0, 0x80000⟩), .vred 0 0 0 3 false none, .mand 47 48 48 none, .mand 56 48 48 none,
      .vld 3 0 0 (.k0 0), .vmrd 0 0 0 3 none], i.illegalSub = 2) ∧
    (Instr.vadd 5 47 56 47 true none).illegalSub = 0 := by decide

theorem test_ill_engines :
    (∀ i ∈ [Instr.mma 5 0 false false false 0 0 true none, .mout 2 0 false false 0 0 none, .cpy true 0 0 0 0 (some ⟨false, false, 0, 1⟩),
      .cpyt true 0 0 0 ⟨false, false, 0, 7⟩, .code 3 0 0 0 0 none, .code 0 0 0 0 0 (some ⟨false, false, 0, 1⟩),
      .send 0 0 0 0 (some ⟨false, false, 0, 0x10000⟩), .rld 0 0 0 0 2 (some ⟨false, false, 0, 0x10000⟩), .rst 0 0 0 0 1 (some ⟨false, false, 0, 0x10000⟩),
      .rld 0 0 0 0 1 (some ⟨false, false, 0, 0⟩), .atomInt 0 0 0 0 false (some ⟨false, false, 0, 0x20⟩),
      .ratomOther 2 0 1 0 0 none, .ratomOther 3 0 0 0 0 none, .drain 0 0 none, .xpack 3 0 0 0 none], i.illegalSub = 2) ∧
    (∀ i ∈ [Instr.code 1 0 0 0 0 none, .rld 0 0 0 0 1 none, .rst 0 0 0 0 2 none, .ratomInt 0 0 0 0 1 none],
      i.illegalSub = 5) := by decide

theorem test_ill_units :
    (∀ i ∈ [Instr.chamoisAppend 392, .chamoisAppend (64 * 512), .start 512, .powerOnReset 64, .systemRegisterWrite (.mailbox 0 16) 0,
      .extendService 0 2 0], i.wf = false) ∧ (Instr.chamoisAppend (63 * 512 + 391)).wf = true := by decide

/-! ### Words of the spec's own examples, and of its encodings written out (07 to 11, 13, 14, 21 to 25) -/

theorem test_words_scalar :
    ∀ q ∈ [([0x0E405041#32, 0xE0000008#32], Instr.syswr 2 32 (.k1 0x441)), ([0x89C06200#32], .sts 0 3 4 (.k0 0)),
      ([0x89DC0100#32], .sts 3 32 2 (.k0 0)), ([0x89D9EA08#32], .sts 3 15 20 (.k0 8)), ([0x89986100#32], .lds 3 3 2 (.k0 0)),
      ([0x8A004A2A#32], .agen 0 2 20 21 none), ([0x85C16114#32], .sel 11 2 10 none), ([0x800145C0#32], .add 10 11 32 none),
      ([0x848161C0#32], .xorS 11 3 32 none), ([0x8D400000#32], .halt), ([0x8C100000#32], .rdvPlain 2 0),
      ([0x8C702BB4#32], .rdvBar 6 1 23 26), ([0x0BC00001#32, 0x60000004#32, 0x60000000#32, 0xE0000010#32], .moor 1 4 0 0 1 false)],
      (decodeWords q.1).toOption = some (q.2, true, []) := by decide

theorem test_words_vector :
    (∀ q ∈ [([0x9D01D880#32], Instr.mpop 14 49 none), ([0x9C0679EA#32], .mand 51 51 53 none), ([0x9008649E#32], .vadd 1 3 9 15 false none),
      ([0x9EA04428#32], .vaddsn 4 2 8 20 false none), ([0x93024214#32], .vcmp 0 2 2 4 10 false none),
      ([0x9350A30E#32], .vsel 2 5 6 7 false none), ([0x9A30C202#32], .vld 2 6 4 (.k0 2)), ([0x9DA9C184#32], .vmrd 5 14 3 2 none),
      ([0x9802AF40#32], .vbcast 21 30 32 false none)],
      (decodeWords q.1).toOption = some (q.2, true, [])) ∧
    (decodeWords [0x18000F08#32]).toOption = some (.vbcast 0 30 4 false none, false, []) ∧
    (decodeWords [0x1800CF0A#32, 0x80002106#32]).toOption = some (.vbcast 6 30 5 false none, false, [0x80002106#32]) := by decide

theorem test_words_engines :
    ∀ q ∈ [([0xA1080300#32], Instr.mchkSp 6 none), ([0xA0026516#32], .mma 0 2 false true true 10 11 false none),
      ([0xA140059A#32], .mmarg 11 13 none), ([0xA1C00412#32], .mout 0 0 false false 8 9 none),
      ([0x30408C22#32, 0xE0080000#32], .cpys false 1 6 4 2 (some ⟨false, false, 0, 0x80000⟩)),
      ([0x41C01E02#32, 0xE8A00000#32], .drain 15 2 (some ⟨true, false, 10, 0⟩)), ([0x41400000#32, 0xE8D00000#32], .rrel 0 (some ⟨true, false, 13, 0⟩)),
      ([0xB1800600#32], .stageRd 3 none), ([0xF00002A2#32], .idle 674), ([0xF0000054#32], .idle 84)],
      (decodeWords q.1).toOption = some (q.2, true, []) := by decide

/-- Words the encodings do not define, and a slot with no word. -/
theorem test_words_refused :
    ∀ ws ∈ [[0xF8000000#32], [0xE0000000#32], [0x9A38C202#32], [0x81482106#32], []], (decodeWords ws).toOption = none := by decide

/-! ### One instruction, one step -/

/-- The results that are to land after the instruction, with their cycles. -/
def landings (i : Instr) (s : State) : List (Nat × Landing) :=
  match exec i s with
  | .next t => t.agenda.filterMap (fun d => match d.ev with
    | .instr (.resultLanding _ l) => some (d.cyc, l)
    | _ => none)
  | _ => []

/-- R222: the sum wraps at 64 bits; R85: it lands in the next cycle. -/
theorem test_add_wraps : landings (.add 1 2 3 none) (holds 2 0xFFFFFFFFFFFFFFFF (holds 3 1 busy)) = [(1, .sreg 1 0)] := by decide
/-- R194: destination zero discards the result. -/
theorem test_add_zero : landings (.add 32 2 3 none) (holds 2 1 busy) = [] := by decide
/-- R196: a guard that is false leaves nothing to land; R197: negated, it is true. -/
theorem test_add_guarded :
    landings (.add 1 2 3 shut) busy = [] ∧ landings (.add 1 2 3 (some ⟨true, true, 0, 0⟩)) (holds 2 5 busy) = [(1, .sreg 1 5)] := by decide
/-- R223: -7 / 2 is -3, and the remainder -1; R224: no leading one in 0. -/
theorem test_div : landings (.div 1 2 3 none) (holds 2 (-7) (holds 3 2 busy)) = [(34, .sreg 1 (-3))] := by decide
theorem test_rem : landings (.rem 1 2 3 none) (holds 2 (-7) (holds 3 2 busy)) = [(34, .sreg 1 (-1))] := by decide
theorem test_clz : landings (.clz 1 2 none) busy = [(1, .sreg 1 64)] := by decide
/-- R222: the high word of a signed and of an unsigned product. -/
theorem test_mulh : landings (.mulh 1 2 3 none) (holds 2 (-1) (holds 3 2 busy)) = [(3, .sreg 1 (-1))] := by decide
theorem test_mulhn : landings (.mulhn 1 2 3 none) (holds 2 (-1) (holds 3 2 busy)) = [(3, .sreg 1 1)] := by decide
/-- R222: signed and unsigned comparison of -1 with 1. -/
theorem test_slt : landings (.slt 1 2 3 none) (holds 2 (-1) (holds 3 1 busy)) = [(1, .sreg 1 1)] := by decide
theorem test_sltn : landings (.sltn 1 2 3 none) (holds 2 (-1) (holds 3 1 busy)) = [(1, .sreg 1 0)] := by decide
/-- R198: OFFSET is sign-extended; R228: an access below the slice is OPERAND 1. -/
theorem test_lds_below : operandFaults busy (.lds 3 1 2 (.k0 0)) = [] ∧
    (match exec (.lds 3 1 2 (.k0 127)) busy with
     | .next t => decide (t.cur.faults.map (fun f => (f.cls, f.sub)) = [(0x0A, 1)])
     | _ => false) = true := by decide

/-- R43, R59: the bundle at the program counter is run, and its successor issues in the next cycle. -/
theorem test_step_add :
    (match step (holds 2 7 (holds 3 8 (State.reset.withFetchWord 32 0x80002106))) with
     | .next t => decide ((coreOf t 0).pc = 4 ∧ (t.agenda.map (fun d => (d.cyc, d.ev))).contains (1, .instr (.resultLanding 0 (.sreg 1 15))) = true ∧
         (t.agenda.map (fun d => (d.cyc, d.ev))).contains (1, .issue 0) = true)
     | _ => false) = true := by decide

/-- R354: a word that is no instruction is ILLEGAL, and the core stops running its pass. -/
theorem test_step_illegal :
    (match step (State.reset.withFetchWord 32 0xF8000000) with
     | .next t => decide ((coreOf t 0).run ≠ .running ∧ fieldOf (sysGet (coreOf t 0) 0x408) 0 8 = 2)
     | _ => false) = true := by decide

/-! ### Witnesses: later effects of instructions, stops, and operand checks -/

/-- A core whose berth list goes on, the next unit at its entry or resumed at a safe point, and one whose list has ended with a
landing to come. -/
theorem wit_HaltEndsTheUnit_later :
    partOfCore busy 0 = some 0 ∧ (coreOf busy 0).entry = some 0 ∧ launchOf busy 0 = some launch ∧ launch.cores = [0] ∧ launch.stopped = [] ∧
    (coreOf busy 0).berth = [] ∧ (∀ d ∈ (coreOf busy 0).lands, d.2.1 ≤ cnow busy 0) ∧
    (let c := coreOf (core0 (fun c => { c with lands := [(1, 9, true)], pass := { c.pass with homes := [⟨1, 1, 1, 0, 3, 3, []⟩] } })) 0
     c.berth = [] ∧ (∃ d ∈ c.lands, 0 < d.2.1) ∧ c.pass.homes ≠ []) ∧
    (let c := coreOf (core0 (fun c => { c with berth := [1, 2], resume := [(⟨1, [], [], []⟩, 64)] })) 0
     c.berth = 1 :: [2] ∧ c.resume.find? (fun u => u.1.vid = 1) = some (⟨1, [], [], []⟩, 64)) ∧
    (coreOf (core0 (fun c => { c with berth := [2], resume := [(⟨1, [], [], []⟩, 64)] })) 0).resume.find? (fun u => u.1.vid = 2) = none := by
  decide

/-- A trap that stops its core: disabled, in a handler, or past REDOMAX. -/
theorem wit_Traps_stop :
    ([busy, sysHolds 0x401 1 trapping, sysHolds 0x401 0x100 trapping].all (fun s => decide (
      (decide (sVal s 0 ≠ 0) != true) = true ∧ operandFaults s (.trap true 0 (.k0 0)) = [] ∧ (coreOf s 0).run = .running ∧ s.cur.g = 0 ∧
      (trapEnabled (coreOf s 0) = false ∨ inhibited (coreOf s 0) = true ∨ redoMax (coreOf s 0) < redoOf (coreOf s 0)) ∧
      partOfCore s 0 = some 0 ∧ 3 ≤ (partOf s 0).state))) = true := by decide

theorem wit_StoreMeetsRegions :
    (let s := modCore busy 0 (fun c => setDir c 63 (mkDir true 8 true 64 64 0))
     clkOf s 0 = some 0 ∧ (partOf s 0).live = true ∧
     ((List.range 56).map (· + 8)).filter (fun e => dValid (dirEntry (coreOf s 0) e) && [(5, 1#8)].any (fun w => inRegion (dirEntry (coreOf s 0) e) w.1)) = [63]) :=
  ⟨by decide, by decide, by decide⟩

/-- A status word and a system register's value that meet the landing of s5. -/
theorem wit_free_landings :
    (let s := slot 5 clashing
     let t := cnow s 0 + fenceCost s 0 1
     let s := postAt s 0 t 10 none (.instr (.resultLanding 0 (.sreg 5 1)))
     operandFaults s (.drain 5 1 none) = [] ∧ deadFaults s = [] ∧ guardMd s none = true ∧ landingClash s 0 t (.sreg 5 0) = true) ∧
    operandFaults clashing (.sysrd 5 0 (.k1 0xFF)) = [] ∧ sysFaults clashing 0xFF = [] ∧
    landingClash clashing 0 (landCyc clashing 0 1) (.sreg 5 0) = true := by decide

/-- VSTM of a float tile: two elements of a row, numbers or one of them none. -/
theorem wit_ResultsLand_float :
    (let c := setDir (coreOf busy 0) 63 (mkDir true 0 true 64 64 0)
     let fmt := tileFmt (dFmt (dirEntry c 63))
     fmtIsInt fmt = false ∧ anyArmed c = false ∧
     (∀ w ∈ [(3, 0, 0, 0x3F800000), (3, 63, 0x3F800000, 0)], w.1 < 64 ∧ w.2.1 < 64 ∧ arrayVal fmt w.2.2.1 ≠ .nan ∧ arrayVal fmt w.2.2.2 ≠ .nan) ∧
     arrayVal fmt 0x7FC00000 = .nan) := by decide

/-- Words of core 0's slice that are poisoned: one at offset 0, and the owner tag of the second line. -/
def poisoned (s : State) : State := { s with memBad := [(sliceAddr 0 0 / 8, 1000)], tagBad := [(sliceAddr 0 64 / 64, 1000)] }

/-- An operation of kind `k` that reads A at offset 0: its lines are good or poisoned; as a member's share it finds its line of B, a
poisoned one, or none. -/
theorem wit_MatrixResultsLand_reads :
    (let s := checking 3 0 (mkDir true 8 true 2 2 0) tiles
     let m := (mopOf s 0 9).getD { multiplyOp s 0 5 7 false false true true false true 0 0 1 with id := 0 }
     mopOf s 0 9 = some m ∧ m.kind = 3 ∧ m.aOff = 0 ∧ m.gang = none ∧ m.tile < 8 ∧ m.entry < 64 ∧ cellBads (coreOf s 0) m.tile = [] ∧ anyArmed (coreOf s 0) = false ∧
     poisonRead s 0 ((List.range 64).map (m.aOff + ·)) = none ∧ dMst (dirEntry (coreOf s 0) m.tile) = true ∧ slotBads (coreOf s 0) m.tile = [] ∧
     poisonRead (poisoned s) 0 ((List.range 64).map (m.aOff + ·)) = some (2, sliceAddr 0 0 / 8, 0) ∧
     (coreOf (poisoned s) 0).run = .running) ∧
    (∀ q ∈ [(5, []), (5, [127]), (0, [])],
      let s := modCore (checking 0 0 0 tiles) 0 (fun c => { c with
        mops := c.mops.map (fun m => { m with gang := some (1, 1, 4) }), gangTag := [(127, q.1)], gangBad := q.2 })
      (mopOf s 0 9).map (fun m => m.gang) = some (some (1, 1, 4)) ∧ (coreOf s 0).run = .running ∧
      (tabGet (fun _ => 0) (coreOf s 0).gangTag 127 = 4 + 1 ↔ q.1 = 5) ∧ (127 ∈ (coreOf s 0).gangBad ↔ q.2 = [127])) := by decide

/-! ### Witnesses: traps at issue, later effects, and what else the statements reach -/

theorem wit_FaultOrder_found :
    let f : FaultRec := ⟨0x0A, 5, 0, 0, 0, 0, 0, 0, 0⟩
    let s := core0 (fun c => { c with found := [f] })
    (coreOf s 0).run = .running ∧ firstFault ((coreOf s 0).found ++ laterFaults s 0 ++ (dueFaults s 0).2) = some f ∧ f.cls < 2 ^ 8 ∧ f.sub < 2 ^ 8 := by
  decide

/-- LDS and STS at the end of the slice, below it and off their width; RET at the end of the window and off a word. -/
theorem wit_FaultOrder_scalar :
    [((0x1FFFFC : Word), (3 : BitVec 2)), (0x200000, 0), (0xFFFFFFFFFFFFFFFF, 0), (1, 1)].all (fun q =>
      let x := scalarOffset (holds 5 q.1 busy) 5 (.k0 0) (2 ^ q.2.toNat)
      decide (¬ (0 ≤ x ∧ x + (2 ^ q.2.toNat : Nat) ≤ 2 ^ 21 ∧ x % (2 ^ q.2.toNat : Nat) = 0))) = true := by decide

theorem wit_FaultOrder_scalar_operands :
    ∀ z ∈ [(3 : BitVec 2), 0, 1], operandFaults busy (.lds z 6 5 (.k0 0)) = [] ∧ operandFaults busy (.sts z 6 5 (.k0 0)) = [] := by decide

theorem wit_FaultOrder_ret :
    operandFaults (holds 5 2 busy) (.ret 5) = [] ∧ operandFaults (holds 5 0x10000 busy) (.ret 5) = [] ∧
    sVal (holds 5 2 busy) 5 = 2 ∧ sVal (holds 5 0x10000 busy) 5 = 0x10000 :=
  ⟨by decide, by decide, by decide, by decide⟩

/-- Route 15 has kind 3; a page of 1 MiB at 4 MiB permits nothing. -/
def barred (n : Nat) : State := setTable (sysHolds 0x38F 7 (slot n aimed)) 0 4 (BitVec.ofNat 128 (5 + 0x400000 + 2 ^ 30 * 2 ^ 64))

theorem wit_FaultOrder_far :
    (∀ i ∈ [Instr.rld 3 0 31 1 0 none, .rst 3 15 30 1 0 none, .ratomInt 0 14 31 1 30 none, .ratomOther 0 0 31 1 30 none],
      operandFaults (barred 5) i = [] ∧ guardMd (barred 5) none = true) ∧
    deadFaults (barred 5) = [] ∧ tableFaults (barred 5) 0 = [] ∧ capacityFaults (barred 5) 0 = [] ∧
    rtValid (routeReg (barred 5) 0 14) = false ∧ rtKind (routeReg (barred 5) 0 15) = 3 ∧
    (rtValid (routeReg (barred 5) 0 0) = true ∧ rtKind (routeReg (barred 5) 0 0) ≠ 3) ∧
    (2 ^ 48 ≤ (0x1000000000000 : Word).toNat ∧ (0xFFFFFFFFFFFC : Word).toNat % 8 ≠ 0) ∧
    coveringEntry (barred 5) 0 0xFFFFFFFFFFF8 = none ∧
    (coveringEntry (barred 5) 0 0x4FFFF8).any (fun e => decide (e.1 = 4) && [1, 2, 4].all (fun n => !permits e.2 n)) = true :=
  ⟨by decide, by decide, by decide, by decide, by decide, by decide, by decide, by decide, by decide, by decide⟩

/-- A copy over no route, to an address that no entry covers, and to a page that permits nothing. -/
theorem wit_FaultOrder_copy :
    let s (va : Word) := holds 6 va (barred 4)
    (∀ put ∈ [true, false], operandFaults (s 0x400000) (.cpy put 0 6 0 0 none) = []) ∧
    deadFaults (s 0) = [] ∧ tableFaults (s 0) 0 = [] ∧ capacityFaults (s 0) 0 = [] ∧
    ([(0x400000 : Word), 0xFFFFFFFFFFC0].all (fun va =>
      let s := s va
      let r := routeReg s 0 0
      let lo := (sVal s 0).toNat
      let fa := (sVal s 6).toNat
      let ps := piecesOf s 0 0 false lo fa
      let x := routed s 0 { newXfer s 0 0 0 true false r with mask := BitVec.allOnes 64 } r fa (cnow s 0) ps
      decide (fa = va.toNat ∧ ps.length = 1 ∧ firstPortFaults s 0 x (cnow s 0) = [] ∧ routeFaults s r = [] ∧ shapeFaults s 0 0 ps = [] ∧ isStack x.dst = false ∧
      localFaults s lo ps = [] ∧ fa < 2 ^ 48 ∧ vaOf (ps.getD 0 (0, 0, 0)).2.1 = fa)) = true) ∧
    coveringEntry (s 0) 0 0xFFFFFFFFFFC0 = none ∧ (coveringEntry (s 0) 0 0x400000).any (fun e => !permits e.2 1 && !permits e.2 2) = true :=
  ⟨by decide, by decide, by decide, by decide, by decide, by decide, by decide⟩

/-- A copy's first piece meets a port of its slice that is taken. -/
theorem wit_CopiesIssue_clash :
    (portClash (modCore aimed 0 (fun c => { c with ports := [⟨0, 0, 9, 0, 5⟩] })) 0 0 0 true).isSome = true := by decide

theorem wit_LaterEffects :
    (partOfCore busy 0 = some 0 ∧ (partOf busy 0).pod = false ∧ (partOf (part (fun x => { x with pod := true }) busy) 0).pod = true) ∧
    (∀ n ∈ [0, 1], let s := moving 5 true (2 ^ 45) (2 ^ 46) []
      let s := { s with xfers := s.xfers.map (fun x => { x with pieces := x.pieces.take n }) }
      (xferOf s 7).any (fun x => decide (x.g = 0 ∧ x.pieces.length = n)) = true ∧ partOfCore s 0 = some 0) ∧
    (∀ q ∈ [(4, (1 : Word)), (5, 1), (4, 0)],
      (tabGet zeroAt (partOf (shelved q.1 1 0 q.2) 0).context 1).getLsbD 0 = decide (q.2 = 1) ∧ (partOf (shelved q.1 1 0 q.2) 0).state = q.1) ∧
    (∀ q ∈ [(31, true, 0), (159, false, 3), (64, false, 0)],
      let s := modCore (flyingAs q.2.2 0 (.reply 7 5 q.2.1) busy) 0 (fun c => { c with waits := [(7, ⟨0, 2, 8, 5, 0, 0, 0⟩, 9, q.1)] })
      (flitOf s 7).any (fun f => decide (f.load = .reply 7 5 q.2.1 ∧ f.home = 0 ∧ f.st = q.2.2)) = true ∧ anyArmed (coreOf s 0) = false ∧
      (coreOf s 0).waits.find? (fun w => w.1 = 7) = some (7, ⟨0, 2, 8, 5, 0, 0, 0⟩, 9, q.1)) := by decide

/-- Nine pieces of a directory entry for entry 63, all there or but eight, to or from core `h`. -/
def landing (put : Bool) (h n : Nat) (kind : Nat) : State :=
  { aimed with xfers := [{ newXfer aimed 0 kind 0 put true (routeReg aimed 0 0) with
      id := 7, dst := h, entry := 63, pieces := List.replicate 9 (0, 0, 0, 64), data := (List.range n).map (fun j => (j, List.replicate 64 1#8)) }] }

theorem wit_LaterEffects_land :
    (∀ q ∈ [(true, 1, 9, 3), (false, 1, 9, 3), (true, 1, 8, 3), (true, 48, 9, 3), (true, 2 ^ 20, 9, 3), (true, 1, 9, 0)],
      let s := landing q.1 q.2.1 q.2.2.1 q.2.2.2
      (xferOf s 7).any (fun x => !x.cancelled && x.stg && decide (x.kind = q.2.2.2 ∧ x.entry < 64) &&
        let h := if x.put = true then x.dst else x.g
        decide (h = (if q.1 = true then q.2.1 else 0) ∧
          ((List.range 9).all (fun j => (pieceData x (x.pieces.length - 9 + j)).isSome) = true ↔ q.2.2.1 = 9) ∧
          anyArmed (coreOf s h) = false ∧
          (refusal s { newFlit s x.g h x.inst 0 0 0 [] (.recall x.inst) with tag := x.tag } 0 = if q.2.1 = 1 ∨ q.1 = false then none else some 2))) = true) := by
  decide

theorem wit_StagedWrites_late :
    (∀ h ∈ [1, 2 ^ 20],
      let s := flyingAs 4 h (.write [(0, 1)] [] none) busy
      (flitOf s 7).any (fun f => decide (f.st = 4 ∧ f.home = h ∧ f.load = .write [(0, 1)] [] none) && !(coreOf s h).recalled.contains f.inst) = true) ∧
    (let s := { flying 1 (.slot 15 0 (List.replicate 64 1#8) []) busy with xfers := [{ newXfer busy 0 6 0 true false 0 with opno := 3, pieces := [(0, 0, 0, 64)] }] }
     (flitOf s 7).any (fun f => (s.xfers.find? (fun y => y.g = 0 && y.kind = 6 && some y.opno = f.ref.map (·.opno))).isSome) = true) ∧
    (∀ n ∈ [1, 2],
      let s := zoned (flying 1 (.commit pass0 n) busy)
      decide (((coreOf s 1).zone.filter (fun z => z.inst = pass0)).length + dueRecs (dropFlit s 7) 1 pass0 = n) = decide (n = 1)) := by decide

theorem wit_HomeOperations_late :
    (∀ l ∈ [Load.readReq (2 ^ 30) 8 0, .atom 0x1FFFF8 4 8 1 0 none, .merge 0 4 [(0x1FFFFC, 1)]],
      let s := flyingAs 4 1 l busy
      (flitOf s 7).any (fun f => decide (f.st = 4 ∧ f.load = l) && !(coreOf s f.home).recalled.contains f.inst) = true) ∧
    (let s := { adding 4 none none with memBad := [(sliceAddr 0 0x1FFFF8 / 8, 1000)] }
     (s.bops.find? (fun b => b.id = 7)).any (fun b => (poisonRead s b.g ((List.range b.w).map (b.off + ·))).isSome) = true ∧ (coreOf s 0).run = .running) := by
  decide

/-- Injectors that spoil bit 511 or bit 576, and that delay by one cycle. -/
theorem wit_FlitsTravel_spoiled :
    (∀ q ∈ [(0, 511, 0), (0, 576, 0), (2, 0, 1)],
      let s := modPkg (flying 1 (.write [(0, 1)] [] none) busy) 0 (fun p => { p with
        linj := [(0, BitVec.ofNat 64 (2304 + 2 ^ 12 + q.1 * 2 ^ 13 + q.2.1 * 2 ^ 15 + q.2.2 * 2 ^ 25 + 2 ^ 63)), (1, 1)] })
      (linkInjectAll s 0 2304 true).2 = some q ∧ (pkgOf s 0).dead.contains 2304 = false) ∧
    (let s := flying 1 (.reply 0 0 false) busy
     let s := { s with flits := s.flits.map (fun f => { f with land := 4 }) }
     (flitOf s 7).any (fun f => decide (f.lanes = false ∧ 0 + 1 = f.path.length ∧ (f.land - f.dep) - (f.path.map (·.lat)).sum < 1)) = true) := by decide

theorem wit_NoticesAndPeers_late :
    (let s := { busy with notes := [{ note 0 (flying 1 (.commit pass0 1) busy).flits.head? with ref := ⟨0, pass0, 15, 0, 0, 1, true⟩ }] }
     (s.notes.find? (fun z => z.id = 7)).any (fun y => decide (y.ref.opno % 16 = 15) && y.resend.isSome) = true ∧ hasFailed s 0 = false) ∧
    hasFailed (part (fun x => { x with failed := [.core 0] }) busy) 0 = true ∧
    (let s := core0 (fun c => { c with waits := [(7, ⟨0, 2, 8, 5, 0, 0, 0⟩, 0, 3)], draining := [(8, 6, 159, false, 1)] })
     ((coreOf s 0).waits.find? (fun w => w.1 = 7)).any (fun w => decide (w.2.2.1 ≤ cnow s 0)) = true ∧ (coreOf s 0).run = .running ∧
     ((coreOf s 0).draining.find? (fun d => d.1 = 8)).any (fun e => decide (128 ≤ e.2.2.1 ∧ e.2.2.1 % 128 < 32)) = true) := by decide

theorem wit_Launches_later :
    (∀ f ∈ [fun (x : Part) => { x with jobCanc := true }, fun x => { x with cancInst := [(2, 0)] }, fun x => { x with canc := [⟨0, 0, 0, 9⟩] }],
      let s := modPart (waiting [0]) 0 (fun x => f { x with enqA := 1 })
      inCancelled (partOf s 0) 0 = true ∧ qOrd (queueEntry (partOf s 0) 0) < (partOf s 0).enqA ∧ qState (queueEntry (partOf s 0) 0) = 1 ∧
      (partOf s 0).endAsked = false ∧ stopPends (partOf s 0) = false) ∧
    inCancelled (partOf (waiting [0]) 0) 0 = false ∧
    (let s := part (fun x => { x with restart := true, wkSaved := [5, 6], state := 2 }) busy
     (partOf s 0).restart = true ∧ (mateMissing s (0 :: startMates s 0) || (0 :: startMates s 0).any (surveyed s)) = false) ∧
    (∀ e ∈ (partOf (queued 2 3 0) 0).queue, qState e.2 = 0 ∨ qState e.2 = 3 ∨ qState e.2 = 4) := by decide

theorem wit_ServiceMoves_shut :
    (let s := modPkg busy 0 (fun p => { p with survey := [(0, 9)] })
     surveyRuns s 0 = true) ∧
    contextBusy (part (fun x => { x with context := [(1, 1)] }) busy) 0 = true ∧
    inWindow (partOf busy 0).tide = false ∧ (partOf (part (fun x => { x with live := false }) busy) 0).live = false ∧
    partOfCore busy 48 = none ∧ inWindow busy.now = false ∧ inWindow 0xFFF = true ∧ (xferOf (moving 5 false (2 ^ 45) (2 ^ 46) []) 7).any (fun x => decide (x.pieces.length = 1)) = true := by
  decide

/-- A line of the shadow store with a corrected word, as the walk has read it, or written since. -/
theorem wit_DredgerRepairInjectors_scrub :
    (let s := { busy with memBad := [(shadowAddr (layerKey 384) 0 / 8, 3)] }
     ([(0, 3)].all (fun e => decide (e ∈ arrayBad s 384 13))) = true ∧ (arrayBad s 384 13).filter (fun e => e.1 / 8 = 0) = [(0, 3)] ∧
     lineView s 384 13 0 ≠ [] ∧ (∀ e ∈ s.memBad, e.2 ≠ 1000)) ∧
    contextBusy (part (fun x => { x with context := [(1, 1)] }) busy) 384 = true ∧
    surveyRuns (modPkg busy 0 (fun p => { p with survey := [(0, 9)] })) 384 = true := by decide

theorem wit_BootMapAndTable_pubs :
    (∀ s ∈ [busy, shelved 5 1 0 0], 0 / 8 = 0 ∧ 3 ≤ (partOf s 0).state ∧ (partOf s 0).state ≤ 5) := by decide

/-- LOAD where the table places the address in the pod's own space; PATCH of a saved partition. -/
theorem wit_MailboxCommands_later :
    placedOutside aimed 0 0 = true ∧ placedOutside busy 0 0 = false ∧ 2 ≤ (partOf aimed 0).state ∧
    (let s := modPart (asked 5 [1, 0, 5]) 0 (fun x => { x with saved := some { savedCore with cores := [(0, { Core.reset with codeValid := [(0, true)] })] } })
     (imageOf s 0 1).any (fun i => (i.img.specs[0]?).any (fun r => specRange r 5 && !runsOn s 0 1 r &&
       (patchHits 0 r 0 || patchHits 0 r 1))) = true ∧ (partOf s 0).state = 5 ∧ (partOf s 0).saved.isSome = true ∧ (partOf s 0).launches = []) := by decide

theorem wit_ContextCommands_failed :
    let s := modPart (shelved 5 1 0 1) 0 (fun x => { x with saved := some savedCore })
    savedState s 0 ((layersOf (partOf s 0).layers).headD 0) = some savedCore ∧ areaFails s 0 savedCore ≠ none := by decide

/-- A control core whose bundle's last word is the window's last and which has no control slot. -/
theorem wit_StepRunsTheBundle_stop :
    let s := modCore controlRuns 384 (fun c => { c with pc := 0xFFFC, code := [(0x3FFF, 0x80002106)], codeValid := [(0x3FFF, true)] })
    ∃ d ws b i, nextDue s = some d ∧ d.ev = .issue 384 ∧ (coreOf s 384).run = .running ∧
      fetchBundle (coreOf s 384) 8 (coreOf s 384).pc = .ok ws ∧ decodeBundle ws = .ok b ∧ b.slots = [(0, i)] ∧ controlOp i = true ∧
      codeEndFaults (coreOf s 384) b ≠ [] :=
  ⟨_, _, _, _, rfl, rfl, by decide, rfl, rfl, rfl, by decide, by decide⟩

theorem wit_CycleEnds_timing :
    let s := { State.reset with agenda := [], inbox := [(1, .timing 0 7)] }
    nextDue s = none ∧ fromOutside s = none ∧ (1, Instr.timing 0 7) ∈ s.inbox ∧ 1 ≤ s.now + 1 := by decide

theorem wit_CoreTimetable_levels : cancKnown (partOf (waiting []) 0) 1 0 = true ∧ cancNames (partOf (waiting []) 0) 1 0 0 = true := by decide

end Sys2Proof.Tests
end

section
/-! SUPPORT. Ageing of the launch queue (R79): fields of an entry's word, what a launch point does to each entry before it ages any,
and which entries it ages. -/

namespace Sys2Proof.Machine

/-! ### Fields of an entry's word -/

/-- A number as what lies above, in and below the `n` bits from `lo`. -/
theorem split_field (X lo n : Nat) :
    X = 2 ^ lo * (2 ^ n * (X / 2 ^ (lo + n)) + X / 2 ^ lo % 2 ^ n) + X % 2 ^ lo := by
  rw [Nat.pow_add, ← Nat.div_div_eq_div_mul, Nat.div_add_mod, Nat.div_add_mod]

/-- The number that `qSet` forms keeps what lies above and below the field. -/
theorem replace_field (X lo n v : Nat) : X - X / 2 ^ lo % 2 ^ n * 2 ^ lo + v % 2 ^ n * 2 ^ lo =
    2 ^ lo * (2 ^ n * (X / 2 ^ (lo + n)) + v % 2 ^ n) + X % 2 ^ lo := by
  have hX : X = 2 ^ lo * (2 ^ n * (X / 2 ^ (lo + n))) + X % 2 ^ lo + X / 2 ^ lo % 2 ^ n * 2 ^ lo := by
    have hsplit := split_field X lo n
    rwa [Nat.mul_add, Nat.mul_comm (2 ^ lo) (X / 2 ^ lo % 2 ^ n), Nat.add_right_comm] at hsplit
  rw [Nat.sub_eq_of_eq_add hX, Nat.mul_add, Nat.mul_comm (2 ^ lo) (v % 2 ^ n), Nat.add_right_comm]

theorem testBit_qField (w : BitVec 256) (lo n i : Nat) :
    (qField w lo n).testBit i = (decide (i < n) && w.getLsbD (lo + i)) := by
  rw [qField, Nat.testBit_mod_two_pow, Nat.testBit_div_two_pow, BitVec.testBit_toNat, Nat.add_comm]

theorem getLsbD_qSet (w : BitVec 256) {lo n : Nat} (v j : Nat) (h : lo + n ≤ 256) :
    (qSet w lo n v).getLsbD j = if lo ≤ j ∧ j < lo + n then v.testBit (j - lo) else w.getLsbD j := by
  rw [qSet, qField, replace_field, BitVec.getLsbD_ofNat, Nat.testBit_two_pow_mul_add _ (Nat.mod_lt _ (Nat.two_pow_pos lo)),
    Nat.testBit_two_pow_mul_add _ (Nat.mod_lt _ (Nat.two_pow_pos n)), Nat.testBit_mod_two_pow, Nat.testBit_mod_two_pow,
    Nat.testBit_div_two_pow, BitVec.testBit_toNat, BitVec.testBit_toNat]
  by_cases hlo : j < lo
  · have hout : ¬ (lo ≤ j ∧ j < lo + n) := by omega
    have hj : j < 256 := by omega
    simp [hlo, hout, hj]
  · by_cases hin : j - lo < n
    · have hfield : lo ≤ j ∧ j < lo + n := by omega
      have hj : j < 256 := by omega
      simp [hlo, hin, hfield, hj]
    · have hout : ¬ (lo ≤ j ∧ j < lo + n) := by omega
      have hadd : j - lo - n + (lo + n) = j := by omega
      by_cases hj : j < 256
      · simp [hlo, hin, hout, hadd, hj]
      · simp [hlo, hin, hout, hj, BitVec.getLsbD_of_ge w j (by omega)]

/-- A field reads as it was written, cut to its width. -/
theorem qField_qSet_self (w : BitVec 256) {lo n : Nat} (v : Nat) (h : lo + n ≤ 256) :
    qField (qSet w lo n v) lo n = v % 2 ^ n := by
  refine Nat.eq_of_testBit_eq fun i => ?_
  rw [testBit_qField, getLsbD_qSet w v _ h, Nat.testBit_mod_two_pow]
  by_cases hi : i < n <;> simp [hi]

/-- A field that does not meet the written one reads as before. -/
theorem qField_qSet_disjoint (w : BitVec 256) {lo n lo' n' : Nat} (v : Nat) (h : lo + n ≤ 256)
    (hd : lo' + n' ≤ lo ∨ lo + n ≤ lo') : qField (qSet w lo n v) lo' n' = qField w lo' n' := by
  refine Nat.eq_of_testBit_eq fun i => ?_
  rw [testBit_qField, testBit_qField, getLsbD_qSet w v _ h]
  by_cases hi : i < n'
  · rw [if_neg (by omega)]
  · simp [hi]

/-- Of two writes of one field the last stands. -/
theorem qSet_qSet (w : BitVec 256) {lo n : Nat} (u v : Nat) (h : lo + n ≤ 256) :
    qSet (qSet w lo n u) lo n v = qSet w lo n v := by
  refine BitVec.eq_of_getLsbD_eq fun j _ => ?_
  rw [getLsbD_qSet _ v j h, getLsbD_qSet _ v j h, getLsbD_qSet _ u j h]
  split <;> rfl

/-- Two words of an entry with the same PASS and PRIO, and the same image: all that a launch point keeps of an entry that does not
age. -/
structure SameAge (v w : BitVec 256) : Prop where
  pass : qPass w = qPass v
  prio : qPrio w = qPrio v
  handle : qHandle w = qHandle v

theorem SameAge.refl (w : BitVec 256) : SameAge w w := ⟨rfl, rfl, rfl⟩
theorem SameAge.trans {u v w : BitVec 256} (a : SameAge u v) (b : SameAge v w) : SameAge u w :=
  ⟨b.pass.trans a.pass, b.prio.trans a.prio, b.handle.trans a.handle⟩

/-- A state of an entry changes neither its age nor its image. -/
theorem sameAge_setState (w : BitVec 256) (st : Nat) : SameAge w (qSet w 59 3 st) :=
  ⟨qField_qSet_disjoint w st (by omega) (by omega), qField_qSet_disjoint w st (by omega) (by omega),
    qField_qSet_disjoint w st (by omega) (by omega)⟩

theorem qState_setState (w : BitVec 256) (st : Nat) : qState (qSet w 59 3 st) = st % 8 :=
  qField_qSet_self w st (by omega)

/-! ### Ageing of one entry -/

/-- The word of an entry that was passed over (R79). -/
def agedWord (w : BitVec 256) : BitVec 256 :=
  if qPass w + 1 = 8 then qSet (qSet w 72 4 0) 56 2 (min 3 (qPrio w + 1)) else qSet w 72 4 (qPass w + 1)

theorem qState_agedWord (w : BitVec 256) : qState (agedWord w) = qState w := by
  unfold agedWord qState
  split
  · rw [qField_qSet_disjoint _ _ (by omega) (by omega), qField_qSet_disjoint _ _ (by omega) (by omega)]
  · rw [qField_qSet_disjoint _ _ (by omega) (by omega)]

theorem agedWord_below {w : BitVec 256} (h : qPass w + 1 < 8) :
    qPass (agedWord w) = qPass w + 1 ∧ qPrio (agedWord w) = qPrio w := by
  rw [agedWord, if_neg (by omega)]
  exact ⟨(qField_qSet_self w _ (by omega)).trans (Nat.mod_eq_of_lt (by omega)),
    qField_qSet_disjoint w _ (by omega) (by omega)⟩

theorem agedWord_full {w : BitVec 256} (h : qPass w + 1 = 8) :
    qPass (agedWord w) = 0 ∧ qPrio (agedWord w) = min 3 (qPrio w + 1) := by
  rw [agedWord, if_pos h]
  exact ⟨(qField_qSet_disjoint _ _ (by omega) (by omega)).trans (qField_qSet_self w 0 (by omega)),
    (qField_qSet_self _ _ (by omega)).trans (Nat.mod_eq_of_lt (by omega))⟩

/-! ### Writing the queue -/

@[simp] theorem setQueue_staged (x : Part) (e : Nat) (w : BitVec 256) : (setQueue x e w).staged = x.staged := rfl
@[simp] theorem setQueue_ready (x : Part) (e : Nat) (w : BitVec 256) : (setQueue x e w).ready = x.ready := rfl
@[simp] theorem setQueue_waiting (x : Part) (e : Nat) (w : BitVec 256) : (setQueue x e w).waiting = x.waiting := rfl
@[simp] theorem setQueue_resume (x : Part) (e : Nat) (w : BitVec 256) : (setQueue x e w).resume = x.resume := rfl

@[simp] theorem queueEntry_setQueue (x : Part) (a e : Nat) (w : BitVec 256) :
    queueEntry (setQueue x a w) e = if e = a then w else queueEntry x e := tabGet_set _ _ _ _ _

@[simp] theorem queueEntry_setEntry (x : Part) (a e st : Nat) :
    queueEntry (setEntry x a st) e = if e = a then qSet (queueEntry x e) 59 3 st else queueEntry x e := by
  rw [setEntry, queueEntry_setQueue]
  split
  · next h => rw [h]
  · rfl

theorem queueEntry_ageEntry (x : Part) (a e : Nat) :
    queueEntry (ageEntry x a) e = if e = a then agedWord (queueEntry x e) else queueEntry x e := by
  rw [ageEntry, queueEntry_setQueue]
  split
  · next h => rw [h]; rfl
  · rfl

/-- Each of several entries, none named twice, ages once. -/
theorem queueEntry_foldl_ageEntry (l : List Nat) (x : Part) (e : Nat) (hl : l.Nodup) :
    queueEntry (l.foldl ageEntry x) e = if e ∈ l then agedWord (queueEntry x e) else queueEntry x e := by
  induction l generalizing x with
  | nil => rfl
  | cons a l ih =>
    obtain ⟨ha, hl⟩ := List.nodup_cons.mp hl
    rw [List.foldl_cons, ih _ hl, queueEntry_ageEntry]
    by_cases h : e = a
    · subst h; simp [ha]
    · simp [h]

/-! ### Before the start: entries cancelled and refused, and the phase closed -/

/-- Entries of `x` have at most been cancelled or refused in `y`, and the sets noted at A stand. -/
structure Culled (x y : Part) : Prop where
  staged : y.staged = x.staged
  ready : y.ready = x.ready
  waiting : y.waiting = x.waiting
  resume : x.resume = [] → y.resume = []
  age : ∀ e, SameAge (queueEntry x e) (queueEntry y e)
  state : ∀ e, qState (queueEntry y e) = qState (queueEntry x e) ∨ 4 ≤ qState (queueEntry y e)

theorem Culled.refl (x : Part) : Culled x x := ⟨rfl, rfl, rfl, id, fun _ => .refl _, fun _ => .inl rfl⟩

theorem Culled.trans {x y z : Part} (a : Culled x y) (b : Culled y z) : Culled x z where
  staged := b.staged.trans a.staged
  ready := b.ready.trans a.ready
  waiting := b.waiting.trans a.waiting
  resume := b.resume ∘ a.resume
  age e := (a.age e).trans (b.age e)
  state e := (b.state e).elim (fun h => h ▸ a.state e) .inr

/-- An entry that still waits has waited before. -/
theorem Culled.waits {x y : Part} (a : Culled x y) {e : Nat} (h : qState (queueEntry y e) = 1) : qState (queueEntry x e) = 1 := by
  have := a.state e
  omega

theorem culled_setEntry (x : Part) (e : Nat) {st : Nat} (h : st = 4 ∨ st = 5) : Culled x (setEntry x e st) := by
  refine ⟨setQueue_staged x e _, setQueue_ready x e _, setQueue_waiting x e _, (setQueue_resume x e _).trans,
    fun a => ?_, fun a => ?_⟩
  · rw [queueEntry_setEntry]
    split
    · exact sameAge_setState _ _
    · exact .refl _
  · rw [queueEntry_setEntry]
    split
    · right
      rw [qState_setState]
      omega
    · exact .inl rfl

/-- The entry moves to state `st`, cancelled or refused, or nothing changes. -/
theorem culled_ite (x : Part) (e : Nat) {st : Nat} (h : st = 4 ∨ st = 5) (c : Prop) [Decidable c] :
    Culled x (if c then setEntry x e st else x) := by
  split
  · exact culled_setEntry x e h
  · exact .refl x

theorem culled_foldl {f : Part → Nat → Part} (h : ∀ x e, Culled x (f x e)) (l : List Nat) (x : Part) : Culled x (l.foldl f x) :=
  List.foldlRecOn l f (.refl x) fun y hy e _ => hy.trans (h y e)

/-- One round of R73's second clause: the entries whose predecessors include a cancelled one are cancelled. -/
def cancelFollowers (x : Part) : Part := (List.range 64).foldl (fun x e =>
  if stoodAtA x e ∧ (List.range 8).any (fun i => decide (qPredv (queueEntry x e) / 2 ^ i % 2 = 1) &&
    decide (qState (queueEntry x (qPred (queueEntry x e) i)) = 4)) = true then setEntry x e 4 else x) x

theorem culled_cancelFollowers (x : Part) : Culled x (cancelFollowers x) :=
  culled_foldl (fun x e => culled_ite x e (.inl rfl) _) _ x

/-- The first clause of R73: the entries that a cancel covers are cancelled. -/
def cancelCovered (x : Part) : Part :=
  (List.range 64).foldl (fun x e => if stoodAtA x e ∧ inCancelled x e = true then setEntry x e 4 else x) x

theorem culled_cancelCovered (x : Part) : Culled x (cancelCovered x) :=
  culled_foldl (fun x e => culled_ite x e (.inl rfl) _) _ x

/-- What is cancelled has left the cancels to apply and the launches to restart. -/
def forgetCancelled (x : Part) : Part :=
  { x with
    canc := x.canc.filter (fun k => notStarted x k.id && cancHits x k k.id)
    resume := x.resume.filter (fun c => qState (queueEntry x c.entry) ≠ 4) }

theorem culled_forgetCancelled (x : Part) : Culled x (forgetCancelled x) :=
  ⟨rfl, rfl, rfl, fun h => List.filter_eq_nil_iff.mpr (by simp [h]), fun _ => .refl _, fun _ => .inl rfl⟩

theorem cancelEntries_eq (x : Part) : cancelEntries x =
    forgetCancelled ((List.range 64).foldl (fun x _ => cancelFollowers x) (cancelCovered x)) := rfl

theorem culled_cancelEntries (x : Part) : Culled x (cancelEntries x) := by
  rw [cancelEntries_eq]
  exact ((culled_cancelCovered x).trans (culled_foldl (fun x _ => culled_cancelFollowers x) _ _)).trans
    (culled_forgetCancelled _)

theorem culled_closePhase (x : Part) : Culled x (closePhase x) := by
  unfold closePhase
  dsimp only
  split
  · exact ⟨rfl, rfl, rfl, id, fun _ => .refl _, fun _ => .inl rfl⟩
  · exact .refl x

/-- Entry `e` of the partition is refused if it waits and its image is not bound (R444). -/
def refuseEntry (s : State) (p : Nat) (x : Part) (e : Nat) : Part :=
  if qState (queueEntry x e) = 1 ∧ (boundImage s p (qHandle (queueEntry x e))).isNone = true then setEntry x e 5 else x

theorem culled_refuseEntry (s : State) (p : Nat) (x : Part) (e : Nat) : Culled x (refuseEntry s p x e) :=
  culled_ite x e (.inr rfl) _

theorem refuseEntries_eq (s : State) (p : Nat) :
    refuseEntries s p = modPart s p (fun x => x.waiting.foldl (refuseEntry s p) x) := rfl

/-- The image of entry `e` is loaded and bound, if the entry waits. -/
def BoundIfWaiting (s : State) (p : Nat) (x : Part) (e : Nat) : Prop :=
  qState (queueEntry x e) = 1 → (boundImage s p (qHandle (queueEntry x e))).isSome = true

theorem BoundIfWaiting.culled {s : State} {p e : Nat} {x y : Part} (h : BoundIfWaiting s p x e) (a : Culled x y) :
    BoundIfWaiting s p y e := fun hy => by
  rw [(a.age e).handle]
  exact h (a.waits hy)

theorem boundIfWaiting_refuseEntry (s : State) (p : Nat) (x : Part) (e : Nat) : BoundIfWaiting s p (refuseEntry s p x e) e := by
  unfold refuseEntry
  split
  · intro h
    rw [queueEntry_setEntry, if_pos rfl, qState_setState] at h
    omega
  · next hn =>
    intro h
    rw [Option.isSome_iff_ne_none]
    exact fun hb => hn ⟨h, by rw [hb]; rfl⟩

theorem boundIfWaiting_foldl (s : State) (p : Nat) (l : List Nat) (x : Part) {e : Nat} (he : e ∈ l) :
    BoundIfWaiting s p (l.foldl (refuseEntry s p) x) e := by
  induction l generalizing x with
  | nil => cases he
  | cons a l ih =>
    rcases List.mem_cons.mp he with rfl | he
    · exact (boundIfWaiting_refuseEntry s p x e).culled (culled_foldl (culled_refuseEntry s p) l _)
    · exact ih _ he

/-- The state in which a launch point selects: cancels applied, entries refused, the phase closed (R75). -/
def culled (s : State) (p : Nat) : State := modPart (refuseEntries (modPart s p cancelEntries) p) p closePhase

theorem culled_images (s : State) (p : Nat) : (culled s p).images = s.images := by
  rw [culled, modPart_images, refuseEntries_eq, modPart_images, modPart_images]

theorem partOf_culled (s : State) (p : Nat) : partOf (culled s p) p = closePhase
    ((cancelEntries (partOf s p)).waiting.foldl (refuseEntry (modPart s p cancelEntries) p) (cancelEntries (partOf s p))) := by
  rw [culled, partOf_modPart_self, refuseEntries_eq, partOf_modPart_self, partOf_modPart_self]

theorem culled_spec (s : State) (p : Nat) : Culled (partOf s p) (partOf (culled s p) p) := by
  rw [partOf_culled]
  exact ((culled_cancelEntries _).trans (culled_foldl (culled_refuseEntry _ p) _ _)).trans (culled_closePhase _)

theorem imageOf_congr {s t : State} (h : t.images = s.images) (p i : Nat) : imageOf t p i = imageOf s p i := by
  rw [imageOf, imageOf, h]

theorem imageOf_of_boundImage {s : State} {p i : Nat} (h : (boundImage s p i).isSome = true) : (imageOf s p i).isSome = true := by
  obtain ⟨l, hl⟩ := Option.isSome_iff_exists.mp h
  exact Option.isSome_iff_exists.mpr ⟨l, (Option.filter_eq_some_iff.mp hl).1⟩

/-- An entry that waited at A and still waits at the selection has its image. -/
theorem culled_hasImage (s : State) (p e : Nat) (he : e ∈ (partOf s p).waiting)
    (hw : qState (queueEntry (partOf (culled s p) p) e) = 1) :
    (imageOf (culled s p) p (qHandle (queueEntry (partOf (culled s p) p) e))).isSome = true := by
  have hb : BoundIfWaiting (modPart s p cancelEntries) p (partOf (culled s p) p) e := by
    rw [partOf_culled]
    refine (boundIfWaiting_foldl _ p _ _ ?_).culled (culled_closePhase _)
    rwa [(culled_cancelEntries _).waiting]
  rw [imageOf_congr ((culled_images s p).trans (modPart_images s p cancelEntries).symm)]
  exact imageOf_of_boundImage (hb hw)

/-! ### The start of the staged entries -/

theorem loadTable_keeps (s : State) (p need : Nat) (i : Image) :
    (loadTable s p need i).parts = s.parts ∧ (loadTable s p need i).images = s.images :=
  List.foldlRecOn (motive := fun t : State => t.parts = s.parts ∧ t.images = s.images) _ _ ⟨rfl, rfl⟩ fun _ ht _ _ => ht

theorem entryResume_nil {s : State} {p : Nat} (h : (partOf s p).resume = []) (e : Nat) (vids : List Nat) :
    entryResume s p e vids = [] := by
  unfold entryResume
  simp [h]

/-- A core with no unit to resume begins a unit without a write. -/
theorem beginUnit_fresh {s : State} {g : Nat} (h : (coreOf s g).resume = []) (v : Nat) :
    beginUnit s g v = setCore s g { coreOf s g with vid := v, pc := (coreOf s g).entryOff } := by
  unfold beginUnit
  simp [h]

/-- A core's start changes no partition and no image, where no launch of a checkpoint is to be restarted. -/
theorem startCore_keeps (s : State) (p e t : Nat) (b : Nat × List Nat × Nat) (nvc : Nat) (h : (partOf s p).resume = []) :
    (startCore s p e t b nvc).parts = s.parts ∧ (startCore s p e t b nvc).images = s.images := by
  unfold startCore
  split
  · exact ⟨rfl, rfl⟩
  · dsimp only
    rw [entryResume_nil h, beginUnit_fresh (by rw [coreOf_modCore_self])]
    simp only [postAt_parts, postAt_images, setCore_parts, setCore_images, modCore_parts, modCore_images, and_self]

theorem startCores_keep (s : State) (p e t nvc : Nat) (bs : List (Nat × List Nat × Nat)) (h : (partOf s p).resume = []) :
    (bs.foldl (fun s b => startCore s p e t b nvc) s).parts = s.parts ∧
    (bs.foldl (fun s b => startCore s p e t b nvc) s).images = s.images := by
  refine List.foldlRecOn (motive := fun t : State => t.parts = s.parts ∧ t.images = s.images) _ _ ⟨rfl, rfl⟩ fun u hu b _ => ?_
  have hr : (partOf u p).resume = [] := by rwa [partOf, hu.1]
  obtain ⟨hp, hi⟩ := startCore_keeps u p e t b nvc hr
  exact ⟨hp.trans hu.1, hi.trans hu.2⟩

/-- The partition's launches become `ls`, the latest of them that of entry `e`. -/
def noteLaunch (e : Nat) (ls : List Launch) (x : Part) : Part :=
  { x with cancInst := x.cancInst.filter (· ≠ (0, e)), launches := ls, lastLaunch := some e }

theorem queueEntry_noteLaunch (e : Nat) (ls : List Launch) (x : Part) (a : Nat) :
    queueEntry (noteLaunch e ls x) a = queueEntry x a := rfl
theorem noteLaunch_resume (e : Nat) (ls : List Launch) (x : Part) : (noteLaunch e ls x).resume = x.resume := rfl

/-- What the partition notes of the start of entry `e` as launch `l`. -/
def noteStart (e : Nat) (l : Launch) (x : Part) : Part :=
  noteLaunch e (x.launches.filter (fun y => y.entry ≠ e) ++ [l]) (setEntry x e 2)

theorem queueEntry_noteStart (e : Nat) (l : Launch) (x : Part) (a : Nat) :
    queueEntry (noteStart e l x) a = if a = e then qSet (queueEntry x a) 59 3 2 else queueEntry x a := by
  rw [noteStart, queueEntry_noteLaunch, queueEntry_setEntry]

theorem noteStart_resume (e : Nat) (l : Launch) (x : Part) : (noteStart e l x).resume = x.resume := by
  rw [noteStart, noteLaunch_resume, setEntry, setQueue_resume]

/-- The launch of entry `e` is no longer to be restarted. -/
def restarted (e : Nat) (x : Part) : Part := { x with resume := x.resume.filter (fun c => c.entry ≠ e) }

theorem queueEntry_restarted (e : Nat) (x : Part) (a : Nat) : queueEntry (restarted e x) a = queueEntry x a := rfl
theorem restarted_resume {e : Nat} {x : Part} (h : x.resume = []) : (restarted e x).resume = [] := by
  rw [restarted, h]
  rfl

theorem startEntry_eq {s : State} {p e : Nat} {i : Loaded} (t : Nat)
    (hi : imageOf s p (qHandle (queueEntry (partOf s p) e)) = some i) : ∃ (l : Launch) (bs : List (Nat × List Nat × Nat)),
    startEntry s p e t = modPart (bs.foldl (fun s b => startCore s p e t b i.img.nvc)
      (modPart (loadTable s p (entryNeed (partOf s p) e) i.img) p (noteStart e l))) p (restarted e) := by
  unfold startEntry
  dsimp only
  rw [hi]
  exact ⟨_, _, rfl⟩

/-- A start moves the entry to the running state and changes no other entry. -/
theorem startEntry_spec {s : State} {p e : Nat} (t : Nat) (hr : (partOf s p).resume = [])
    (hi : (imageOf s p (qHandle (queueEntry (partOf s p) e))).isSome = true) :
    (startEntry s p e t).images = s.images ∧ (partOf (startEntry s p e t) p).resume = [] ∧
    ∀ a, queueEntry (partOf (startEntry s p e t) p) a =
      if a = e then qSet (queueEntry (partOf s p) a) 59 3 2 else queueEntry (partOf s p) a := by
  obtain ⟨i, hi⟩ := Option.isSome_iff_exists.mp hi
  obtain ⟨l, bs, heq⟩ := startEntry_eq t hi
  obtain ⟨hlp, hli⟩ := loadTable_keeps s p (entryNeed (partOf s p) e) i.img
  have hload : partOf (loadTable s p (entryNeed (partOf s p) e) i.img) p = partOf s p := by rw [partOf, hlp, partOf]
  generalize loadTable s p (entryNeed (partOf s p) e) i.img = u at heq hli hload
  have hnoted : partOf (modPart u p (noteStart e l)) p = noteStart e l (partOf s p) := by rw [partOf_modPart_self, hload]
  have hnr : (partOf (modPart u p (noteStart e l)) p).resume = [] := by rw [hnoted, noteStart_resume, hr]
  obtain ⟨hcp, hci⟩ := startCores_keep _ p e t i.img.nvc bs hnr
  have hpart : partOf (startEntry s p e t) p = restarted e (noteStart e l (partOf s p)) := by
    rw [heq, partOf_modPart_self, partOf, hcp, ← partOf, hnoted]
  refine ⟨?_, ?_, fun a => ?_⟩
  · rw [heq, modPart_images, hci, modPart_images, hli]
  · rw [hpart]
    exact restarted_resume ((noteStart_resume e l _).trans hr)
  · rw [hpart, queueEntry_restarted, queueEntry_noteStart]

/-- The started entries run, and every other entry is as it was. -/
theorem queueEntry_foldl_startEntry (l : List Nat) (s : State) (p t a : Nat) (hr : (partOf s p).resume = [])
    (hi : ∀ e ∈ l, (imageOf s p (qHandle (queueEntry (partOf s p) e))).isSome = true) :
    queueEntry (partOf (l.foldl (fun s e => startEntry s p e t) s) p) a =
      if a ∈ l then qSet (queueEntry (partOf s p) a) 59 3 2 else queueEntry (partOf s p) a := by
  induction l generalizing s with
  | nil => rfl
  | cons b l ih =>
    obtain ⟨himg, hres, hq⟩ := startEntry_spec t hr (hi b (List.mem_cons_self ..))
    have hhandle (e : Nat) :
        qHandle (queueEntry (partOf (startEntry s p b t) p) e) = qHandle (queueEntry (partOf s p) e) := by
      rw [hq]
      split
      · exact (sameAge_setState _ 2).handle
      · rfl
    rw [List.foldl_cons, ih _ hres (fun e he => by
      rw [hhandle, imageOf_congr himg]
      exact hi e (List.mem_cons_of_mem _ he)), hq]
    by_cases hab : a = b
    · simp [hab, qSet_qSet]
    · simp [hab]

/-! ### The launch point -/

/-- The entries that the launch point starts, of those staged. -/
def toStart (x : Part) : List Nat :=
  if stopPends x then [] else x.staged.filter (fun e => qState (queueEntry x e) = 1 || x.resume.any (fun c => c.entry = e))

/-- The ready entries that it passes over. -/
def passedOver (x : Part) : List Nat := x.ready.filter (fun e => !(toStart x).contains e && qState (queueEntry x e) = 1)

/-- The sets noted at A are spent. -/
def spendSets (x : Part) : Part := { x with staged := [], ready := [], waiting := [] }

theorem queueEntry_spendSets (x : Part) (e : Nat) : queueEntry (spendSets x) e = queueEntry x e := rfl

/-- The passed-over entries age where an entry starts, and the sets noted at A are spent. -/
def ageQueue (x y : Part) : Part :=
  spendSets (if toStart x = [] then y else (passedOver x).foldl ageEntry y)

theorem queueEntry_ageQueue {x : Part} (hn : x.ready.Nodup) (y : Part) (e : Nat) : queueEntry (ageQueue x y) e =
    if toStart x ≠ [] ∧ e ∈ passedOver x then agedWord (queueEntry y e) else queueEntry y e := by
  rw [ageQueue, queueEntry_spendSets]
  split
  · next h => simp [h]
  · next h =>
    have hpassed : (passedOver x).Nodup := List.Pairwise.filter _ hn
    rw [queueEntry_foldl_ageEntry _ y e hpassed]
    simp [h]

theorem runQueue_eq (s : State) (p t : Nat) : runQueue s p t =
    modPart ((toStart (partOf (culled s p) p)).foldl (fun s e => startEntry s p e t) (culled s p)) p
      (ageQueue (partOf (culled s p) p)) := rfl

theorem mem_toStart {x : Part} (hr : x.resume = []) {e : Nat} (h : e ∈ toStart x) :
    e ∈ x.staged ∧ qState (queueEntry x e) = 1 := by
  unfold toStart at h
  split at h
  · cases h
  · simpa [hr] using h

theorem mem_passedOver {x : Part} {e : Nat} :
    e ∈ passedOver x ↔ e ∈ x.ready ∧ e ∉ toStart x ∧ qState (queueEntry x e) = 1 := by
  simp [passedOver]

section LaunchPoint

variable {s : State} {p : Nat} (hr : (partOf s p).resume = []) (hn : (partOf s p).ready.Nodup)
  (hs : ∀ e ∈ (partOf s p).staged, e ∈ (partOf s p).waiting)

include hr hs in
theorem toStart_hasImage {e : Nat} (he : e ∈ toStart (partOf (culled s p) p)) :
    (imageOf (culled s p) p (qHandle (queueEntry (partOf (culled s p) p) e))).isSome = true := by
  have hc := culled_spec s p
  obtain ⟨hst, hw⟩ := mem_toStart (hc.resume hr) he
  rw [hc.staged] at hst
  exact culled_hasImage s p e (hs e hst) hw

include hr hn hs

/-- The word of entry `e` after a launch point, from its word at the selection: it runs, or it has aged, or nothing changed. -/
theorem queueEntry_runQueue (t e : Nat) : queueEntry (partOf (runQueue s p t) p) e =
    if e ∈ toStart (partOf (culled s p) p) then qSet (queueEntry (partOf (culled s p) p) e) 59 3 2
    else if toStart (partOf (culled s p) p) ≠ [] ∧ e ∈ passedOver (partOf (culled s p) p) then
      agedWord (queueEntry (partOf (culled s p) p) e)
    else queueEntry (partOf (culled s p) p) e := by
  have hc := culled_spec s p
  have hn' : (partOf (culled s p) p).ready.Nodup := by rwa [hc.ready]
  rw [runQueue_eq, partOf_modPart_self, queueEntry_ageQueue hn',
    queueEntry_foldl_startEntry _ _ p t e (hc.resume hr) fun _ => toStart_hasImage hr hs]
  by_cases he : e ∈ toStart (partOf (culled s p) p)
  · have hpassed : e ∉ passedOver (partOf (culled s p) p) := fun h => (mem_passedOver.mp h).2.1 he
    rw [if_pos he, if_neg (fun h => hpassed h.2), if_pos he]
  · rw [if_neg he, if_neg he]

theorem qState_runQueue (t e : Nat) : qState (queueEntry (partOf (runQueue s p t) p) e) =
    if e ∈ toStart (partOf (culled s p) p) then 2 else qState (queueEntry (partOf (culled s p) p) e) := by
  rw [queueEntry_runQueue hr hn hs]
  split
  · exact qState_setState _ 2
  · split
    · exact qState_agedWord _
    · rfl

/-- An entry starts, as the queue shows it, exactly where the selection leaves one to start. -/
theorem exists_started_iff (t : Nat) :
    (∃ e, e ∈ (partOf s p).staged ∧ qState (queueEntry (partOf s p) e) = 1 ∧
      qState (queueEntry (partOf (runQueue s p t) p) e) = 2) ↔ toStart (partOf (culled s p) p) ≠ [] := by
  have hc := culled_spec s p
  constructor
  · rintro ⟨e, -, hwait, hrun⟩ hnone
    rw [qState_runQueue hr hn hs, hnone, if_neg List.not_mem_nil] at hrun
    have hstate := hc.state e
    omega
  · intro h
    obtain ⟨e, he⟩ := List.exists_mem_of_ne_nil _ h
    obtain ⟨hst, hw⟩ := mem_toStart (hc.resume hr) he
    exact ⟨e, hc.staged ▸ hst, hc.waits hw, by rw [qState_runQueue hr hn hs, if_pos he]⟩

/-- Where an entry starts, a ready entry that still waits has aged. -/
theorem queueEntry_runQueue_passed {t e : Nat} (hstart : toStart (partOf (culled s p) p) ≠ []) (he : e ∈ (partOf s p).ready)
    (hw : qState (queueEntry (partOf (runQueue s p t) p) e) = 1) :
    queueEntry (partOf (runQueue s p t) p) e = agedWord (queueEntry (partOf (culled s p) p) e) := by
  rw [qState_runQueue hr hn hs] at hw
  have hnot : e ∉ toStart (partOf (culled s p) p) := fun h => by
    rw [if_pos h] at hw
    omega
  rw [if_neg hnot] at hw
  have hready : e ∈ (partOf (culled s p) p).ready := by rwa [(culled_spec s p).ready]
  rw [queueEntry_runQueue hr hn hs, if_neg hnot, if_pos ⟨hstart, mem_passedOver.mpr ⟨hready, hnot, hw⟩⟩]

/-- Where none starts, no entry ages. -/
theorem sameAge_runQueue (t e : Nat) (hnone : toStart (partOf (culled s p) p) = []) :
    SameAge (queueEntry (partOf s p) e) (queueEntry (partOf (runQueue s p t) p) e) := by
  rw [queueEntry_runQueue hr hn hs, hnone, if_neg List.not_mem_nil, if_neg (fun h => h.1 rfl)]
  exact (culled_spec s p).age e

end LaunchPoint

/-- Settles O59: cancels and refusals keep every age, a staged entry that still waits has its image and so starts, and the ready
entries left waiting age once each. -/
theorem queueAgeing : Obligations.QueueAgeing := by
  unfold Obligations.QueueAgeing
  intro p t s x y started hr hn hstaged _
  have hs : ∀ e ∈ x.staged, e ∈ x.waiting := fun e he => (hstaged e he).2
  have hstart := exists_started_iff hr hn hs t
  refine ⟨fun h e he hw => ?_, fun h e => ?_⟩
  · have hage := (culled_spec s p).age e
    rw [queueEntry_runQueue_passed hr hn hs (hstart.mp h) he hw, ← hage.pass, ← hage.prio]
    exact ⟨agedWord_below, agedWord_full⟩
  · have hage := sameAge_runQueue hr hn hs t e (Classical.not_not.mp (mt hstart.mpr h))
    exact ⟨hage.pass, hage.prio⟩

end Sys2Proof.Machine
end

section
/-! SUPPORT. The scalar register forms of R223 and R224: what each of the model's functions of words is, and that a form whose
meaning is `scalarOp` lands what `scalarOp` is given. -/

namespace Sys2Proof.Machine

/-- An instruction whose meaning is a scalar operation lands that operation's value. -/
theorem scalarLands_of_exec {i : Instr} {d : RegField} {m : Md} {cls n : Nat} {x y : Word} {s : State}
    (hexec : exec i s = scalarOp i d m cls n y s) (hval : y = x) : ScalarLands i d m cls n x s := by
  subst hval
  intro hfaults halone
  obtain ⟨t, hnext, hkept, hdues⟩ := scalarOp_completes i d m cls n y s hfaults halone
  exact ⟨t, hexec.trans hnext, hkept, hdues⟩

/-! ### Division (R223) -/

theorem tmod_eq_sub_tdiv_mul (a b : Int) : a.tmod b = a - a.tdiv b * b := by
  rw [Int.tmod_def, Int.mul_comm]

theorem tmod_nonpos {a : Int} (b : Int) (h : a ≤ 0) : a.tmod b ≤ 0 := by
  have hneg : 0 ≤ (-a).tmod b := Int.tmod_nonneg b (by omega)
  rw [Int.neg_tmod] at hneg
  omega

/-- The quotient of the overflowing pair, 2^63, wraps to -2^63. -/
theorem divS_eq (a b : Word) : divS a b =
    if b = 0 then BitVec.ofInt 64 (-1)
    else if a.toInt = -2 ^ 63 ∧ b.toInt = -1 then BitVec.ofInt 64 (-2 ^ 63)
    else BitVec.ofInt 64 (a.toInt.tdiv b.toInt) := by
  unfold divS
  split
  · rfl
  · split
    next h =>
      obtain ⟨ha, hb⟩ := h
      rw [ha, hb]
      decide
    · rfl

theorem divU_eq (a b : Word) : divU a b =
    if b = 0 then BitVec.ofNat 64 (2 ^ 64 - 1) else BitVec.ofNat 64 (a.toNat / b.toNat) := rfl

theorem remS_eq (a b : Word) : remS a b =
    if b = 0 then a
    else if a.toInt = -2 ^ 63 ∧ b.toInt = -1 then 0
    else BitVec.ofInt 64 (a.toInt - a.toInt.tdiv b.toInt * b.toInt) := by
  unfold remS
  rw [tmod_eq_sub_tdiv_mul]
  split
  · rfl
  · split
    next h =>
      obtain ⟨ha, hb⟩ := h
      rw [ha, hb]
      decide
    · rfl

theorem remU_eq (a b : Word) : remU a b =
    if b = 0 then a else BitVec.ofNat 64 (a.toNat - a.toNat / b.toNat * b.toNat) := by
  rw [remU, Nat.mod_eq_sub_div_mul]

/-- Settles O2: each form lands the value of its function of words, whose cases are those of R223, and the remainder has the sign
of the dividend as `Int.tmod` has. -/
theorem divisionResults : Obligations.DivisionResults := by
  unfold Obligations.DivisionResults
  intro d a b m s x y
  refine ⟨scalarLands_of_exec (exec_div ..) (divS_eq x y), scalarLands_of_exec (exec_divn ..) (divU_eq x y),
    scalarLands_of_exec (exec_rem ..) (remS_eq x y), scalarLands_of_exec (exec_remn ..) (remU_eq x y), ?_⟩
  rw [← tmod_eq_sub_tdiv_mul]
  exact ⟨Int.tmod_nonneg _, tmod_nonpos _⟩

/-! ### Counting bits (R224) -/

theorem clzW_le (x : Word) : clzW x ≤ 64 := by
  unfold clzW
  split <;> omega

theorem toNat_ne_zero {x : Word} (h : x ≠ 0) : x.toNat ≠ 0 := fun hx => h (BitVec.eq_of_toNat_eq hx)

theorem log2_toNat_lt {x : Word} (h : x ≠ 0) : x.toNat.log2 < 64 := (Nat.log2_lt (toNat_ne_zero h)).mpr x.isLt

/-- The bits above the highest one are clear. -/
theorem getLsbD_of_clzW_le {x : Word} {i : Nat} (h : 64 - clzW x ≤ i) : x.getLsbD i = false := by
  unfold clzW at h
  split at h
  next hx => rw [hx]; exact BitVec.getLsbD_zero
  next hx =>
    have hlog := log2_toNat_lt hx
    exact Nat.testBit_lt_two_pow (Nat.lt_of_lt_of_le Nat.lt_log2_self (Nat.pow_le_pow_right (by decide) (by omega)))

/-- Below the leading zeros stands a one. -/
theorem getLsbD_sub_clzW {x : Word} (h : clzW x < 64) : x.getLsbD (63 - clzW x) = true := by
  unfold clzW at h ⊢
  split at h
  next => omega
  next hx =>
    have hlog := log2_toNat_lt hx
    rw [if_neg hx, show 63 - (63 - x.toNat.log2) = x.toNat.log2 by omega]
    exact Nat.testBit_log2 (toNat_ne_zero hx)

theorem ctzGo_le (k x : Nat) : ctzGo k x ≤ k := by
  induction k generalizing x with
  | zero => exact Nat.le_refl 0
  | succ k ih =>
    have := ih (x / 2)
    unfold ctzGo
    split <;> omega

theorem testBit_of_lt_ctzGo {k x i : Nat} (h : i < ctzGo k x) : x.testBit i = false := by
  induction k generalizing x i with
  | zero => exact absurd h (Nat.not_lt_zero i)
  | succ k ih =>
    unfold ctzGo at h
    split at h
    next => exact absurd h (Nat.not_lt_zero i)
    next heven =>
      cases i with
      | zero => rw [Nat.testBit_zero, decide_eq_false heven]
      | succ i => rw [Nat.testBit_succ, ih (by omega)]

theorem testBit_ctzGo {k x : Nat} (h : ctzGo k x < k) : x.testBit (ctzGo k x) = true := by
  induction k generalizing x with
  | zero => exact absurd h (Nat.not_lt_zero _)
  | succ k ih =>
    unfold ctzGo at h ⊢
    split
    next hodd => rw [Nat.testBit_zero, decide_eq_true hodd]
    next heven =>
      rw [if_neg heven] at h
      rw [Nat.add_comm 1, Nat.testBit_succ, ih (by omega)]

/-- `popcGo` counts the set bits among the `k` lowest. -/
theorem popcGo_eq_length_filter (k x : Nat) : popcGo k x = ((List.range k).filter x.testBit).length := by
  induction k generalizing x with
  | zero => rfl
  | succ k ih =>
    have hshift : x.testBit ∘ Nat.succ = (x / 2).testBit := funext (Nat.testBit_succ x)
    rw [popcGo, ih, List.range_succ_eq_map, List.filter_cons, List.filter_map, hshift, Nat.testBit_zero]
    split
    next hodd =>
      rw [of_decide_eq_true hodd, List.length_cons, List.length_map, Nat.add_comm]
    next heven =>
      have hlow : x % 2 = 0 := Nat.mod_two_ne_one.mp (mt decide_eq_true heven)
      rw [hlow, List.length_map, Nat.zero_add]

/-- Class S has no instruction under the unassigned code. -/
theorem decodeS_unassigned {f : Fields} (ks : List Nat) (h : f.opc = 0x1B) : decodeS f ks = .error 1 := by
  simp only [decodeS, h]

theorem decodeSlot_classS_error {w e : Nat} {ks : List Nat} (hcls : (fieldsOf w).cls = 0)
    (herr : decodeS (fieldsOf w) ks = .error e) : decodeSlot w ks = .error e := by
  simp only [decodeSlot, hcls, herr]

/-- Settles O3: SEL lands the operand its model chooses; the counts are pinned by the bits they pass over and the one at which they
stop; the decoder of class S has no arm for code 0x1B. -/
theorem selectAndCountResults : Obligations.SelectAndCountResults := by
  unfold Obligations.SelectAndCountResults
  intro d a b m s x bits
  refine ⟨scalarLands_of_exec (exec_sel ..) rfl, ⟨clzW x, scalarLands_of_exec (exec_clz ..) rfl, clzW_le x, ?_, getLsbD_sub_clzW⟩,
    ⟨ctzW x, scalarLands_of_exec (exec_ctz ..) rfl, ctzGo_le 64 _, ?_, testBit_ctzGo⟩, scalarLands_of_exec (exec_popc ..) ?_, ?_⟩
  · exact fun i hi _ => getLsbD_of_clzW_le hi
  · exact fun i hi => testBit_of_lt_ctzGo hi
  · exact congrArg bits (popcGo_eq_length_filter 64 _)
  · exact fun w ks hcls hopc => decodeSlot_classS_error hcls (decodeS_unassigned ks hopc)

end Sys2Proof.Machine
end
